-- ==== Sys2Proof/Word.lean ====
section
/-! DEFINITION. The byte of the two serial connections, and the one arithmetic idiom of the manual's counters:
a count that holds (saturates) at a stated maximum (00_scope.md, "Counts and times"). -/

namespace Sys2Proof

/-- One byte of a telegram or of a command port transaction (12_record_and_telegram_layouts.md). -/
abbrev Byte := BitVec 8

/-- `a + b`, holding at `limit`: how every saturating count of the part rises. -/
def addCapped (limit a b : Nat) : Nat := min limit (a + b)

end Sys2Proof
end

