-- ==== Sys2Proof/Syntax.lean ====
section
/-! DEFINITION. The commands of the block: one constructor of `Instr` per row of spec/opcode_table.json, with the row's
operands, and the typed host commands (12.2) that the command slot and the host rows share. -/

namespace Sys2Proof

/-- The two sides of the frame (00_scope.md, "Terms"). -/
inductive Side where
  | a
  | b
  deriving DecidableEq, Repr

/-- An article record (section 1.6). A host command may carry any values; R14 checks the ranges. -/
structure Article where
  id      : Nat
  tex     : Nat
  twist   : Nat
  draft   : Nat
  roving  : Nat
  copMass : Nat
  deriving DecidableEq, Repr

/-- The fields of CONFIGURE as the record carries them, in the order of R184's table. `joined` and the four fault setups
are the raw bytes (R189); `faults` lists the setups of inputs 0 to 3. -/
structure Configuration where
  station       : Nat
  spindles      : Nat
  joined        : Nat
  circumference : Nat
  ppr           : Nat
  scanPeriod    : Nat
  upPercent     : Nat
  downPercent   : Nat
  slots         : Nat
  claimLevel    : Nat
  settleWindow  : Nat
  attemptLimit  : Nat
  rogueLimit    : Nat
  escalationAge : Nat
  endsDownLimit : Nat
  emptyMargin   : Nat
  lineDivisor   : Nat
  faults        : List Nat
  arrivalTime   : Nat
  orderTime     : Nat
  exchangeTime  : Nat
  bookingGrace  : Nat
  doffTime      : Nat
  horizon       : Nat
  deriving DecidableEq, Repr

/-- A host command with the fields of its record (12.2), in the order of the command kinds of R189. Codes and numbers are
as the record carries them; the command's own rule judges a value outside its range. -/
inductive Command where
  | status
  | configure (c : Configuration)
  | stageArticle (a : Article)
  | armArticle
  | start
  | warmReset
  | lineRestart
  | clearFault
  | readSpindle (index : Nat)
  | readStrip (number : Nat)
  | readQueue (side : Nat)
  | readEngagement (side : Nat)
  | readSection (number : Nat)
  | readBookings
  | readDoff
  | readPeers
  | readShift
  | readReport (place : Nat)
  | readAlert
  | ackAlert (code subject : Nat)
  | readLine
  | readInputs
  | setLockout (lower upper invert : Nat)
  | clearLockout
  | pinLockout
  | clearRogue (index : Nat)
  | creelConfirm (number outcome : Nat)
  | doffRequest
  | doffComplete
  | doffAbandon
  | closeShift (number : Nat)
  | holdSet
  | holdClear
  | faultAck (input : Nat)
  deriving DecidableEq, Repr

/-- The rows of spec/opcode_table.json. A host command's row carries its host tag first. -/
inductive Instr where
  /-- POWER_ON (R174): supply rise, or RESET_N rising. -/
  | powerOn
  /-- DELIVERY_PULSE (R1). -/
  | deliveryPulse
  /-- DEVICE_SECOND (R2): one second of the reference clock. -/
  | deviceSecond
  /-- RATE_BUCKET_CLOSE (R3). -/
  | rateBucketClose
  /-- STRIP_READ (R24): the reply of the strip whose turn it is; `none` is a missed reply, else the 24 counts. -/
  | stripRead (reply : Option (List Nat))
  /-- ESCALATION (R52). -/
  | escalation
  /-- PIECING_HOLD (R56). -/
  | piecingHold
  /-- PIECE_CALL_REPEAT (R65), of one side's engagement. -/
  | pieceCallRepeat (side : Side)
  /-- SINCE_CALL_LIMIT (R66), of one side's engagement. -/
  | sinceCallLimit (side : Side)
  /-- ARRIVAL_TIMEOUT (R70), of one side's engagement. -/
  | arrivalTimeout (side : Side)
  /-- ORDER_TIMEOUT (R79), of one side's engagement. -/
  | orderTimeout (side : Side)
  /-- BAR_END (R68), of one side's barred-robot entry. -/
  | barEnd (side : Side)
  /-- BOOKING_LAPSE (R105), of booking slot 1 or 2. -/
  | bookingLapse (slot : Nat)
  /-- EXCHANGE_TIMEOUT (R110), of one section. -/
  | exchangeTimeout (number : Nat)
  /-- ANNOUNCEMENT_COUNT (R97). -/
  | announcementCount
  /-- RECOMPUTE (R91). -/
  | recompute
  /-- LISTEN_END (R139). -/
  | listenEnd
  /-- CONFIRM_END (R120). -/
  | confirmEnd
  /-- DOFF_TIMER (R122). -/
  | doffTimer
  /-- SETTLE_WINDOW_END (R126). -/
  | settleWindowEnd
  /-- NEXT_ANNOUNCEMENT (R117, R123, R128). -/
  | nextAnnouncement
  /-- PEER_SILENCE (R136). -/
  | peerSilence
  /-- LINE_QUIET (R169). -/
  | lineQuiet
  /-- SWEEP_STEP (R153). -/
  | sweepStep
  /-- RUN_CHANGE (R174): the new taken level of RUN. -/
  | runChange (active : Bool)
  /-- MAINT_CHANGE (R37): the new taken level of MAINT. -/
  | maintChange (level : Bool)
  /-- FAULT_INPUT (R175): the new taken level of one fault input. -/
  | faultInput (input : Nat) (high : Bool)
  /-- COMMAND_WRITE (R181, R189): the bytes the host clocks in the transaction, the first included. -/
  | commandWrite (bytes : List Byte)
  /-- COMMAND_DISPATCH (R181). -/
  | commandDispatch
  /-- RESPONSE_READ (R182, R189): the bytes the host clocks in the transaction, the first included. -/
  | responseRead (bytes : List Byte)
  | status (tag : Nat)
  | configure (tag : Nat) (c : Configuration)
  | stageArticle (tag : Nat) (a : Article)
  | armArticle (tag : Nat)
  | start (tag : Nat)
  | warmReset (tag : Nat)
  | lineRestart (tag : Nat)
  | clearFault (tag : Nat)
  | readSpindle (tag index : Nat)
  | readStrip (tag number : Nat)
  | readQueue (tag side : Nat)
  | readEngagement (tag side : Nat)
  | readSection (tag number : Nat)
  | readBookings (tag : Nat)
  | readDoff (tag : Nat)
  | readPeers (tag : Nat)
  | readShift (tag : Nat)
  | readReport (tag place : Nat)
  | readAlert (tag : Nat)
  | ackAlert (tag code subject : Nat)
  | readLine (tag : Nat)
  | readInputs (tag : Nat)
  | setLockout (tag lower upper invert : Nat)
  | clearLockout (tag : Nat)
  | pinLockout (tag : Nat)
  | clearRogue (tag index : Nat)
  | creelConfirm (tag number outcome : Nat)
  | doffRequest (tag : Nat)
  | doffComplete (tag : Nat)
  | doffAbandon (tag : Nat)
  | closeShift (tag number : Nat)
  | holdSet (tag : Nat)
  | holdClear (tag : Nat)
  | faultAck (tag input : Nat)
  /-- TELEGRAM_RECEIVED (R163): the bytes taken from the first start bit after the line was idle, whether a stop bit
  was sampled dominant after them, and whether further bytes came before the line was next idle. -/
  | telegramReceived (bytes : List Byte) (badStop trailing : Bool)
  /-- LINE_GAINED (R164): recessive bit times that have passed on the line. -/
  | lineGained (bits : Nat)
  /-- COLLISION (R165): the bit of the telegram being sent that is read back as the other level, counted from 0, the first
  start bit. -/
  | collision (bit : Nat)
  /-- TELEGRAM_SENT (R165). -/
  | telegramSent
  /-- TELEGRAM_PASSED_OVER (R167). -/
  | telegramPassedOver
  | robotOffer
  | robotArrived
  | workResult
  | robotWithdraw
  | stationRestartPiecing
  | stationRestartCreel
  | stationRestartDoff
  | carrierBooking
  | exchangeBegin
  | exchangeEnd
  | bookingDone
  | doffClaim
  | doffState
  | doffDone
  | doffWithdraw
  | shiftMark
  | shiftTotals
  /-- RESET_N_LOW (R174): RESET_N falls low. -/
  | resetNLow
  deriving DecidableEq, Repr

end Sys2Proof
end

