-- ==== Sys2Proof/Config.lean ====
section
/-! DEFINITION. The fixed numbers of the part (capacities, intervals, field maxima) and the free values: what the
manual leaves open, as constants without a body. -/

namespace Sys2Proof.Config

/-- Maximum of the delivery count and of every mark: 2^48 - 1 (R1). -/
abbrev maxCount : Nat := 281474976710655
/-- Maximum of a 64-bit quantity. -/
abbrev max64 : Nat := 18446744073709551615
/-- Maximum of a 32-bit count (R1, R2). -/
abbrev max32 : Nat := 4294967295
/-- Maximum of a 16-bit count. -/
abbrev max16 : Nat := 65535
/-- Maximum of an 8-bit count. -/
abbrev max8 : Nat := 255
/-- A rate bucket counts up to this and holds there (R3). -/
abbrev bucketMax : Nat := 16777215
/-- Completed buckets the rate window keeps (R3). -/
abbrev windowBuckets : Nat := 6
/-- Device seconds between two bucket closes (R3). -/
abbrev bucketSeconds : Nat := 10
/-- The smallest expected count that classifies (R25). -/
abbrev minExpected : Nat := 32
/-- Spindles of one strip, positions of one section (00_scope.md, "Spindle numbering"). -/
abbrev perStrip : Nat := 24
/-- Reads that set or clear the lazy flag (R27). -/
abbrev lazyReads : Nat := 20
/-- Entries a side's piecing queue holds (R46). -/
abbrev queueCapacity : Nat := 48
/-- The most attempts a record holds (R53). -/
abbrev maxAttempts : Nat := 5
/-- Device seconds after which a robot piecing has held (R56). -/
abbrev holdSeconds : Nat := 60
/-- Device seconds between two PIECE_CALLs (R65). -/
abbrev callSeconds : Nat := 10
/-- Device seconds of a calling spell at which NO_ROBOT is raised (R66). -/
abbrev noRobotSeconds : Nat := 600
/-- Device seconds a robot is barred (R79). -/
abbrev barSeconds : Nat := 300
/-- Device seconds between two recomputes (R91). -/
abbrev recomputeSeconds : Nat := 60
/-- Entries of the due list (R94). -/
abbrev dueCapacity : Nat := 16
/-- Entries of the due list that are announced (R96). -/
abbrev announcedDue : Nat := 6
/-- Device seconds between two repeats of ROVING_DUE (R97). -/
abbrev announceSeconds : Nat := 300
/-- Sections one booking holds (R103). -/
abbrev bookingCapacity : Nat := 8
/-- Device seconds of the listen interval (R117, chapter 8). -/
abbrev listenSeconds : Nat := 3
/-- Device seconds of the confirm interval (R140). -/
abbrev confirmSeconds : Nat := 2
/-- Device seconds between two doff announcements (R117, R123). -/
abbrev doffAnnounceSeconds : Nat := 5
/-- Pulse-free seconds that pass the stop test (R121). -/
abbrev stopSeconds : Nat := 2
/-- Device seconds of silence that remove a peer (R136). -/
abbrev peerSilenceSeconds : Nat := 15
/-- Entries of the peer doff view (R134). -/
abbrev viewCapacity : Nat := 16
/-- The limit the fill is clamped at (R10). -/
abbrev maxFill : Nat := 1999
/-- The fill of a full cop (R10). -/
abbrev fullFill : Nat := 1000
/-- Segments of one shift (R148). -/
abbrev maxSegments : Nat := 4
/-- Reports of the ring (R156). -/
abbrev ringCapacity : Nat := 4
/-- Telegrams of the outgoing queue (R166). -/
abbrev outgoingCapacity : Nat := 8
/-- Telegrams of the receive buffer (R167). -/
abbrev receiveCapacity : Nat := 4
/-- Collisions that drop a telegram (R165). -/
abbrev maxCollisions : Nat := 16
/-- Device seconds that make the line quiet (R169). -/
abbrev quietSeconds : Nat := 30
/-- Recessive bit times that make the line idle (R161). -/
abbrev idleBits : Nat := 11
/-- The longest telegram payload (R162). -/
abbrev maxPayload : Nat := 24
/-- The bit times of the longest telegram (R162). -/
abbrev maxTelegramBits : Nat := 300
/-- Entries of the alert list (R178). -/
abbrev alertCapacity : Nat := 32

/-! ### Free values (assumption log 2) -/

/-- FREE VALUE: the index a PIECE_CALL carries where the queue summary has no queued index (R65 and R79 queue a
PIECE_CALL whatever the queues hold; R60 gives no value for an empty queue). Applied to a counter of State. -/
opaque emptyCallIndex : Nat → BitVec 16

/-- FREE VALUE: the meaning of a flag byte that is neither 0 (clear) nor 1 (set); R189 codes only these two. -/
opaque oddFlagByte : Nat → Bool

/-- FREE VALUE: the bytes the part returns in a status read after the status byte; R189 gives the status byte alone. Applied to a
counter of State. -/
opaque statusReadByte : Nat → BitVec 8

/-- FREE VALUE: whether a fault setup byte with a bit of 4 to 7 set is in range; R189 gives bits 0 to 3 only. -/
opaque oddSetupByte : Nat → Bool

end Sys2Proof.Config
end

