-- ==== Sys2Proof/Machine/State.lean ====
section
/-! DEFINITION. Everything the spec gives the part, block by block (00_scope.md, "Block diagram"), the queue of waiting
commands, and the state after power-on. Counts are `Nat`s kept inside their ranges by the operations that move them. -/

namespace Sys2Proof.Machine

/-! ### Stops -/

/-- No command of the table stops the part: the spec gives every one an effect, so there is no fault. -/
inductive Fault where
  deriving DecidableEq, Repr

/-- Why `exec` has no meaning for a command. -/
inductive Refusal where
  /-- Raised by `exec` alone, for a row that has no meaning yet; no arm raises it. Safe: nothing is claimed of the row. -/
  | notModelled (mnemonic : String)
  deriving DecidableEq, Repr

/-! ### Delivery counter (chapter 1) -/

structure Delivery where
  /-- delivery count (R1) -/
  count        : Nat
  /-- jog count (R1) -/
  jog          : Nat
  /-- device seconds (R2) -/
  seconds      : Nat
  /-- pulse-free seconds (R2) -/
  pulseFree    : Nat
  /-- completed buckets, oldest first (R3) -/
  buckets      : List Nat
  /-- the open bucket; absent outside RUNNING (R3) -/
  openBucket   : Option Nat
  /-- device second of the next bucket close (R3: every tenth device second after START) -/
  nextBucketAt : Option Nat
  /-- active article (R16, R17) -/
  active       : Option Article
  /-- staged article (R14) -/
  staged       : Option Article
  /-- armed flag (R15) -/
  armed        : Bool
  deriving DecidableEq, Repr

/-! ### Spindle monitor (chapter 2) -/

/-- Why an end is down (section 2.1). -/
inductive Cause where
  | brk | roving | lockout | rogue
  deriving DecidableEq, Repr

/-- The states of a spindle record (section 2.1). -/
inductive SpState where
  | unseen | up | waiting | queued | ordered | confirming | empty | exchange | locked | rogue | unobserved
  deriving DecidableEq, Repr

/-- The class of a spindle's count at a read (R6, R24). -/
inductive ReadClass where
  | up | slow | down | none
  deriving DecidableEq, Repr

/-- The spindle record (section 2.1). -/
structure Spindle where
  state         : SpState
  cause         : Option Cause
  bookedTo      : Option Nat
  downSince     : Option Nat
  attempts      : Nat
  shiftBreaks   : Nat
  shiftTag      : Nat
  rogueMark     : Bool
  lazy          : Bool
  slowRun       : Nat
  downRun       : Nat
  seenUp        : Bool
  confirmReads  : Nat
  lastClass     : ReadClass
  piecedAt      : Option Nat
  doffStart     : Bool
  lostSinceBase : Nat
  deriving DecidableEq, Repr

/-- The strip record (section 2.2). -/
structure Strip where
  failed       : Bool
  missed       : Nat
  reference    : Nat
  lastAnswered : Option Nat
  lastExpected : Nat
  lastCounts   : List Nat
  deriving DecidableEq, Repr

/-- The lockout range (section 2.6). -/
structure Lockout where
  lower  : Nat
  upper  : Nat
  invert : Bool
  deriving DecidableEq, Repr

/-- Where the strip rotation stands: the pass, counted from START, and the strip whose turn it is (R23). -/
structure Rotation where
  pass  : Nat
  strip : Nat
  deriving DecidableEq, Repr

structure Monitor where
  /-- the spindle table: record i stands at place i - 1; empty before CONFIGURE (R42) -/
  spindles   : List Spindle
  /-- the strip table: record s stands at place s - 1; empty before CONFIGURE (R42) -/
  strips     : List Strip
  /-- the strip rotation; absent outside RUNNING (R23, R44) -/
  rotation   : Option Rotation
  lockout    : Option Lockout
  pin        : Bool
  /-- the ends-down above-limit flag (R34) -/
  aboveLimit : Bool
  deriving DecidableEq, Repr

/-! ### Piecing engine (chapters 3 and 4) -/

/-- An entry of a piecing queue (section 3.2). -/
structure QueueEntry where
  index     : Nat
  escalated : Bool
  deriving DecidableEq, Repr

/-- The states of an engagement (section 4.1). -/
inductive EngState where
  | idle | calling | awaiting | working | orderOut | suspended
  deriving DecidableEq, Repr

/-- An outstanding work order (section 4.1). -/
structure Order where
  index   : Nat
  attempt : Nat
  tag     : Nat
  deriving DecidableEq, Repr

/-- The engagement record (section 4.1). -/
structure Engagement where
  state     : EngState
  robot     : Option Nat
  order     : Option Order
  position  : Option Nat
  ascending : Bool
  timer     : Option Nat
  timeouts  : Nat
  sinceCall : Nat
  nextCall  : Option Nat
  /-- NO_ROBOT has been raised in this calling spell (R66: once in a spell; assumption log 6) -/
  called    : Bool
  deriving DecidableEq, Repr

/-- A barred-robot entry (R68). -/
structure Bar where
  robot : Nat
  ends  : Nat
  deriving DecidableEq, Repr

/-- What the piecing engine keeps for one side. -/
structure SidePiecing where
  /-- the side's piecing queue, ascending by index (R46) -/
  queue   : List QueueEntry
  /-- the side's waiting set, oldest down-since first (R46) -/
  waiting : List Nat
  eng     : Engagement
  bar     : Option Bar
  deriving DecidableEq, Repr

structure Piecing where
  a         : SidePiecing
  b         : SidePiecing
  /-- next order tag (R73) -/
  nextTag   : Nat
  /-- late results (R74) -/
  late      : Nat
  /-- stray robot telegrams (R69, R81) -/
  stray     : Nat
  deriving DecidableEq, Repr

/-! ### Creel unit (chapters 5 and 6) -/

/-- The states of a section (R86). -/
inductive SectionState where
  | normal | exchanging | unknown
  deriving DecidableEq, Repr

/-- A section's base: base mark, loaded length and the 24 rem_base values (section 5.1). -/
structure Base where
  mark   : Nat
  loaded : Nat
  rem    : List Nat
  deriving DecidableEq, Repr

/-- The section record (section 5.1), with its entry in the exchange register (chapter 6). -/
structure Section where
  state   : SectionState
  base    : Option Base
  /-- recorded minutes -/
  minutes : Option Nat
  due     : Bool
  /-- booking reference: slot 1 or 2 -/
  booking : Option Nat
  /-- exchange timer -/
  timer   : Option Nat
  /-- exchange register: the carrier that began this section's exchange -/
  carrier : Option Nat
  deriving DecidableEq, Repr

/-- An entry of the due list (R94). -/
structure DueEntry where
  number  : Nat
  minutes : Nat
  deriving DecidableEq, Repr

/-- A booking in a slot (chapter 6). -/
structure Booking where
  carrier  : Nat
  eta      : Nat
  lapse    : Nat
  sections : List Nat
  deriving DecidableEq, Repr

structure Creel where
  /-- the section table: section k stands at place k - 1; empty before CONFIGURE (R100) -/
  sections      : List Section
  dueList       : List DueEntry
  /-- the first-six sequence held for R96 -/
  firstSix      : List Nat
  /-- the device second the announcement count counts from; absent before START (R97) -/
  announceFrom  : Option Nat
  /-- the device second of the last ROVING_DUE queued (R99) -/
  dueSentAt     : Option Nat
  /-- the device second of the next recompute (R91) -/
  nextRecompute : Option Nat
  slot1         : Option Booking
  slot2         : Option Booking
  /-- stray carrier telegrams (R107) -/
  stray         : Nat
  deriving DecidableEq, Repr

/-! ### Doff sequencer (chapters 7 and 8) -/

/-- The doff states (section 7.1). -/
inductive DoffState where
  | spinning | claimed | fullWait | granted | rundown | doffing | restart | settling | unknown
  deriving DecidableEq, Repr

/-- A claim's urgency (section 7.1). -/
inductive Urgency where
  | normal | full
  deriving DecidableEq, Repr

/-- The phase of a peer (section 8.1). -/
inductive Phase where
  | claimed | granted | rundown | doffing | unknown
  deriving DecidableEq, Repr

/-- An entry of the peer doff view (section 8.1). -/
structure Peer where
  station : Nat
  phase   : Phase
  urgency : Urgency
  wait    : Nat
  heard   : Nat
  deriving DecidableEq, Repr

structure Doff where
  state         : DoffState
  copMark       : Nat
  urgency       : Urgency
  firstClaim    : Option Nat
  nextAnn       : Option Nat
  listenEnd     : Option Nat
  confirmEnd    : Option Nat
  doffTimer     : Option Nat
  settleStart   : Option Nat
  settleSeconds : Nat
  manual        : Bool
  /-- the peer doff view, ascending by station (section 8.1) -/
  view          : List Peer
  grantedWait   : Option Nat
  dropped       : Nat
  backOffs      : Nat
  deriving DecidableEq, Repr

/-! ### Shift counter (chapter 9) -/

/-- A segment of a shift (section 9.1). -/
structure Segment where
  /-- article id and tex_c, present or absent together -/
  article    : Option (Nat × Nat)
  startCount : Nat
  runStart   : Option Nat
  runPulses  : Nat
  brk        : Nat
  roving     : Nat
  lockout    : Nat
  rogue      : Nat
  openLosses : Nat
  up         : Nat
  length     : Nat
  mass       : Nat
  breaks     : Nat
  doffStarts : Nat
  byRobot    : Nat
  byHand     : Nat
  mixed      : Bool
  deriving DecidableEq, Repr

/-- The flags of a shift (section 9.1). -/
structure ShiftFlags where
  gap        : Bool
  mixed      : Bool
  warmReset  : Bool
  noDelivery : Bool
  deriving DecidableEq, Repr

/-- A shift record (section 9.1). -/
structure Shift where
  number        : Nat
  openedSeconds : Nat
  openedCount   : Nat
  /-- closed at: device seconds and delivery count -/
  closedAt      : Option (Nat × Nat)
  runSeconds    : Nat
  stopSeconds   : Nat
  flags         : ShiftFlags
  unobserved    : Nat
  doffs         : Nat
  /-- rogue count and lazy count -/
  counts        : Option (Nat × Nat)
  segments      : List Segment
  deriving DecidableEq, Repr

/-- The closing state with the closing shift (section 9.1, R152). -/
structure Closing where
  shift   : Shift
  /-- sweep position, 1..N+1 -/
  sweep   : Nat
  /-- a CLOSE_SHIFT is waiting on the sweep -/
  waiting : Bool
  deriving DecidableEq, Repr

/-- A stored report (R156). -/
structure Report where
  shift      : Shift
  efficiency : Nat
  breakRate  : Nat
  deriving DecidableEq, Repr

/-- The last heard totals (R158). -/
structure Totals where
  source  : Nat
  number  : Nat
  seconds : Nat
  deriving DecidableEq, Repr

structure ShiftCounter where
  opened  : Shift
  closing : Option Closing
  /-- the report ring, newest first -/
  ring    : List Report
  /-- refused shift marks (R151) -/
  refused : Nat
  totals  : Option Totals
  deriving DecidableEq, Repr

/-! ### Line controller (chapter 10) -/

/-- The telegram kinds (R170). -/
inductive Kind where
  | stationRestart | doffClaim | doffState | doffDone | doffWithdraw
  | robotOffer | robotAccept | robotDecline | robotArrived | workOrder | workCancel | workResult | robotRelease
  | robotWithdraw | carrierBooking | bookingAck | exchangeBegin | exchangeEnd | bookingDone
  | pieceCall | rovingDue | shiftMark | shiftTotals
  deriving DecidableEq, Repr

/-- A telegram: header fields and payload (R162). The class is fixed by the kind (R170). -/
structure Telegram where
  kind    : Kind
  source  : Nat
  dest    : Nat
  payload : List Byte
  deriving DecidableEq, Repr

/-- A telegram of the outgoing queue or in the transmit register, with its collision count and its order of joining. -/
structure Outgoing where
  tel        : Telegram
  collisions : Nat
  joined     : Nat
  deriving DecidableEq, Repr

/-- A telegram of the receive buffer. A STATION_RESTART is taken by three blocks, each as its own event (R167): the marks
say which have taken it. -/
structure Received where
  tel       : Telegram
  byPiecing : Bool
  byCreel   : Bool
  byDoff    : Bool
  deriving DecidableEq, Repr

/-- The counters of the line controller (chapter 10). -/
structure LineCounters where
  sent       : Nat
  received   : Nat
  framing    : Nat
  check      : Nat
  overrun    : Nat
  unknown    : Nat
  collisions : Nat
  dropped    : Nat
  deriving DecidableEq, Repr

structure Line where
  /-- the outgoing queue, by class and then by order of joining (R166) -/
  out         : List Outgoing
  /-- the model's stamp for the order of joining -/
  nextJoin    : Nat
  /-- the transmit register -/
  sending     : Option Outgoing
  /-- the receive buffer, in order of arrival (R167) -/
  rx          : List Received
  /-- idle count (R161) -/
  idle        : Nat
  lastHeard   : Option Nat
  /-- device second of the latest line restart (R169) -/
  restartedAt : Nat
  counters    : LineCounters
  /-- the bytes of the telegram that this station has just sent to the end, until its own reception of them is judged (R163) -/
  ownSent     : Option (List Byte)
  liveQuiet   : Bool
  stickyQuiet : Bool
  deriving DecidableEq, Repr

/-! ### Frame interface (chapter 11) -/

/-- The alert codes, in the order of R189. -/
inductive AlertCode where
  | lazySpindle | stripLost | endsDown | rogueSpindle | noRobot | robotLost | rovingEmpty | bookingLapsed
  | exchangeUnknown | doffTimeout | doffUnknown | peerViewFull | segmentMerge | shiftGap | telegramDropped
  | duplicateStation | lineQuiet | faultInput
  deriving DecidableEq, Repr

/-- The alert classes (00_scope.md, "Alert classes"). -/
inductive AlertClass where
  | note | action | stop
  deriving DecidableEq, Repr

/-- An entry of the alert list (R178). -/
structure Alert where
  code    : AlertCode
  cls     : AlertClass
  subject : Option Nat
  raised  : Nat
  repeats : Nat
  deriving DecidableEq, Repr

/-- The members of the hold-cause set (R177). -/
inductive HoldCause where
  | notStarted | copFull | doff | fault0 | fault1 | fault2 | fault3 | alertStop | hostHold
  deriving DecidableEq, Repr

/-- The hold-cause set: which of its nine possible members are present (R177). -/
structure HoldSet where
  notStarted : Bool
  copFull    : Bool
  doff       : Bool
  fault0     : Bool
  fault1     : Bool
  fault2     : Bool
  fault3     : Bool
  alertStop  : Bool
  hostHold   : Bool
  deriving DecidableEq, Repr

structure Frame where
  /-- taken level of RUN: active (R174) -/
  run      : Bool
  /-- taken level of MAINT (R174) -/
  maint    : Bool
  /-- taken levels of FAULT_0..FAULT_3: high (R174) -/
  levels   : List Bool
  /-- fault latches 0..3 (R175) -/
  latches  : List Bool
  holds    : HoldSet
  /-- the alert list, oldest first (R178) -/
  alerts   : List Alert
  overflow : Nat
  /-- RESET_N is held low (R174) -/
  resetLow : Bool
  deriving DecidableEq, Repr

/-! ### Command port (chapter 11) -/

/-- The part states (00_scope.md). -/
inductive PartState where
  | init | ready | running
  deriving DecidableEq, Repr

/-- The result codes, in the order of R189. -/
inductive Result where
  | done | busy | notRunning | alreadyConfigured | noArticle | noStaged | outOfRange | noSuch | pinned | notRogue
  | notPending | notDoffing | notAbandonable | stillActive
  deriving DecidableEq, Repr

/-- The causes of the command-fault latch (R181). -/
inductive FaultCause where
  | slotOverrun | badCommand
  deriving DecidableEq, Repr

/-- A response record (R182, R189). -/
structure Response where
  /-- command kind code, 1 to 34 -/
  kind        : Nat
  tag         : Nat
  result      : Result
  overwritten : Bool
  /-- a CLOSE_SHIFT found its shift already open -/
  alreadyOpen : Bool
  body        : List Byte
  deriving DecidableEq, Repr

/-- The commands that stay executing (R181). -/
inductive Executing where
  | closeShift (tag : Nat)
  | lineRestart (tag : Nat)
  deriving DecidableEq, Repr

structure Port where
  part      : PartState
  config    : Option Configuration
  /-- the command slot, with the host tag -/
  slot      : Option (Command × Nat)
  executing : Option Executing
  response  : Option Response
  /-- the response in the buffer has not been read (RESPONSE_READY) -/
  unread    : Bool
  /-- the command-fault latch: its first cause while it is set -/
  latch     : Option FaultCause
  faults    : Nat
  discarded : Nat
  /-- the bytes the part returned in the last transaction, the status byte first (R189) -/
  returned  : List Byte
  deriving DecidableEq, Repr

/-! ### The part -/

/-- The state of the part: its nine blocks, the counter that hands out free values (assumption log 2), and the queue of
waiting commands. -/
structure State where
  del     : Delivery
  mon     : Monitor
  pie     : Piecing
  creel   : Creel
  doff    : Doff
  shift   : ShiftCounter
  line    : Line
  frame   : Frame
  port    : Port
  draws   : Nat
  pending : List Instr
  deriving DecidableEq, Repr

/-! ### Power-on (R19, R42, R61, R85, R100, R115, R131, R144, R159, R173, R187) -/

def Delivery.powerOn : Delivery :=
  { count := 0, jog := 0, seconds := 0, pulseFree := 0, buckets := [], openBucket := none, nextBucketAt := none,
    active := none, staged := none, armed := false }

def Monitor.powerOn : Monitor :=
  { spindles := [], strips := [], rotation := none, lockout := none, pin := false, aboveLimit := false }

/-- An engagement as power-on and a warm reset leave it (R85). -/
def Engagement.reset : Engagement :=
  { state := .idle, robot := none, order := none, position := none, ascending := true, timer := none, timeouts := 0,
    sinceCall := 0, nextCall := none, called := false }

def SidePiecing.reset : SidePiecing :=
  { queue := [], waiting := [], eng := Engagement.reset, bar := none }

def Piecing.powerOn : Piecing :=
  { a := SidePiecing.reset, b := SidePiecing.reset, nextTag := 0, late := 0, stray := 0 }

def Creel.powerOn : Creel :=
  { sections := [], dueList := [], firstSix := [], announceFrom := none, dueSentAt := none, nextRecompute := none,
    slot1 := none, slot2 := none, stray := 0 }

def Doff.powerOn : Doff :=
  { state := .spinning, copMark := 0, urgency := .normal, firstClaim := none, nextAnn := none, listenEnd := none,
    confirmEnd := none, doffTimer := none, settleStart := none, settleSeconds := 0, manual := false, view := [],
    grantedWait := none, dropped := 0, backOffs := 0 }

/-- A segment opened at `start`, all its totals and counts 0 (R147, R152). -/
def Segment.opened (article : Option (Nat × Nat)) (start : Nat) : Segment :=
  { article := article, startCount := start, runStart := some start, runPulses := 0, brk := 0, roving := 0,
    lockout := 0, rogue := 0, openLosses := 0, up := 0, length := 0, mass := 0, breaks := 0, doffStarts := 0,
    byRobot := 0, byHand := 0, mixed := false }

def ShiftFlags.clear : ShiftFlags := { gap := false, mixed := false, warmReset := false, noDelivery := false }

/-- A shift opened at a mark, with one segment (R152, R159). -/
def Shift.opened (number seconds count : Nat) (article : Option (Nat × Nat)) (gap : Bool) : Shift :=
  { number := number, openedSeconds := seconds, openedCount := count, closedAt := none, runSeconds := 0,
    stopSeconds := 0, flags := { ShiftFlags.clear with gap := gap }, unobserved := 0, doffs := 0, counts := none,
    segments := [Segment.opened article count] }

def ShiftCounter.powerOn : ShiftCounter :=
  { opened := Shift.opened 0 0 0 none false, closing := none, ring := [], refused := 0, totals := none }

def LineCounters.zero : LineCounters :=
  { sent := 0, received := 0, framing := 0, check := 0, overrun := 0, unknown := 0, collisions := 0, dropped := 0 }

def Line.powerOn : Line :=
  { out := [], nextJoin := 0, sending := none, rx := [], idle := 0, lastHeard := none, restartedAt := 0,
    counters := LineCounters.zero, ownSent := none, liveQuiet := false, stickyQuiet := false }

def HoldSet.powerOn : HoldSet :=
  { notStarted := true, copFull := false, doff := false, fault0 := false, fault1 := false, fault2 := false,
    fault3 := false, alertStop := false, hostHold := false }

def Frame.powerOn : Frame :=
  { run := false, maint := false, levels := [false, false, false, false], latches := [false, false, false, false],
    holds := HoldSet.powerOn, alerts := [], overflow := 0, resetLow := false }

def Port.powerOn : Port :=
  { part := .init, config := none, slot := none, executing := none, response := none, unread := false, latch := none,
    faults := 0, discarded := 0, returned := [] }

/-- The part right after power-on: INIT, every block at its power-on values, RESET_N high, no command waiting. -/
def State.reset : State :=
  { del := Delivery.powerOn, mon := Monitor.powerOn, pie := Piecing.powerOn, creel := Creel.powerOn,
    doff := Doff.powerOn, shift := ShiftCounter.powerOn, line := Line.powerOn, frame := Frame.powerOn,
    port := Port.powerOn, draws := 0, pending := [] }

end Sys2Proof.Machine
end

