-- ==== Sys2Proof/Machine/Arith.lean ====
section
/-! DEFINITION. Chapter 1's arithmetic: the rate, and every conversion from pulses to what the part reports or compares.
Exact integers; a product is formed in full before its division, and every division truncates. -/

namespace Sys2Proof.Machine

/-- A prediction that may be HELD (R9, R90). -/
inductive Minutes where
  | held
  | value (n : Nat)
  deriving DecidableEq, Repr

/-- The rate in pulses per minute from the completed buckets; `none` is UNKNOWN (R4). -/
def ratePulses (buckets : List Nat) : Option Nat :=
  if buckets.length = 0 then none
  else if buckets.length < Config.windowBuckets then some (buckets.sum * 6 / buckets.length)
  else some buckets.sum

/-- length_mm(p) (R5). -/
def lengthMm (c : Configuration) (p : Nat) : Nat := p * c.circumference / (c.ppr * 1000)

/-- The rate in mm/min; `none` is UNKNOWN (R4). -/
def rateMm (c : Configuration) (buckets : List Nat) : Option Nat := (ratePulses buckets).map (lengthMm c)

/-- The rate a time prediction uses: `none` where it is HELD, that is UNKNOWN or 0 mm/min (R4). -/
def predictionRate (c : Configuration) (buckets : List Nat) : Option Nat :=
  match rateMm c buckets with
  | some (r + 1) => some (r + 1)
  | _ => none

/-- The expected traveller count of a read with ΔP pulses (R6). -/
def expectedCount (c : Configuration) (twist deltaP : Nat) : Nat :=
  deltaP * c.circumference * twist / (c.ppr * 1000000)

/-- The class of one spindle's count against the expected count (R6). -/
def classOf (c : Configuration) (expected count : Nat) : ReadClass :=
  if c.upPercent * expected ≤ count * 100 then .up
  else if count * 100 < c.downPercent * expected then .down
  else .slow

/-- The up-pulses since base of a position: delivery count `p`, base mark, lost-since-base, and the booked-to of a record
in a down state (R7). Each step clamps at 0. -/
def upPulses (p mark lost : Nat) (openFrom : Option Nat) : Nat :=
  match openFrom with
  | some t => p - mark - lost - (p - t)
  | none => p - mark - lost

/-- The roving used by `u` up-pulses under a draft (R7). -/
def usedMm (c : Configuration) (draft u : Nat) : Nat := u * c.circumference / (c.ppr * 10 * draft)

/-- The remaining roving, clamped at 0 (R8). -/
def remainingMm (remBase used : Nat) : Nat := remBase - used

/-- The minutes-to-empty of a position (R9). -/
def positionMinutes (draft : Nat) (rate : Option Nat) (remaining : Nat) : Minutes :=
  match rate with
  | none => .held
  | some r => .value (min Config.max16 (remaining * draft / (100 * r)))

/-- L_cop_mm (R10). -/
def copLength (a : Article) : Nat := a.copMass * 100000000 / a.tex

/-- The fill in thousandths of a full cop, from the pulses since the cop mark (R10). -/
def copFill (c : Configuration) (a : Article) (pulses : Nat) : Nat :=
  min Config.maxFill (1000 * lengthMm c pulses / copLength a)

/-- The mass of an article run from its up-pulses and its own tex (R11, R149). -/
def runMass (c : Configuration) (tex up : Nat) : Nat := lengthMm c up * tex / 100000000

/-- Efficiency in hundredths of a percent; 0 where the divisor is 0 (R12). -/
def efficiencyOf (up gross : Nat) : Nat := if gross = 0 then 0 else 10000 * up / gross

/-- Break rate in tenths of a break per 1,000 spindle-hours; 0 where the divisor is 0 (R13). -/
def breakRateOf (breaks spindles runSeconds : Nat) : Nat :=
  if spindles * runSeconds = 0 then 0 else breaks * 36000000 / (spindles * runSeconds)

/-- The interval I between two strip reads of a pass, in microseconds (R23). -/
def stripInterval (c : Configuration) : Nat := c.scanPeriod * 1000 / (c.spindles / 24)

/-- When strip `r.strip` of pass `r.pass` is read, in microseconds after START (R23). -/
def readTime (c : Configuration) (r : Rotation) : Nat :=
  r.pass * (c.scanPeriod * 1000) + (r.strip - 1) * stripInterval c

/-- Periods of the 24 MHz reference clock in one bit time of the hall line (R161). -/
def bitPeriods (c : Configuration) : Nat := 16 * (c.lineDivisor + 1)

end Sys2Proof.Machine
end

