-- ==== Sys2Proof/Machine/Bytes.lean ====
section
/-! DEFINITION. Byte order, field widths, the CRC of the hall line, and the codes of the enumerated values
(12_record_and_telegram_layouts.md, R162, R188 to R190). -/

namespace Sys2Proof.Machine

/-! ### Byte order and widths (chapter 12, R190) -/

/-- The `w` low bytes of `n`, most significant first. -/
def beBytes : Nat → Nat → List Byte
  | 0, _ => []
  | w + 1, n => BitVec.ofNat 8 (n / 256 ^ w) :: beBytes w n

/-- A field of `w` bytes: most significant byte first, a value that exceeds its width saturates (R190). -/
def field (w n : Nat) : List Byte := beBytes w (min n (256 ^ w - 1))

/-- The number that bytes spell, most significant first. -/
def ofBytes (bs : List Byte) : Nat := bs.foldl (fun n b => n * 256 + b.toNat) 0

/-- `w` bytes of all ones (R190). -/
def ones (w : Nat) : List Byte := List.replicate w (BitVec.ofNat 8 255)

/-- A numeric field that may have no value: the qualifiers of R190. -/
inductive Reported where
  | value (n : Nat)
  | absent
  | held
  | unknown
  deriving DecidableEq, Repr

def Reported.ofOption : Option Nat → Reported
  | some n => .value n
  | none => .absent

/-- A qualified field: the qualifier byte, then `w` value bytes, all ones when the qualifier is not 0 (R190). -/
def qualified (w : Nat) : Reported → List Byte
  | .value n => field 1 0 ++ field w n
  | .absent => field 1 1 ++ ones w
  | .held => field 1 2 ++ ones w
  | .unknown => field 1 3 ++ ones w

/-- A qualified field of an optional value. -/
def optional (w : Nat) (v : Option Nat) : List Byte := qualified w (Reported.ofOption v)

/-- Several fields under one qualifier: `bytes` where present, else `w` bytes of ones (R190). -/
def group (w : Nat) : Option (List Byte) → List Byte
  | some bytes => field 1 0 ++ bytes
  | none => field 1 1 ++ ones w

/-- A flag as one byte. -/
def flag (b : Bool) : List Byte := field 1 (if b then 1 else 0)

/-- A list, preceded by its entry count (R190). -/
def counted {α : Type} (f : α → List Byte) (l : List α) : List Byte := field 1 l.length ++ (l.map f).flatten

/-! ### The CRC (R162) -/

/-- One bit of the CRC register: polynomial x^16 + x^12 + x^5 + 1. -/
def crcBit (r : BitVec 16) : BitVec 16 :=
  if r.getLsbD 15 then (r <<< 1) ^^^ 0x1021#16 else r <<< 1

/-- One byte enters the register most significant bit first. -/
def crcByte (r : BitVec 16) (b : Byte) : BitVec 16 :=
  let r0 := r ^^^ ((b.setWidth 16) <<< 8)
  crcBit (crcBit (crcBit (crcBit (crcBit (crcBit (crcBit (crcBit r0)))))))

/-- The CRC-16 of the hall line, initial value all ones, result not inverted. -/
def crc (bs : List Byte) : BitVec 16 := bs.foldl crcByte 0xFFFF#16

/-! ### Telegrams (R162, R170, 12.1) -/

/-- The class a kind travels in (R170). -/
def Kind.cls : Kind → Nat
  | .stationRestart | .doffClaim | .doffState | .doffDone | .doffWithdraw => 0
  | .robotOffer | .robotAccept | .robotDecline | .robotArrived | .workOrder | .workCancel | .workResult
  | .robotRelease | .robotWithdraw | .carrierBooking | .bookingAck | .exchangeBegin | .exchangeEnd | .bookingDone => 1
  | .pieceCall | .rovingDue => 2
  | .shiftMark | .shiftTotals => 3

/-- Byte 0 of a telegram: class × 64 + kind code (12.1). -/
def Kind.byte0 : Kind → Nat
  | .stationRestart => 1
  | .doffClaim => 2
  | .doffState => 3
  | .doffDone => 4
  | .doffWithdraw => 5
  | .robotOffer => 72
  | .robotAccept => 73
  | .robotDecline => 74
  | .robotArrived => 75
  | .workOrder => 76
  | .workCancel => 77
  | .workResult => 78
  | .robotRelease => 79
  | .robotWithdraw => 80
  | .carrierBooking => 84
  | .bookingAck => 85
  | .exchangeBegin => 86
  | .exchangeEnd => 87
  | .bookingDone => 88
  | .pieceCall => 160
  | .rovingDue => 161
  | .shiftMark => 240
  | .shiftTotals => 241

/-- Every kind of the protocol, in the order of 12.1's table. -/
def Kind.all : List Kind :=
  [.stationRestart, .doffClaim, .doffState, .doffDone, .doffWithdraw, .robotOffer, .robotAccept, .robotDecline,
   .robotArrived, .workOrder, .workCancel, .workResult, .robotRelease, .robotWithdraw, .carrierBooking, .bookingAck,
   .exchangeBegin, .exchangeEnd, .bookingDone, .pieceCall, .rovingDue, .shiftMark, .shiftTotals]

/-- The kind a byte 0 names, class bits included; `none` is an unknown kind (R167, R188). -/
def Kind.ofByte0 (b : Nat) : Option Kind := Kind.all.find? (fun k => k.byte0 == b)

/-- The kind code: byte 0 without the class bits (12.1). -/
def Kind.code (k : Kind) : Nat := k.byte0 % 64

/-- Whether a payload length is one allowed for the kind (12.1, R188). -/
def Kind.lengthOk (k : Kind) (n : Nat) : Bool :=
  match k with
  | .stationRestart | .doffDone | .doffWithdraw | .robotWithdraw | .bookingDone => n == 0
  | .doffClaim | .workResult => n == 6
  | .doffState | .workOrder => n == 4
  | .robotOffer | .robotAccept | .robotDecline | .robotRelease | .exchangeBegin => n == 1
  | .robotArrived | .exchangeEnd | .shiftMark => n == 2
  | .workCancel => n == 3
  | .carrierBooking => 1 ≤ n && n ≤ 9
  | .bookingAck => n ≤ 8
  | .pieceCall => n == 9
  | .rovingDue => n ≤ 18 && n % 3 == 0
  | .shiftTotals => n == 16

/-- Header and payload of a telegram as they are sent (12.1). -/
def Telegram.head (t : Telegram) : List Byte :=
  field 1 t.kind.byte0 ++ field 1 t.source ++ field 1 t.dest ++ field 1 t.payload.length ++ t.payload

/-- The whole telegram with its two check bytes (R162). -/
def Telegram.bytes (t : Telegram) : List Byte := t.head ++ beBytes 2 (crc t.head).toNat

/-- A payload field of `w` bytes at place `at_`. -/
def Telegram.num (t : Telegram) (at_ w : Nat) : Nat := ofBytes ((t.payload.drop at_).take w)

/-! ### Codes (chapter 12) -/

/-- Side codes A 0, B 1 (12.1). -/
def sideCode : Side → Nat
  | .a => 0
  | .b => 1

/-- The side code BOTH (12.1). -/
def bothCode : Nat := 2

/-- Urgency NORMAL 0, FULL 1 (12.1). -/
def Urgency.code : Urgency → Nat
  | .normal => 0
  | .full => 1

def Urgency.ofCode : Nat → Option Urgency
  | 0 => some .normal
  | 1 => some .full
  | _ => none

/-- Phase by its place in the list of section 8.1: CLAIMED 0, GRANTED 1, RUNDOWN 2, DOFFING 3, UNKNOWN 4 (12.1). -/
def Phase.code : Phase → Nat
  | .claimed => 0
  | .granted => 1
  | .rundown => 2
  | .doffing => 3
  | .unknown => 4

/-- The phases a DOFF_STATE may carry (12.1, R133). -/
def Phase.ofCode : Nat → Option Phase
  | 1 => some .granted
  | 2 => some .rundown
  | 3 => some .doffing
  | 4 => some .unknown
  | _ => none

/-- The outcomes of a WORK_RESULT (12.1). -/
inductive WorkOutcome where
  | pieced | failed | skipped | noRoving
  deriving DecidableEq, Repr

def WorkOutcome.ofCode : Nat → Option WorkOutcome
  | 0 => some .pieced
  | 1 => some .failed
  | 2 => some .skipped
  | 3 => some .noRoving
  | _ => none

/-- Spindle states (R190). -/
def SpState.code : SpState → Nat
  | .unseen => 0
  | .up => 1
  | .waiting => 2
  | .queued => 3
  | .ordered => 4
  | .confirming => 5
  | .empty => 6
  | .exchange => 7
  | .locked => 8
  | .rogue => 9
  | .unobserved => 10

/-- Causes, 255 where absent (R190). -/
def causeCode : Option Cause → Nat
  | some .brk => 0
  | some .roving => 1
  | some .lockout => 2
  | some .rogue => 3
  | none => 255

/-- Last classes (R190). -/
def ReadClass.code : ReadClass → Nat
  | .up => 0
  | .slow => 1
  | .down => 2
  | .none => 3

/-- Engagement states by their place in section 4.1's list. -/
def EngState.code : EngState → Nat
  | .idle => 0
  | .calling => 1
  | .awaiting => 2
  | .working => 3
  | .orderOut => 4
  | .suspended => 5

/-- Section states by their place in section 5.1's list. -/
def SectionState.code : SectionState → Nat
  | .normal => 0
  | .exchanging => 1
  | .unknown => 2

/-- Doff states by their place in section 7.1's list. -/
def DoffState.code : DoffState → Nat
  | .spinning => 0
  | .claimed => 1
  | .fullWait => 2
  | .granted => 3
  | .rundown => 4
  | .doffing => 5
  | .restart => 6
  | .settling => 7
  | .unknown => 8

/-- Alert codes 1 to 18 (R189). -/
def AlertCode.code : AlertCode → Nat
  | .lazySpindle => 1
  | .stripLost => 2
  | .endsDown => 3
  | .rogueSpindle => 4
  | .noRobot => 5
  | .robotLost => 6
  | .rovingEmpty => 7
  | .bookingLapsed => 8
  | .exchangeUnknown => 9
  | .doffTimeout => 10
  | .doffUnknown => 11
  | .peerViewFull => 12
  | .segmentMerge => 13
  | .shiftGap => 14
  | .telegramDropped => 15
  | .duplicateStation => 16
  | .lineQuiet => 17
  | .faultInput => 18

/-- Alert classes by their place in R175's list. -/
def AlertClass.code : AlertClass → Nat
  | .note => 0
  | .action => 1
  | .stop => 2

/-- A subject: two bytes, 65,535 for none (R189). -/
def subjectCode : Option Nat → Nat
  | some n => n
  | none => 65535

/-- Part states by their place in 00_scope.md's list. -/
def PartState.code : PartState → Nat
  | .init => 0
  | .ready => 1
  | .running => 2

/-- Result codes 0 to 13 (R189). -/
def Result.code : Result → Nat
  | .done => 0
  | .busy => 1
  | .notRunning => 2
  | .alreadyConfigured => 3
  | .noArticle => 4
  | .noStaged => 5
  | .outOfRange => 6
  | .noSuch => 7
  | .pinned => 8
  | .notRogue => 9
  | .notPending => 10
  | .notDoffing => 11
  | .notAbandonable => 12
  | .stillActive => 13

/-- Causes of the command-fault latch by their place in R181's order, 255 where absent. -/
def faultCauseCode : Option FaultCause → Nat
  | some .slotOverrun => 0
  | some .badCommand => 1
  | none => 255

/-- Command kinds 1 to 34 (R189). -/
def commandKind : Command → Nat
  | .status => 1
  | .configure _ => 2
  | .stageArticle _ => 3
  | .armArticle => 4
  | .start => 5
  | .warmReset => 6
  | .lineRestart => 7
  | .clearFault => 8
  | .readSpindle _ => 9
  | .readStrip _ => 10
  | .readQueue _ => 11
  | .readEngagement _ => 12
  | .readSection _ => 13
  | .readBookings => 14
  | .readDoff => 15
  | .readPeers => 16
  | .readShift => 17
  | .readReport _ => 18
  | .readAlert => 19
  | .ackAlert _ _ => 20
  | .readLine => 21
  | .readInputs => 22
  | .setLockout _ _ _ => 23
  | .clearLockout => 24
  | .pinLockout => 25
  | .clearRogue _ => 26
  | .creelConfirm _ _ => 27
  | .doffRequest => 28
  | .doffComplete => 29
  | .doffAbandon => 30
  | .closeShift _ => 31
  | .holdSet => 32
  | .holdClear => 33
  | .faultAck _ => 34

end Sys2Proof.Machine
end

