-- ==== Sys2Proof/Machine/Flags.lean ====
section
/-! DEFINITION. The frame interface's sets and lists: the hold-cause set and HOLD, the alert list and the alert lines, the
fault inputs, the shift flags byte and the status byte (R175, R177, R178, R180, 12.1). -/

namespace Sys2Proof.Machine

/-! ### Reading the state -/

/-- The present device seconds. -/
def State.now (s : State) : Nat := s.del.seconds

/-- The present delivery count P. -/
def State.count (s : State) : Nat := s.del.count

/-- A configuration with every field 0, read only where no configuration is held (nothing then depends on it). -/
def Configuration.blank : Configuration :=
  { station := 0, spindles := 0, joined := 0, circumference := 0, ppr := 0, scanPeriod := 0, upPercent := 0,
    downPercent := 0, slots := 0, claimLevel := 0, settleWindow := 0, attemptLimit := 0, rogueLimit := 0,
    escalationAge := 0, endsDownLimit := 0, emptyMargin := 0, lineDivisor := 0, faults := [], arrivalTime := 0,
    orderTime := 0, exchangeTime := 0, bookingGrace := 0, doffTime := 0, horizon := 0 }

/-- The configuration held (RUNNING holds one always, R184, R185). -/
def State.cfg (s : State) : Configuration := s.port.config.getD Configuration.blank

/-- The part is RUNNING. -/
def State.running (s : State) : Bool := s.port.part == .running

/-- The configured spindle count N; 0 before CONFIGURE. -/
def State.spindles (s : State) : Nat := s.mon.spindles.length

/-- Joined mode (R64): joined sides is coded split 0, joined 1. -/
def State.joined (s : State) : Bool := s.cfg.joined == 1

/-! ### The hold-cause set (R177) -/

def HoldSet.put (h : HoldSet) (c : HoldCause) (present : Bool) : HoldSet :=
  match c with
  | .notStarted => { h with notStarted := present }
  | .copFull => { h with copFull := present }
  | .doff => { h with doff := present }
  | .fault0 => { h with fault0 := present }
  | .fault1 => { h with fault1 := present }
  | .fault2 => { h with fault2 := present }
  | .fault3 => { h with fault3 := present }
  | .alertStop => { h with alertStop := present }
  | .hostHold => { h with hostHold := present }

def HoldSet.has (h : HoldSet) : HoldCause → Bool
  | .notStarted => h.notStarted
  | .copFull => h.copFull
  | .doff => h.doff
  | .fault0 => h.fault0
  | .fault1 => h.fault1
  | .fault2 => h.fault2
  | .fault3 => h.fault3
  | .alertStop => h.alertStop
  | .hostHold => h.hostHold

/-- The nine members in R177's order. -/
def HoldCause.all : List HoldCause :=
  [.notStarted, .copFull, .doff, .fault0, .fault1, .fault2, .fault3, .alertStop, .hostHold]

/-- FAULT_n. -/
def HoldCause.fault : Nat → HoldCause
  | 0 => .fault0
  | 1 => .fault1
  | 2 => .fault2
  | _ => .fault3

/-- HOLD is driven exactly when the set is non-empty (R177). -/
def HoldSet.driven (h : HoldSet) : Bool := HoldCause.all.any h.has

/-- The set as a number, its members bits 0 to 8 in R177's order (assumption log 5). -/
def HoldSet.bits (h : HoldSet) : Nat :=
  (HoldCause.all.zipIdx.map (fun p => if h.has p.1 then 2 ^ p.2 else 0)).sum

/-- Adds a hold cause. -/
def addHold (c : HoldCause) (s : State) : State :=
  { s with frame := { s.frame with holds := s.frame.holds.put c true } }

/-- Removes a hold cause. -/
def removeHold (c : HoldCause) (s : State) : State :=
  { s with frame := { s.frame with holds := s.frame.holds.put c false } }

/-! ### The alert list (R178) -/

/-- An entry of the code and subject. -/
def Alert.is (code : AlertCode) (subject : Option Nat) (a : Alert) : Bool := a.code == code && a.subject == subject

/-- The list holds an entry of a class: the level of that class's alert line (R178). -/
def Frame.lineOf (f : Frame) (c : AlertClass) : Bool := f.alerts.any (fun a => a.cls == c)

/-- A list without the last entry that passes a test. -/
def dropLastSuch {α : Type} (p : α → Bool) (l : List α) : List α := (l.reverse.eraseP p).reverse

/-- The alert list and the overflow count after an alert is raised: the four cases of R178. -/
def alertsRaised (code : AlertCode) (cls : AlertClass) (subject : Option Nat) (now : Nat) (f : Frame) :
    List Alert × Nat :=
  let entry : Alert := { code := code, cls := cls, subject := subject, raised := now, repeats := 1 }
  if f.alerts.any (Alert.is code subject) then
    (f.alerts.map (fun a =>
      if Alert.is code subject a then { a with repeats := addCapped Config.max8 a.repeats 1 } else a), f.overflow)
  else if f.alerts.length < Config.alertCapacity then
    (f.alerts ++ [entry], f.overflow)
  else if cls != .note && f.alerts.any (fun a => a.cls == .note) then
    (dropLastSuch (fun a => a.cls == .note) f.alerts ++ [entry], f.overflow)
  else
    (f.alerts, addCapped Config.max16 f.overflow 1)

/-- ALERT_STOP is in the set exactly while the list holds a STOP entry (R177 to R179). -/
def Frame.followStop (f : Frame) : Frame :=
  { f with holds := f.holds.put .alertStop (f.alerts.any (fun a => a.cls == .stop)) }

/-- The frame interface after an alert is raised (R178). -/
def Frame.raised (code : AlertCode) (cls : AlertClass) (subject : Option Nat) (now : Nat) (f : Frame) : Frame :=
  let r := alertsRaised code cls subject now f
  { f with alerts := r.1, overflow := r.2 }.followStop

/-- Raises an alert (R178). -/
def raiseAlert (code : AlertCode) (cls : AlertClass) (subject : Option Nat) (s : State) : State :=
  { s with frame := s.frame.raised code cls subject s.now }

/-! ### The fault inputs (R175) -/

/-- The clearing mode and polarity of a fault input, and the class of its alert, from the setup byte of CONFIGURE: polarity
in bit 0 (1 ACTIVE_LOW), mode in bit 1 (1 MANUAL), class in bits 2 and 3 (R189). -/
structure FaultSetup where
  activeLow : Bool
  manual    : Bool
  cls       : AlertClass
  deriving DecidableEq, Repr

def FaultSetup.ofByte (b : Nat) : FaultSetup :=
  { activeLow := b % 2 == 1
    manual := b / 2 % 2 == 1
    cls := match b / 4 % 4 with
      | 0 => .note
      | 1 => .action
      | _ => .stop }

/-- The setup of input `n`; absent before CONFIGURE. -/
def State.faultSetup (s : State) (n : Nat) : Option FaultSetup :=
  match s.port.config with
  | some c => (c.faults[n]?).map FaultSetup.ofByte
  | none => none

/-- Whether a level is the active level of a setup. -/
def FaultSetup.isActive (f : FaultSetup) (high : Bool) : Bool := high != f.activeLow

/-- The taken level of input `n`. -/
def State.faultLevel (s : State) (n : Nat) : Bool := s.frame.levels.getD n false

/-- The latch of input `n`. -/
def State.faultLatch (s : State) (n : Nat) : Bool := s.frame.latches.getD n false

def setLatch (n : Nat) (v : Bool) (s : State) : State :=
  { s with frame := { s.frame with latches := s.frame.latches.set n v } }

/-- An active edge: the latch is set, FAULT_INPUT is raised, and FAULT_n is added for a STOP-class input (R175). -/
def activeEdge (n : Nat) (f : FaultSetup) (s : State) : State :=
  let s := raiseAlert .faultInput f.cls (some n) (setLatch n true s)
  if f.cls = .stop then addHold (HoldCause.fault n) s else s

/-- The latch is cleared, and FAULT_n removed for a STOP-class input (R175). -/
def clearLatch (n : Nat) (f : FaultSetup) (s : State) : State :=
  let s := setLatch n false s
  if f.cls = .stop then removeHold (HoldCause.fault n) s else s

/-- One latch re-sampled, at an accepted CONFIGURE and at a warm reset (R175). -/
def resampleOne (n : Nat) (s : State) : State :=
  match s.faultSetup n with
  | none => s
  | some f =>
    if f.isActive (s.faultLevel n) then
      if s.faultLatch n then (if f.cls = .stop then addHold (HoldCause.fault n) s else s)
      else activeEdge n f s
    else clearLatch n f s

/-- The four latches re-sampled (R175), inputs 0 to 3 in this order, which is that of their alerts (assumption log 17). -/
def resampleFaults (s : State) : State := resampleOne 3 (resampleOne 2 (resampleOne 1 (resampleOne 0 s)))

/-! ### Flag bytes -/

/-- The shift flags byte: GAP bit 0, MIXED bit 1, WARM_RESET bit 2, NO_DELIVERY bit 3 (12.1). -/
def ShiftFlags.byte (f : ShiftFlags) : Nat :=
  (if f.gap then 1 else 0) + (if f.mixed then 2 else 0) + (if f.warmReset then 4 else 0) +
    (if f.noDelivery then 8 else 0)

/-- The status byte at the start of a transaction (R180, R189). -/
def statusByte (s : State) : Byte :=
  BitVec.ofNat 8
    ((if s.port.slot.isNone then 1 else 0) +
     (if s.port.slot.isNone && s.port.executing.isNone then 2 else 0) +
     (if s.port.unread then 4 else 0) +
     (if s.port.latch.isSome then 8 else 0) +
     (if s.frame.lineOf .note then 16 else 0) +
     (if s.frame.lineOf .action then 32 else 0) +
     (if s.frame.lineOf .stop then 64 else 0))

/-- A flag byte of a command record: 0 clear, 1 set; any other byte is a free value (assumption log 2). -/
def flagOfByte (b : Nat) : Bool :=
  if b = 0 then false else if b = 1 then true else Config.oddFlagByte b

end Sys2Proof.Machine
end

