-- ==== Sys2Proof/Machine/LineQueue.lean ====
section
/-! DEFINITION. The outgoing queue of the line controller: replacement keys, the order of the queue, the full-queue rule,
and the hand-over of a telegram by a block (R164 to R166). -/

namespace Sys2Proof.Machine

/-- A replacement key: kind, destination, and for four kinds the side named (R166). -/
structure ReplaceKey where
  kind : Kind
  dest : Nat
  side : Option Byte
  deriving DecidableEq, Repr

/-- The replacement key of a telegram; BOOKING_ACK and WORK_CANCEL have none (R166). -/
def Telegram.key (t : Telegram) : Option ReplaceKey :=
  match t.kind with
  | .bookingAck | .workCancel => none
  | .pieceCall | .robotAccept | .robotDecline | .robotRelease =>
    some { kind := t.kind, dest := t.dest, side := t.payload.head? }
  | _ => some { kind := t.kind, dest := t.dest, side := none }

/-- Two telegrams have one replacement key. -/
def Telegram.sameKey (t u : Telegram) : Bool := t.key.isSome && t.key == u.key

/-- Whether `o` stands before `q` in the queue: a lower class, or the same class and an earlier joining (R166). -/
def Outgoing.before (o q : Outgoing) : Bool :=
  o.tel.kind.cls < q.tel.kind.cls || (o.tel.kind.cls == q.tel.kind.cls && o.joined < q.joined)

/-- `o` put at its place in the queue. -/
def insertOutgoing (o : Outgoing) : List Outgoing → List Outgoing
  | [] => [o]
  | q :: rest => if o.before q then o :: q :: rest else q :: insertOutgoing o rest

/-- The queued telegram that joined last among those of a class greater than `c` (R166, case 3). -/
def lastOfGreater (c : Nat) (l : List Outgoing) : Option Outgoing :=
  l.foldl (fun best q =>
    if c < q.tel.kind.cls then
      match best with
      | none => some q
      | some b => if b.joined < q.joined then some q else some b
    else best) none

/-- The outgoing queue and the join stamp after a telegram is handed over, and whether a telegram was dropped: the four
cases of R166. R142 has the DOFF_CLAIM of a back-off queued behind a DOFF_STATE still in the queue; where an older DOFF_CLAIM stands
before that DOFF_STATE, the model follows case 1 of R166, and the new one takes the older one's place (assumption log 37). -/
def joined (t : Telegram) (l : Line) : Line × Bool :=
  let entry : Outgoing := { tel := t, collisions := 0, joined := l.nextJoin }
  if l.out.any (fun q => q.tel.sameKey t) then
    ({ l with out := l.out.map (fun q =>
        if q.tel.sameKey t then { q with tel := t, collisions := 0 } else q) }, false)
  else if l.out.length < Config.outgoingCapacity then
    ({ l with out := insertOutgoing entry l.out, nextJoin := l.nextJoin + 1 }, false)
  else
    match lastOfGreater t.kind.cls l.out with
    | some q => ({ l with out := insertOutgoing entry (l.out.erase q), nextJoin := l.nextJoin + 1 }, true)
    | none => (l, true)

/-- One telegram dropped: the dropped count rises and TELEGRAM_DROPPED is raised (R165, R166). -/
def telegramDropped (s : State) : State :=
  raiseAlert .telegramDropped .note none
    { s with line := { s.line with counters :=
        { s.line.counters with dropped := addCapped Config.max16 s.line.counters.dropped 1 } } }

/-- A telegram joins the queue by R166; a drop is counted and alerted. -/
def joinLine (t : Telegram) (s : State) : State :=
  let r := joined t s.line
  let s := { s with line := r.1 }
  if r.2 then telegramDropped s else s

/-- A block hands a telegram to the line controller. Outside RUNNING it is discarded and not counted (R166). -/
def enqueue (kind : Kind) (dest : Nat) (payload : List Byte) (s : State) : State :=
  if s.running then
    joinLine { kind := kind, source := s.cfg.station, dest := dest, payload := payload } s
  else s

/-- The gap of a telegram (R164). -/
def gapOf (station : Nat) (o : Outgoing) : Nat :=
  12 + 8 * o.tel.kind.cls + station % 8 + o.collisions * (1 + station / 8)

/-- A telegram returns from the transmit register after a collision (R165): discarded where a newer one of its key is
queued, at its old place where there is room, and else the new telegram of the full-queue rule. -/
def returnToQueue (o : Outgoing) (s : State) : State :=
  if s.line.out.any (fun q => q.tel.sameKey o.tel) then s
  else if s.line.out.length < Config.outgoingCapacity then
    { s with line := { s.line with out := insertOutgoing o s.line.out } }
  else joinLine o.tel s

end Sys2Proof.Machine
end

