-- ==== Sys2Proof/Machine/Ops.lean ====
section
/-! DEFINITION. The shared operations over the spindle table: reading and writing a record, booking it (R22), the close step
(R39, R153), the counts of the shift counter (R145), and the one operation that moves a record from state to state
(R21, R46, R55, R57) with the ends-down check (R34). -/

namespace Sys2Proof.Machine

/-! ### Reading the tables -/

/-- The `n`-th of a table numbered from 1; `d` where the table has no such number. -/
def nth {α : Type} (d : α) (l : List α) : Nat → α
  | 0 => d
  | n + 1 => l.getD n d

/-- A table numbered from 1 with its `n`-th set; unchanged where the table has no such number. -/
def setNth {α : Type} (l : List α) : Nat → α → List α
  | 0, _ => l
  | n + 1, a => l.set n a

/-- A record that stands for no spindle. -/
def Spindle.blank : Spindle :=
  { state := .unseen, cause := none, bookedTo := none, downSince := none, attempts := 0, shiftBreaks := 0,
    shiftTag := 0, rogueMark := false, lazy := false, slowRun := 0, downRun := 0, seenUp := false, confirmReads := 0,
    lastClass := .none, piecedAt := none, doffStart := false, lostSinceBase := 0 }

/-- Spindle record `i`, 1..N. -/
def State.sp (s : State) (i : Nat) : Spindle := nth Spindle.blank s.mon.spindles i

/-- Writes spindle record `i`. -/
def setSp (i : Nat) (r : Spindle) (s : State) : State :=
  { s with mon := { s.mon with spindles := setNth s.mon.spindles i r } }

/-- Changes spindle record `i`. -/
def modifySp (i : Nat) (f : Spindle → Spindle) (s : State) : State := setSp i (f (s.sp i)) s

/-- A strip that stands for none. -/
def Strip.blank : Strip :=
  { failed := false, missed := 0, reference := 0, lastAnswered := none, lastExpected := 0, lastCounts := [] }

/-- Strip record `k`, 1..N/24. -/
def State.strip (s : State) (k : Nat) : Strip := nth Strip.blank s.mon.strips k

def setStrip (k : Nat) (r : Strip) (s : State) : State :=
  { s with mon := { s.mon with strips := setNth s.mon.strips k r } }

/-- A section that stands for none. -/
def Section.blank : Section :=
  { state := .unknown, base := none, minutes := none, due := false, booking := none, timer := none, carrier := none }

/-- Section record `k`, 1..N/24. -/
def State.sec (s : State) (k : Nat) : Section := nth Section.blank s.creel.sections k

def setSec (k : Nat) (r : Section) (s : State) : State :=
  { s with creel := { s.creel with sections := setNth s.creel.sections k r } }

def modifySec (k : Nat) (f : Section → Section) (s : State) : State := setSec k (f (s.sec k)) s

/-- The strip, and the section, that covers spindle index `i` (00_scope.md). -/
def stripOf (i : Nat) : Nat := (i - 1) / Config.perStrip + 1

/-- The 24 indices of strip or section `k`, ascending. -/
def indicesOf (k : Nat) : List Nat := List.range' ((k - 1) * Config.perStrip + 1) Config.perStrip

/-- Every spindle index, ascending. -/
def State.indices (s : State) : List Nat := List.range' 1 s.mon.spindles.length

/-- Every strip or section number, ascending. -/
def State.numbers (s : State) : List Nat := List.range' 1 s.creel.sections.length

/-- The side of a spindle index (00_scope.md). -/
def State.sideOf (s : State) (i : Nat) : Side := if i ≤ s.cfg.spindles / 2 then .a else .b

/-- What the piecing engine keeps for a side. -/
def State.side (s : State) : Side → SidePiecing
  | .a => s.pie.a
  | .b => s.pie.b

def setSide (x : Side) (p : SidePiecing) (s : State) : State :=
  match x with
  | .a => { s with pie := { s.pie with a := p } }
  | .b => { s with pie := { s.pie with b := p } }

/-- The engagement of a side. -/
def State.eng (s : State) (x : Side) : Engagement := (s.side x).eng

def setEng (x : Side) (e : Engagement) (s : State) : State := setSide x { s.side x with eng := e } s

/-- A fold over a list of numbers, first to last. -/
def each (l : List Nat) (f : Nat → State → State) (s : State) : State := l.foldl (fun s i => f i s) s

/-! ### States and causes (section 2.1) -/

/-- The cause a state carries (section 2.1's state table). -/
def SpState.cause : SpState → Option Cause
  | .unseen | .up | .unobserved => none
  | .waiting | .queued | .ordered | .confirming => some .brk
  | .empty | .exchange => some .roving
  | .locked => some .lockout
  | .rogue => some .rogue

/-- A down state (section 2.1's state table). -/
def SpState.isDown (st : SpState) : Bool := st.cause.isSome

/-- Counted among the ends down (R34). -/
def SpState.counts : SpState → Bool
  | .waiting | .queued | .ordered | .confirming => true
  | _ => false

/-! ### The shift counter's bookings and counts (R145) -/

/-- A list with its last element changed. -/
def modifyLast {α : Type} (f : α → α) : List α → List α
  | [] => []
  | [x] => [f x]
  | x :: y :: rest => x :: modifyLast f (y :: rest)

/-- Losses of a cause booked into a segment, with its open-run losses (R145). -/
def Segment.book (c : Cause) (n : Nat) (g : Segment) : Segment :=
  match c with
  | .brk => { g with brk := g.brk + n, openLosses := g.openLosses + n }
  | .roving => { g with roving := g.roving + n, openLosses := g.openLosses + n }
  | .lockout => { g with lockout := g.lockout + n, openLosses := g.openLosses + n }
  | .rogue => { g with rogue := g.rogue + n, openLosses := g.openLosses + n }

/-- A booking into a shift: losses into its last segment, unobserved pulses into the shift (R22, R145). -/
def Shift.book (c : Option Cause) (n : Nat) (sh : Shift) : Shift :=
  match c with
  | some c => { sh with segments := modifyLast (Segment.book c n) sh.segments }
  | none => { sh with unobserved := addCapped Config.max64 sh.unobserved n }

/-- The kinds of counted events (R145). -/
inductive Counted where
  | brk | doffStart | byRobot | byHand
  deriving DecidableEq, Repr

/-- A counted event in a segment (R145). -/
def Segment.countOne (k : Counted) (g : Segment) : Segment :=
  match k with
  | .brk => { g with breaks := addCapped Config.max16 g.breaks 1 }
  | .doffStart => { g with doffStarts := addCapped Config.max16 g.doffStarts 1 }
  | .byRobot => { g with byRobot := addCapped Config.max16 g.byRobot 1 }
  | .byHand => { g with byHand := addCapped Config.max16 g.byHand 1 }

/-- The shift counter counts an event in the open segment of the open shift (R145). -/
def countEvent (k : Counted) (s : State) : State :=
  { s with shift := { s.shift with opened :=
      { s.shift.opened with segments := modifyLast (Segment.countOne k) s.shift.opened.segments } } }

/-! ### The close step (R39, R153, R154) -/

/-- Pulses added to a record's lost-since-base: those booked under a down cause (R22). -/
def Spindle.lose (c : Option Cause) (n : Nat) (r : Spindle) : Spindle :=
  if c.isSome then { r with lostSinceBase := addCapped Config.maxCount r.lostSinceBase n } else r

/-- The pulses a close step books, and the record after it (R153). -/
def Spindle.closed (pClose tag : Nat) (r : Spindle) : Nat × Spindle :=
  match r.bookedTo with
  | some b =>
    if b < pClose then
      (pClose - b, { (r.lose r.cause (pClose - b)) with bookedTo := some pClose, shiftBreaks := 0, shiftTag := tag })
    else (0, { r with shiftBreaks := 0, shiftTag := tag })
  | none => (0, { r with shiftBreaks := 0, shiftTag := tag })

/-- The close step applied to record `i`, into the closing shift (R153). -/
def closeStep (i : Nat) (cl : Closing) (s : State) : State :=
  let r := s.sp i
  let pClose := match cl.shift.closedAt with
    | some (_, p) => p
    | none => 0
  let q := r.closed pClose s.shift.opened.number
  let s := setSp i q.2 s
  { s with shift := { s.shift with closing := some { cl with shift := cl.shift.book r.cause q.1 } } }

/-- Before an event changes record `i`, books it or counts a break on it: the close step, while a close is in progress and
the record's tag is not the open shift's number (R39, R154). -/
def touch (i : Nat) (s : State) : State :=
  match s.shift.closing with
  | some cl => if (s.sp i).shiftTag = s.shift.opened.number then s else closeStep i cl s
  | none => s

/-! ### Booking (R22) -/

/-- The booking itself: the pulses since booked-to go to the open shift under the record's cause, or as unobserved, and under
a cause to lost-since-base; booked-to becomes the present count. -/
def bookOpen (i : Nat) (s : State) : State :=
  let r := s.sp i
  match r.bookedTo with
  | none => s
  | some b =>
    let n := s.count - b
    let s := setSp i { (r.lose r.cause n) with bookedTo := some s.count } s
    { s with shift := { s.shift with opened := s.shift.opened.book r.cause n } }

/-- Books record `i` up to the present count, after the close step where one is due (R22, R39). A record without a booked-to,
one in UP, is passed over: it is neither booked nor changed, so no close step is asked for it (R22, R154). -/
def book (i : Nat) (s : State) : State := if (s.sp i).bookedTo.isSome then bookOpen i (touch i s) else s

/-! ### Moving a record (R21, R55, R57) -/

/-- The record after it enters state `st`, at device second `now` and delivery count `p`: what R21 says of its optional
fields, R27 of its slow run, R55 of a record that enters UP, R56 of one that leaves UP for a down state (a placement has read
and cleared its pieced-at by then; by every other route it is cleared here), and R57 of one that enters EMPTY or EXCHANGE. -/
def Spindle.moved (st : SpState) (now p : Nat) (r : Spindle) : Spindle :=
  let wasDown := r.state.isDown
  let r1 : Spindle := { r with
    state := st
    cause := st.cause
    downRun := 0
    seenUp := if r.state = .ordered then false else r.seenUp
    doffStart := if r.cause = some .brk ∧ st.cause ≠ some .brk then false else r.doffStart }
  match st with
  | .up =>
    let robot := r.state = .ordered ∨ r.state = .confirming
    { r1 with
      bookedTo := none, downSince := none, seenUp := false, confirmReads := 0, doffStart := false
      attempts := if robot then r.attempts else 0
      piecedAt := if robot then some (r.piecedAt.getD now) else none }
  | .unseen | .unobserved =>
    { r1 with downSince := none, piecedAt := none, seenUp := false, confirmReads := 0, bookedTo := some p }
  | .waiting | .queued | .ordered | .confirming | .empty | .exchange | .locked | .rogue =>
    let r2 : Spindle :=
      if wasDown then r1
      else { r1 with downSince := some now, bookedTo := some p }
    let r3 : Spindle := { r2 with
      slowRun := 0
      piecedAt := if r.state = .up then none else r2.piecedAt
      confirmReads := if st = .confirming then 0 else r2.confirmReads }
    if st = .empty ∨ st = .exchange then { r3 with attempts := 0, piecedAt := none } else r3

/-- The age of a record in a down state (R52). -/
def Spindle.age (r : Spindle) (now : Nat) : Nat := now - r.downSince.getD now

/-! ### Queues and waiting sets (R46, R50) -/

/-- `e` put at its place in a queue, ascending by index (R46). -/
def insertEntry (e : QueueEntry) : List QueueEntry → List QueueEntry
  | [] => [e]
  | q :: rest => if e.index < q.index then e :: q :: rest else q :: insertEntry e rest

/-- Whether record `i` stands before record `j` in a waiting set: the older down-since, the lower index among equals. -/
def State.waitsBefore (s : State) (i j : Nat) : Bool :=
  let di := (s.sp i).downSince.getD 0
  let dj := (s.sp j).downSince.getD 0
  di < dj || (di == dj && i < j)

/-- `i` put at its place in a waiting set (R46). -/
def insertWaiting (s : State) (i : Nat) : List Nat → List Nat
  | [] => [i]
  | j :: rest => if s.waitsBefore i j then i :: j :: rest else j :: insertWaiting s i rest

/-- The side's queue and waiting set after record `i` went from state `old` to state `new`: a record is in its queue exactly
while QUEUED and in its waiting set exactly while WAITING. An entry that joins is escalated at once where the record is old
enough (R46, R52). -/
def requeue (i : Nat) (old new : SpState) (s : State) : State :=
  let x := s.sideOf i
  let p := s.side x
  let queue := if old = .queued then p.queue.filter (fun e => e.index != i) else p.queue
  let waiting := if old = .waiting then p.waiting.filter (fun j => j != i) else p.waiting
  let entry : QueueEntry :=
    { index := i, escalated := decide (s.cfg.escalationAge ≤ (s.sp i).age s.now) }
  setSide x { p with
    queue := if new = .queued then insertEntry entry queue else queue
    waiting := if new = .waiting then insertWaiting s i waiting else waiting } s

/-- The ends-down count (R34). -/
def State.endsDown (s : State) : Nat := s.mon.spindles.countP (fun r => r.state.counts)

/-- The ends-down comparison after an event that changed the count (R34). -/
def endsDownCheck (s : State) : State :=
  if s.cfg.endsDownLimit < s.endsDown then
    if s.mon.aboveLimit then s
    else raiseAlert .endsDown .action none { s with mon := { s.mon with aboveLimit := true } }
  else { s with mon := { s.mon with aboveLimit := false } }

/-- Moves record `i` to state `st`: the close step where one is due (R39), the record's fields (R21, R55, R57), its place in
queue or waiting set (R46, R50), and the ends-down check (R34). The caller books the record first where R22 says so. No rule orders
ENDS_DOWN against the TELEGRAM_DROPPED of a telegram that the same event hands to a full outgoing queue after the move: the model
raises ENDS_DOWN here, with the move, and so first (assumption log 34). -/
def enter (i : Nat) (st : SpState) (s : State) : State :=
  let s := touch i s
  let r := s.sp i
  let s := setSp i (r.moved st s.now s.count) s
  let s := requeue i r.state st s
  if r.state.counts = st.counts then s else endsDownCheck s

/-- Books record `i` and moves it: what a change of cause, an entry into UP, and leaving UNSEEN or UNOBSERVED are (R22). -/
def bookEnter (i : Nat) (st : SpState) (s : State) : State := enter i st (book i s)

end Sys2Proof.Machine
end

