-- ==== Sys2Proof/Machine/Piecing.lean ====
section
/-! DEFINITION. The piecing engine's shared operations: placement of breaks, failed piecings, refilling the queues, the
engagement's calls, decisions, orders, suspension and resumption (chapters 3 and 4). -/

namespace Sys2Proof.Machine

/-! ### Joining and refilling (R46, R50, R51) -/

/-- Record `i` joins its side's queue, or the waiting set when the queue is full (R46). -/
def joinQueue (i : Nat) (s : State) : State :=
  if (s.side (s.sideOf i)).queue.length < Config.queueCapacity then enter i .queued s else enter i .waiting s

/-- Fills free places of a side's queue from the head of its waiting set, at most `n` of them (R50). -/
def refillSide : Nat → Side → State → State
  | 0, _, s => s
  | n + 1, x, s =>
    if (s.side x).queue.length < Config.queueCapacity then
      match (s.side x).waiting with
      | [] => s
      | i :: _ => refillSide n x (enter i .queued s)
    else s

/-- Both sides' queues filled from their waiting sets (R50). -/
def refill (s : State) : State :=
  refillSide Config.queueCapacity .b (refillSide Config.queueCapacity .a s)

/-! ### Rogue spindles and failed piecings (R45, R49, R54) -/

/-- Makes record `i` rogue: booked, marked, moved to ROGUE, and ROGUE_SPINDLE raised (R49). -/
def makeRogue (i : Nat) (s : State) : State :=
  let s := book i s
  let s := modifySp i (fun r => { r with rogueMark := true }) s
  raiseAlert .rogueSpindle .action (some i) (enter i .rogue s)

/-- The four placement kinds (R45). -/
inductive Placement where
  | sensed | found | reload | settle
  deriving DecidableEq, Repr

/-- Attempts before placing (R45's table, R47). -/
def Spindle.placedAttempts (k : Placement) (r : Spindle) : Nat :=
  match k with
  | .sensed => if r.piecedAt.isSome then addCapped Config.maxAttempts r.attempts 1 else r.attempts
  | .reload => 0
  | .found | .settle => r.attempts

/-- The piecing engine places record `i`, which has gone down with cause BREAK (R45 to R48). -/
def place (k : Placement) (i : Nat) (s : State) : State :=
  let s := touch i s
  let r := s.sp i
  let attempts := r.placedAttempts k
  let s := setSp i { r with attempts := attempts, piecedAt := none } s
  if k = .sensed ∧ (s.cfg.attemptLimit ≤ attempts ∨ s.cfg.rogueLimit ≤ r.shiftBreaks) then makeRogue i s
  else joinQueue i s

/-- The section of record `i` is under exchange. -/
def State.underExchange (s : State) (i : Nat) : Bool := (s.sec (stripOf i)).state == .exchanging

/-- A failed piecing of record `i`, ORDERED or CONFIRMING (R54); refused for a record in another state (R59). -/
def failedPiecing (i : Nat) (s : State) : State :=
  if (s.sp i).state = .ordered ∨ (s.sp i).state = .confirming then
    let s := modifySp i (fun r => { r with piecedAt := none }) (touch i s)
    if s.underExchange i then bookEnter i .exchange s
    else
      let s := modifySp i (fun r => { r with attempts := addCapped Config.maxAttempts r.attempts 1 }) s
      if s.cfg.attemptLimit ≤ (s.sp i).attempts then makeRogue i s else joinQueue i s
  else s

/-- An ORDERED record returns to piecing with its attempts unchanged, or enters EXCHANGE where its section is under exchange
(R51, R77, R81 to R83); refused for a record in another state (R59). -/
def returnToPiecing (i : Nat) (s : State) : State :=
  if (s.sp i).state = .ordered then
    if s.underExchange i then bookEnter i .exchange s else joinQueue i s
  else s

/-! ### Which queues an engagement serves (R64) -/

/-- The sides whose queues the engagement of side `x` serves (R64). -/
def State.served (s : State) (x : Side) : List Side :=
  if s.joined then
    match x with
    | .a => [.a, .b]
    | .b => []
  else [x]

/-- The engagements that act: both in split mode, side A's in joined mode (R64). Where one event reaches both, R71, R82, R83 and
R174 give no order: the model takes side A's before side B's, here and in every fold over this list (assumption log 27). -/
def State.engagements (s : State) : List Side := if s.joined then [.a] else [.a, .b]

/-- The entries of the queues an engagement serves, ascending by index. -/
def State.servedEntries (s : State) (x : Side) : List QueueEntry := (s.served x).flatMap (fun y => (s.side y).queue)

/-- The records in the waiting sets of the sides an engagement serves. -/
def State.servedWaiting (s : State) (x : Side) : List Nat := (s.served x).flatMap (fun y => (s.side y).waiting)

/-- The queues an engagement serves hold no entry. -/
def State.queuesEmpty (s : State) (x : Side) : Bool := (s.servedEntries x).isEmpty

/-- The side code the engine's telegrams carry: BOTH in joined mode (R64). -/
def State.sideName (s : State) (x : Side) : Nat := if s.joined then bothCode else sideCode x

/-! ### Calls, releases and cancels (R65, R70, R79) -/

/-- The largest age of the records of a list (R60). R60 gives no largest age over no record, which a PIECE_CALL can carry after R79:
the model sends 0 (assumption log 31). -/
def State.oldestAge (s : State) (l : List Nat) : Nat := l.foldl (fun a i => max a ((s.sp i).age s.now)) 0

/-- The payload of a PIECE_CALL: side, number waiting, oldest age, lowest and highest queued index (12.1). -/
def callPayload (side waiting oldest lowest highest : Nat) : List Byte :=
  field 1 side ++ field 2 waiting ++ field 2 oldest ++ field 2 lowest ++ field 2 highest

/-- Queues a PIECE_CALL with the queue summary as it stands (R60, R65). Where no queue served holds an entry the two indices
are free values (assumption log 2). -/
def pieceCall (x : Side) (s : State) : State :=
  let entries := s.servedEntries x
  let down := entries.map QueueEntry.index ++ s.servedWaiting x
  let payload := callPayload (s.sideName x) down.length (s.oldestAge down)
  match entries.head?, entries.getLast? with
  | some lo, some hi => enqueue .pieceCall 0 (payload lo.index hi.index) s
  | _, _ =>
    enqueue .pieceCall 0
      (payload (Config.emptyCallIndex s.draws).toNat (Config.emptyCallIndex (s.draws + 1)).toNat)
      { s with draws := s.draws + 2 }

/-- The engagement enters CALLING with a new spell: since-call 0, a PIECE_CALL queued at once, next call in 10 s (R65, R66).
The consecutive timeouts stay as the rule that leads here leaves them. -/
def enterCalling (x : Side) (s : State) : State :=
  let e := s.eng x
  pieceCall x (setEng x { e with
    state := .calling, robot := none, order := none, position := none, timer := none, sinceCall := 0,
    nextCall := some (s.now + Config.callSeconds), called := false } s)

/-- The engagement enters IDLE. -/
def enterIdle (x : Side) (s : State) : State :=
  setEng x { s.eng x with
    state := .idle, robot := none, order := none, position := none, timer := none, nextCall := none } s

/-- CALLING with a new spell if its queues hold any entry, IDLE otherwise. -/
def callOrIdle (x : Side) (s : State) : State := if s.queuesEmpty x then enterIdle x s else enterCalling x s

/-- Queues a ROBOT_RELEASE to the engaged robot, naming the side. -/
def sendRelease (x : Side) (s : State) : State :=
  match (s.eng x).robot with
  | some robot => enqueue .robotRelease robot (field 1 (s.sideName x)) s
  | none => s

/-- Queues a WORK_CANCEL for the outstanding order. -/
def sendCancel (x : Side) (s : State) : State :=
  match (s.eng x).robot, (s.eng x).order with
  | some robot, some o => enqueue .workCancel robot (field 2 o.index ++ field 1 o.tag) s
  | _, _ => s

/-! ### Selection (R72) -/

/-- The distance of index `i` ahead of position `p` in a direction; `none` where it does not lie ahead (R72). -/
def distanceAhead (joined : Bool) (n p : Nat) (ascending : Bool) (i : Nat) : Option Nat :=
  if joined then some ((if ascending then i + n - p else p + n - i) % n)
  else if ascending then (if p ≤ i then some (i - p) else none)
  else (if i ≤ p then some (p - i) else none)

/-- The index of least distance among those that have one; the earlier in the list where two agree. -/
def nearest (dist : Nat → Option Nat) (l : List Nat) : Option Nat :=
  (l.foldl (fun (best : Option (Nat × Nat)) i =>
    match dist i, best with
    | none, b => b
    | some d, none => some (d, i)
    | some d, some (d0, i0) => if d < d0 then some (d, i) else some (d0, i0)) none).map Prod.snd

/-- The record that waits first among a list: the oldest down-since, the lower index among equals (R52, R72). -/
def State.firstOf (s : State) (l : List Nat) : Option Nat :=
  l.foldl (fun best i =>
    match best with
    | none => some i
    | some j => if s.waitsBefore i j then some i else some j) none

/-- The index the engagement orders next, and the direction after the selection (R72). -/
def State.selection (s : State) (x : Side) : Option (Nat × Bool) :=
  let e := s.eng x
  let entries := s.servedEntries x
  let all := entries.map QueueEntry.index
  let p := e.position.getD 1
  let ahead := fun (asc : Bool) => nearest (distanceAhead s.joined s.cfg.spindles p asc) all
  match s.firstOf ((entries.filter (·.escalated)).map QueueEntry.index) with
  | some i => some (i, e.ascending)
  | none =>
    match ahead e.ascending with
    | some i => some (i, e.ascending)
    | none => (ahead (!e.ascending)).map (fun i => (i, !e.ascending))

/-- Issues a work order for index `i` (R73). -/
def issueOrder (x : Side) (i : Nat) (ascending : Bool) (s : State) : State :=
  let s := refill (enter i .ordered s)
  let e := s.eng x
  let o : Order := { index := i, attempt := (s.sp i).attempts + 1, tag := s.pie.nextTag }
  let s := { s with pie := { s.pie with nextTag := (s.pie.nextTag + 1) % 256 } }
  let s := match e.robot with
    | some robot => enqueue .workOrder robot (field 2 o.index ++ field 1 o.attempt ++ field 1 o.tag) s
    | none => s
  setEng x { e with
    state := .orderOut, order := some o, ascending := ascending, timer := some (s.now + s.cfg.orderTime) } s

/-- The decision of an engagement in WORKING (R71): release into IDLE, an order, or nothing while RUN is inactive. -/
def decideNext (x : Side) (s : State) : State :=
  if s.queuesEmpty x then enterIdle x (sendRelease x s)
  else if s.frame.run then
    match s.selection x with
    | some (i, asc) => issueOrder x i asc s
    | none => s
  else s

/-! ### News of the queues (R46, R64, R65, R71) -/

/-- What the engagement of side `x` does with what an event did, `s0` before it and `s` after it: an IDLE one whose queues
ceased to be empty calls, a CALLING one whose queues became empty goes IDLE, a WORKING one decides where it has just entered
WORKING or its queues became or ceased to be empty. -/
def notifyOne (s0 : State) (x : Side) (s : State) : State :=
  let was := s0.queuesEmpty x
  let is := s.queuesEmpty x
  match (s.eng x).state with
  | .idle => if was && !is then enterCalling x s else s
  | .calling => if !was && is then enterIdle x s else s
  | .working => if (s0.eng x).state ≠ .working ∨ was ≠ is then decideNext x s else s
  | .awaiting | .orderOut | .suspended => s

/-- Tells the engagements, A before B (R64; assumption log 27). -/
def notify (s0 s : State) : State := s.engagements.foldl (fun s x => notifyOne s0 x s) s

/-- An event over the spindle table with what follows it in the piecing engine: the freed places are refilled (R50), and then
the engagements learn of their queues (R46, R64, R71). -/
def piecingEvent (f : State → State) (s : State) : State := notify s (refill (f s))

/-! ### Orders that end otherwise (R80, R82, R83) -/

/-- The order of one engagement withdrawn where it names record `i` (R80): WORK_CANCEL, order and timer absent, WORKING. The
decision follows with the event's `notify`. -/
def withdrawOf (x : Side) (i : Nat) (s : State) : State :=
  let e := s.eng x
  if e.state = .orderOut ∧ e.order.map Order.index = some i then
    let s := sendCancel x s
    setEng x { e with state := .working, order := none, timer := none } s
  else s

/-- The spindle monitor withdraws the outstanding order that names record `i` (R80). -/
def withdrawOrder (i : Nat) (s : State) : State := withdrawOf .b i (withdrawOf .a i s)

/-- The ordered record of an engagement, if an order is out, returns to piecing (R81 to R83). -/
def returnOrdered (x : Side) (s : State) : State :=
  match (s.eng x).order with
  | some o => returnToPiecing o.index s
  | none => s

/-- Clears robot, position, order, timer and consecutive timeouts of an engagement. -/
def Engagement.cleared (e : Engagement) : Engagement :=
  { e with robot := none, order := none, position := none, timer := none, timeouts := 0 }

/-- One engagement suspended as the doff state enters the group RUNDOWN to SETTLING (R82). -/
def suspendOne (x : Side) (s : State) : State :=
  let s := match (s.eng x).state with
    | .awaiting | .working => sendRelease x s
    | .orderOut => returnOrdered x (sendRelease x (sendCancel x s))
    | .idle | .calling | .suspended => s
  setEng x { (s.eng x).cleared with state := .suspended, nextCall := none } s

/-- The engagements suspended, A before B (R82; assumption log 27); side B's stays IDLE in joined mode. -/
def suspendEngagements (s : State) : State := s.engagements.foldl (fun s x => suspendOne x s) s

/-- The SUSPENDED engagements resumed, A before B, as the doff state enters SPINNING (R82; assumption log 27). -/
def resumeEngagements (s : State) : State :=
  s.engagements.foldl (fun s x => if (s.eng x).state = .suspended then callOrIdle x s else s) s

/-- An engagement that a robot's withdrawal or restart, or a line restart, ends (R81, R83). -/
def endEngagement (x : Side) (s : State) : State :=
  let s := returnOrdered x s
  callOrIdle x (setEng x (s.eng x).cleared s)

/-- One engagement at a line restart in RUNNING (R83). R63 says that a line restart leaves queues, waiting sets and attempts
unchanged, and R44 and R160 say the same of the monitor and the shift counter; R83 returns an ordered record to piecing or to
EXCHANGE. The model follows R83, with the close step that R39 and R154 ask before the record's move while a close is in progress
(assumption log 35). -/
def restartEngagement (x : Side) (s : State) : State :=
  match (s.eng x).state with
  | .awaiting | .working | .orderOut => endEngagement x s
  | .calling => enterCalling x s
  | .idle | .suspended => s

/-- The piecing engine at a line restart, side A before side B (R83; assumption log 27). -/
def restartPiecing (s : State) : State := s.engagements.foldl (fun s x => restartEngagement x s) s

end Sys2Proof.Machine
end

