-- ==== Sys2Proof/Machine/Creel.lean ====
section
/-! DEFINITION. The creel unit's shared operations (chapters 5 and 6): the condition of a position, minutes-to-empty, the
recompute, the due list and its announcement, rebases, fresh breaks, the end of an exchange; and the rule by which an end
goes down (R26, R28, R126). -/

namespace Sys2Proof.Machine

/-! ### Remaining roving (R7, R8, R89) -/

/-- The active article's draft; 0 where no article is active (no conversion is made then). -/
def State.draft (s : State) : Nat := (s.del.active.map Article.draft).getD 0

/-- The remaining roving at position `i` from a base, at the present count (R7, R8). -/
def State.remainingFrom (s : State) (b : Base) (i : Nat) : Nat :=
  let r := s.sp i
  let openFrom := if r.state.isDown then r.bookedTo else none
  remainingMm (b.rem.getD ((i - 1) % Config.perStrip) 0)
    (usedMm s.cfg s.draft (upPulses s.count b.mark r.lostSinceBase openFrom))

/-- The remaining roving at position `i`; `none` where its section has no base. -/
def State.remaining (s : State) (i : Nat) : Option Nat :=
  (s.sec (stripOf i)).base.map (fun b => s.remainingFrom b i)

/-- The creel unit's answer on a position (R89). -/
inductive Condition where
  | exchanging
  | normal (remaining : Nat)
  | unknown
  deriving DecidableEq, Repr

/-- The condition of position `i` (R89). -/
def State.condition (s : State) (i : Nat) : Condition :=
  match (s.sec (stripOf i)).state with
  | .exchanging => .exchanging
  | .normal => .normal ((s.remaining i).getD 0)
  | .unknown => .unknown

/-- A remaining roving at or below the empty margin (R26, R92). -/
def State.atMargin (s : State) (remaining : Nat) : Bool := remaining ≤ s.cfg.emptyMargin * 1000

/-! ### Minutes-to-empty (R9, R90) -/

/-- The rate of time predictions; `none` is HELD (R4). -/
def State.rate (s : State) : Option Nat := predictionRate s.cfg s.del.buckets

/-- The minutes-to-empty of position `i` of a section with base `b` (R9). -/
def State.minutesAt (s : State) (b : Base) (i : Nat) : Minutes :=
  positionMinutes s.draft s.rate (s.remainingFrom b i)

/-- The lesser of two minutes; HELD if either is. -/
def Minutes.least : Minutes → Minutes → Minutes
  | .value m, .value n => .value (min m n)
  | _, _ => .held

/-- Positions of section `k` in EMPTY. -/
def State.emptyCount (s : State) (k : Nat) : Nat := (indicesOf k).countP (fun i => (s.sp i).state == .empty)

/-- The live minutes of a NORMAL section: 0 with an EMPTY position, else HELD or the least of its positions' (R90); absent
for a section in another state. -/
def State.sectionMinutes (s : State) (k : Nat) : Option Minutes :=
  match (s.sec k).state, (s.sec k).base with
  | .normal, some b =>
    if 0 < s.emptyCount k then some (.value 0)
    else some ((indicesOf k).foldl (fun m i => m.least (s.minutesAt b i)) (.value Config.max16))
  | _, _ => none

/-! ### The due list and its announcement (R94 to R97) -/

/-- An entry put at its place in the due list: minutes ascending, the lower section among equals (R94). -/
def insertDue (e : DueEntry) : List DueEntry → List DueEntry
  | [] => [e]
  | d :: rest =>
    if e.minutes < d.minutes ∨ (e.minutes = d.minutes ∧ e.number < d.number) then e :: d :: rest
    else d :: insertDue e rest

/-- The due sections with their recorded minutes, in the order of the due list (R94). -/
def State.dueSections (s : State) : List DueEntry :=
  s.numbers.foldl (fun l k =>
    if (s.sec k).due then insertDue { number := k, minutes := (s.sec k).minutes.getD 0 } l else l) []

/-- The payload of a ROVING_DUE: section and minutes pairs (12.1). -/
def duePayload (l : List DueEntry) : List Byte :=
  (l.map (fun e => field 1 e.number ++ field 2 e.minutes)).flatten

/-- Queues a ROVING_DUE with the first six entries and restarts the announcement count (R96, R97). R99 does not say whether one that a
full outgoing queue drops at once (R166, case 4) was queued: the model counts it (assumption log 36). -/
def announceDue (s : State) : State :=
  let s := enqueue .rovingDue 0 (duePayload (s.creel.dueList.take Config.announcedDue)) s
  { s with creel := { s.creel with announceFrom := some s.now, dueSentAt := some s.now } }

/-- Rebuilds the due list (R94) and announces a change of the first six (R96). -/
def rebuildDue (s : State) : State :=
  let l := s.dueSections.take Config.dueCapacity
  let six := (l.take Config.announcedDue).map DueEntry.number
  let before := s.creel.firstSix
  let s := { s with creel := { s.creel with dueList := l, firstSix := six } }
  if six = before then s else announceDue s

/-! ### Positions gone empty, and the recompute (R91 to R93) -/

/-- ROVING_EMPTY for a record that has just entered EMPTY, unless its section holds another EMPTY record (R93). R93 puts it before the
recompute; that it also precedes what the engagements send in the event is the model's choice (assumption log 34). -/
def emptyAlert (i : Nat) (s : State) : State :=
  if s.emptyCount (stripOf i) ≤ 1 then raiseAlert .rovingEmpty .note (some (stripOf i)) s else s

/-- The empty-margin check of one record, WAITING or QUEUED (R92). -/
def marginOne (i : Nat) (s : State) : State :=
  if (s.sp i).state = .waiting ∨ (s.sp i).state = .queued then
    match s.remaining i with
    | some left => if s.atMargin left then emptyAlert i (bookEnter i .empty s) else s
    | none => s
  else s

/-- Steps 1 to 4 of the recompute for section `k` (R91, R92). -/
def recomputeSection (k : Nat) (s : State) : State :=
  if (s.sec k).state = .normal then
    let s := piecingEvent (each (indicesOf k) marginOne) s
    let minutes := match s.sectionMinutes k with
      | some (.value n) => some n
      | _ => (s.sec k).minutes
    let due := match minutes with
      | some n => decide (n ≤ s.cfg.horizon)
      | none => false
    modifySec k (fun x => { x with minutes := minutes, due := due }) s
  else s

/-- The whole-table recompute (R91). -/
def recomputeAll (s : State) : State := rebuildDue (each s.numbers recomputeSection s)

/-- A single-section recompute (R93). -/
def recomputeOne (k : Nat) (s : State) : State := rebuildDue (recomputeSection k s)

/-- A position has gone empty: the alert, and for a NORMAL section a single-section recompute (R93). -/
def goneEmpty (i : Nat) (s : State) : State :=
  let s := emptyAlert i s
  if (s.sec (stripOf i)).state = .normal then recomputeOne (stripOf i) s else s

/-! ### An end goes down (R26, R28, R126) -/

/-- What a record that goes down with cause BREAK has counted (R45's table): a sensed break raises shift breaks and counts a
break; a failed start sets the doff-start flag and counts a doff-start break; a found one counts nothing. -/
def countDown (k : Placement) (i : Nat) (s : State) : State :=
  match k with
  | .sensed =>
    countEvent .brk (modifySp i (fun r => { r with shiftBreaks := addCapped Config.max8 r.shiftBreaks 1 }) s)
  | .settle => countEvent .doffStart (modifySp i (fun r => { r with doffStart := true }) s)
  | .found | .reload => s

/-- Record `i`, UP or UNSEEN, goes down: the close step comes first where one is due, so that the first break of a shift is
counted from 0 (R39); an UNSEEN one is booked as unobserved; then by the condition of its section it enters EXCHANGE, EMPTY, or
is a break placed by the piecing engine (R26, R28, R126). -/
def goDown (k : Placement) (i : Nat) (s : State) : State :=
  let s := book i (touch i s)
  match s.condition i with
  | .exchanging => enter i .exchange s
  | .normal left =>
    if s.atMargin left then goneEmpty i (enter i .empty s) else place k i (countDown k i s)
  | .unknown => place k i (countDown k i s)

/-! ### Rebases (R87, R88) -/

/-- The section's base set at the present count, and every record's lost-since-base to 0. -/
def rebase (k loaded : Nat) (rem : List Nat) (s : State) : State :=
  let s := modifySec k (fun x => { x with base := some { mark := s.count, loaded := loaded, rem := rem } }) s
  each (indicesOf k) (fun i => modifySp i (fun r => { r with lostSinceBase := 0 })) s

/-- A load rebase: every record booked, the base set for full bobbins (R87). -/
def loadRebase (k : Nat) (s : State) : State :=
  let s := each (indicesOf k) book s
  let roving := (s.del.active.map Article.roving).getD 0
  rebase k roving (List.replicate Config.perStrip (roving * 1000)) s

/-- The carry rebase of section `k`, if NORMAL, under the article still active (R88). -/
def carryRebase (k : Nat) (s : State) : State :=
  match (s.sec k).state, (s.sec k).base with
  | .normal, some b =>
    let s := each (indicesOf k) book s
    rebase k b.loaded ((indicesOf k).map (fun i => s.remainingFrom b i)) s
  | _, _ => s

/-! ### Changes of section state (R95) -/

/-- The prediction of a section leaving NORMAL (R95). -/
def leaveNormal (k : Nat) (s : State) : State :=
  rebuildDue (modifySec k (fun x => { x with minutes := none, due := false }) s)

/-- The prediction of a section entering NORMAL (R95). -/
def enterNormal (k : Nat) (s : State) : State :=
  recomputeOne k (modifySec k (fun x => { x with minutes := none, due := false }) s)

/-! ### Bookings (chapter 6) -/

/-- Booking slot 1 or 2. -/
def State.slot (s : State) (n : Nat) : Option Booking := if n = 1 then s.creel.slot1 else s.creel.slot2

def setSlot (n : Nat) (b : Option Booking) (s : State) : State :=
  if n = 1 then { s with creel := { s.creel with slot1 := b } }
  else { s with creel := { s.creel with slot2 := b } }

/-- The slot a carrier holds (section 6.1: at most one). -/
def State.slotOf (s : State) (carrier : Nat) : Option Nat :=
  if s.creel.slot1.map Booking.carrier = some carrier then some 1
  else if s.creel.slot2.map Booking.carrier = some carrier then some 2
  else none

/-- Frees slot `n`; the sections of its list lose their booking reference (R105, R106, R111). -/
def freeSlot (n : Nat) (s : State) : State :=
  match s.slot n with
  | some b =>
    setSlot n none (each b.sections (fun k => modifySec k (fun x => { x with booking := none })) s)
  | none => s

/-- A section leaves the list of its booking; a slot whose list becomes empty is freed (R108, R110, R113). -/
def unbook (k : Nat) (s : State) : State :=
  match (s.sec k).booking with
  | some n =>
    let s := modifySec k (fun x => { x with booking := none }) s
    match s.slot n with
    | some b =>
      let rest := b.sections.filter (· != k)
      setSlot n (if rest.isEmpty then none else some { b with sections := rest }) s
    | none => s
  | none => s

/-- One stray carrier telegram (R107). -/
def strayCarrier (s : State) : State :=
  { s with creel := { s.creel with stray := addCapped Config.max16 s.creel.stray 1 } }

/-! ### The end of an exchange (R108 to R110, R113) -/

/-- Record `i` made a fresh break: booked under ROVING, down-since now, counted as a break, placed RELOAD (R109). -/
def freshBreak (i : Nat) (s : State) : State :=
  let s := book i s
  let s := modifySp i (fun r => { r with downSince := some s.now, doffStart := false }) s
  place .reload i (countEvent .brk s)

/-- A record of the section made a fresh break where its state is one of those given (R109, R113). -/
def freshIf (which : SpState → Bool) (i : Nat) (s : State) : State :=
  if which (s.sp i).state then piecingEvent (freshBreak i) s else s

/-- The section takes a new state; its exchange timer and register entry become absent. -/
def settleSection (k : Nat) (st : SectionState) (s : State) : State :=
  modifySec k (fun x => { x with state := st, timer := none, carrier := none }) s

/-- A load of section `k`: steps 1 to 5 of R108. -/
def endLoaded (k : Nat) (s : State) : State :=
  let s := unbook k (settleSection k .normal (loadRebase k s))
  enterNormal k (each (indicesOf k) (freshIf (fun st => st == .exchange || st == .empty)) s)

/-- A return to NORMAL without a load (R113). -/
def endNotLoaded (k : Nat) (s : State) : State :=
  let s := unbook k (settleSection k .normal s)
  enterNormal k (each (indicesOf k) (freshIf (fun st => st == .exchange)) s)

/-- An exchange that ends without a load: UNKNOWN, EXCHANGE_UNKNOWN (R110). -/
def endUnknown (k : Nat) (s : State) : State :=
  let s := unbook k (settleSection k .unknown s)
  leaveNormal k (raiseAlert .exchangeUnknown .action (some k) s)

end Sys2Proof.Machine
end

