-- ==== Sys2Proof/Machine/Outcome.lean ====
section
/-! DEFINITION. The shape every meaning shares: an event of a powered part is a next state; while RESET_N is low the part is
held at power-on and takes no event (R174). -/

namespace Sys2Proof.Machine

/-- A step's answer on this part. -/
abbrev Answer := Host.Outcome State Fault Refusal

/-- The event of a powered part; while RESET_N is low nothing happens (R174). -/
def powered (s s' : State) : Answer := .next (if s.frame.resetLow then s else s')

/-- An event of a part in RUNNING: in INIT and READY, and while RESET_N is low, it does not occur. -/
def inRunning (s s' : State) : Answer := powered s (if s.running then s' else s)

end Sys2Proof.Machine
end

