-- ==== Sys2Proof/Machine/Response.lean ====
section
/-! DEFINITION. Responses: forming one, what a host command's effect is, and the bytes of a response record (R182, R183, R189,
R190). -/

namespace Sys2Proof.Machine

/-- A command completes: its response is placed in the buffer, with OVERWRITTEN where the buffer held one not yet read
(R182). -/
def respond (kind tag : Nat) (result : Result) (alreadyOpen : Bool) (body : List Byte) (s : State) : State :=
  { s with port := { s.port with
    response := some
      { kind := kind, tag := tag, result := result, overwritten := s.port.unread, alreadyOpen := alreadyOpen, body := body }
    unread := true } }

/-- The bytes of a response record; of kind NONE where no response has been formed (R189). -/
def responseBytes : Option Response → List Byte
  | none => field 1 0 ++ field 1 0 ++ field 1 0 ++ field 1 0 ++ field 2 0
  | some r =>
    field 1 r.kind ++ field 1 r.tag ++ field 1 r.result.code ++
      field 1 ((if r.overwritten then 1 else 0) + (if r.alreadyOpen then 2 else 0)) ++
      field 2 r.body.length ++ r.body

/-- What executing a host command does: the state after it, its result (`none` while it stays executing), whether a
CLOSE_SHIFT found its shift open, and the body of its response. -/
structure Effect where
  state       : State
  result      : Option Result
  alreadyOpen : Bool
  body        : List Byte
  deriving DecidableEq, Repr

/-- Completes with DONE and no body. -/
def Effect.done (s : State) : Effect := { state := s, result := some .done, alreadyOpen := false, body := [] }

/-- Refused: nothing changes. -/
def Effect.refuse (r : Result) (s : State) : Effect := { state := s, result := some r, alreadyOpen := false, body := [] }

/-- Completes with DONE and a body; the state does not change. -/
def Effect.report (body : List Byte) (s : State) : Effect :=
  { state := s, result := some .done, alreadyOpen := false, body := body }

/-- Refused with NOT_RUNNING in INIT and READY (R183). -/
def whileRunning (s : State) (e : Effect) : Effect := if s.running then e else Effect.refuse .notRunning s

/-- The body of a completed CLOSE_SHIFT: the shift closed, the shift opened, GAP of the shift opened (R155). -/
def closedBody (closed : Nat) (opened : Shift) : List Byte :=
  field 2 closed ++ field 2 opened.number ++ flag opened.flags.gap

/-- A CLOSE_SHIFT that stays executing completes with DONE (R155, R160). -/
def completeClose (closed : Nat) (s : State) : State :=
  match s.port.executing with
  | some (.closeShift tag) =>
    respond 31 tag .done false (closedBody closed s.shift.opened) { s with port := { s.port with executing := none } }
  | _ => s

/-- A LINE_RESTART that stays executing completes with DONE; its body says what became of its STATION_RESTART: 0 sent, 1
dropped, 2 not sent (R171, R186; assumption log 5). -/
def completeRestart (said : Nat) (s : State) : State :=
  match s.port.executing with
  | some (.lineRestart tag) =>
    respond 7 tag .done false (field 1 said) { s with port := { s.port with executing := none } }
  | _ => s

end Sys2Proof.Machine
end

