-- ==== Sys2Proof/Machine/Shifts.lean ====
section
/-! DEFINITION. The shift counter: article runs and segments, the article switches, shift marks, the close and its sweep
(R11 to R17, R146 to R158). -/

namespace Sys2Proof.Machine

/-! ### Article runs (R11, R149) -/

/-- The open run of a segment closed at count `e` (R149). A segment without an open run is left as it is. -/
def Segment.closeRun (c : Configuration) (e : Nat) (g : Segment) : Segment :=
  match g.runStart with
  | none => g
  | some start =>
    let pulses := e - start
    let up := c.spindles * pulses - g.openLosses
    let tex := (g.article.map Prod.snd).getD 0
    { g with
      mass := addCapped Config.max32 g.mass (runMass c tex up)
      runPulses := g.runPulses + pulses
      up := g.up + up
      length := min Config.max64 (lengthMm c (g.up + up))
      openLosses := 0
      runStart := none }

/-- The shift's single segment takes the first article (R16, R147). -/
def Segment.firstArticle (a : Article) (p : Nat) (g : Segment) : Segment :=
  { g with article := some (a.id, a.tex), startCount := p, runStart := some p }

/-- Segment 4 takes a further article (R148). -/
def Segment.merge (a : Article) (p : Nat) (g : Segment) : Segment :=
  { g with article := some (a.id, a.tex), runStart := some p, openLosses := 0, mixed := true }

/-- Step 2 of the article switch: the run closed under the old article, and a new segment or a merge (R147, R148). -/
def switchSegment (a : Article) (s : State) : State :=
  let sh := s.shift.opened
  let closed := modifyLast (Segment.closeRun s.cfg s.count) sh.segments
  if sh.segments.length < Config.maxSegments then
    { s with shift := { s.shift with opened :=
        { sh with segments := closed ++ [Segment.opened (some (a.id, a.tex)) s.count] } } }
  else
    raiseAlert .segmentMerge .note none
      { s with shift := { s.shift with opened :=
        { sh with segments := modifyLast (Segment.merge a s.count) closed, flags := { sh.flags with mixed := true } } } }

/-- The article switch at DOFF_COMPLETE: steps 1 to 4 of R17. -/
def articleSwitch (s : State) : State :=
  match s.del.staged with
  | none => s
  | some a =>
    let s := each s.indices book s
    let s := switchSegment a s
    let s := each s.numbers carryRebase s
    { s with del := { s.del with active := some a, staged := none, armed := false } }

/-- The immediate switch of ARM_ARTICLE (R16). -/
def immediateSwitch (a : Article) (s : State) : State :=
  let s := { s with shift := { s.shift with opened :=
    { s.shift.opened with segments := modifyLast (Segment.firstArticle a s.count) s.shift.opened.segments } } }
  { s with del := { s.del with active := some a, staged := none } }

/-! ### The article commands (R14, R15) -/

/-- Every field in the range of section 1.6's table (R14). -/
def articleInRange (a : Article) : Bool :=
  1 ≤ a.id && a.id ≤ 65535 && 100 ≤ a.tex && a.tex ≤ 20000 && 200 ≤ a.twist && a.twist ≤ 2500 && 1000 ≤ a.draft &&
  a.draft ≤ 8000 && 300 ≤ a.roving && a.roving ≤ 6000 && 20 ≤ a.copMass && a.copMass ≤ 150

/-- STAGE_ARTICLE (R14). -/
def doStageArticle (a : Article) (s : State) : Effect :=
  if articleInRange a then Effect.done { s with del := { s.del with staged := some a, armed := false } }
  else Effect.refuse .outOfRange s

/-- ARM_ARTICLE (R15). -/
def doArmArticle (s : State) : Effect :=
  match s.del.staged with
  | none => Effect.refuse .noStaged s
  | some a =>
    match s.del.active with
    | some _ => Effect.done { s with del := { s.del with armed := true } }
    | none => Effect.done (immediateSwitch a s)

/-! ### Shift marks (R150 to R152) -/

/-- The shift number after `n` (R150). -/
def nextShift (n : Nat) : Nat := (n + 1) % 65536

/-- A close begins: steps 1 to 4 of R152, with R150's GAP. -/
def beginClose (number : Nat) (waiting : Bool) (s : State) : State :=
  let old := s.shift.opened
  let gap := number != nextShift old.number
  let rogues := s.mon.spindles.countP (·.rogueMark)
  let lazies := s.mon.spindles.countP (·.lazy)
  let closed : Shift := { old with counts := some (rogues, lazies), closedAt := some (s.now, s.count) }
  let article := s.del.active.map (fun a => (a.id, a.tex))
  let s := { s with shift := { s.shift with
    opened := Shift.opened number s.now s.count article gap
    closing := some { shift := closed, sweep := 1, waiting := waiting } } }
  if gap then raiseAlert .shiftGap .note none s else s

/-- CLOSE_SHIFT (R150, R151). An accepted one stays executing until the sweep ends. R150 and R152 do not order SHIFT_GAP and the
queueing of SHIFT_MARK, which can raise TELEGRAM_DROPPED: the model raises SHIFT_GAP first (assumption log 33). -/
def doCloseShift (tag number : Nat) (s : State) : Effect :=
  whileRunning s <|
    if number = s.shift.opened.number then { Effect.done s with alreadyOpen := true }
    else if s.shift.closing.isSome then Effect.refuse .busy s
    else
      let s := enqueue .shiftMark 0 (field 2 number) (beginClose number true s)
      { state := { s with port := { s.port with executing := some (.closeShift tag) } }, result := none,
        alreadyOpen := false, body := [] }

/-- A SHIFT_MARK heard on the hall line (R150, R151). -/
def takeShiftMark (t : Telegram) (s : State) : State :=
  let number := t.num 0 2
  if number = s.shift.opened.number then s
  else if s.shift.closing.isSome then
    { s with shift := { s.shift with refused := addCapped Config.max16 s.shift.refused 1 } }
  else beginClose number false s

/-- A SHIFT_TOTALS heard on the hall line (R158). -/
def takeShiftTotals (t : Telegram) (s : State) : State :=
  { s with shift := { s.shift with totals := some { source := t.source, number := t.num 0 2, seconds := s.now } } }

/-! ### The sweep (R153, R155) -/

/-- Gross spindle-pulses of a shift's closed runs (R11, R12). -/
def Shift.gross (c : Configuration) (sh : Shift) : Nat := c.spindles * (sh.segments.map Segment.runPulses).sum

/-- Up spindle-pulses of a shift's closed runs (R12). -/
def Shift.up (sh : Shift) : Nat := (sh.segments.map Segment.up).sum

/-- Breaks of a shift (R13). -/
def Shift.breaks (sh : Shift) : Nat := (sh.segments.map Segment.breaks).sum

/-- The efficiency of a shift (R12). -/
def Shift.efficiency (c : Configuration) (sh : Shift) : Nat := efficiencyOf sh.up (sh.gross c)

/-- The break rate of a shift (R13). -/
def Shift.breakRate (c : Configuration) (sh : Shift) : Nat := breakRateOf sh.breaks c.spindles sh.runSeconds

/-- A divisor of the shift's figures is 0 (R12, R13, R155). -/
def Shift.noDelivery (c : Configuration) (sh : Shift) : Bool := sh.gross c == 0 || sh.runSeconds == 0

/-- The count of the mark that closed a shift (R152). -/
def Shift.closeCount (sh : Shift) : Nat := (sh.closedAt.map Prod.snd).getD 0

/-- The report of a closed shift: steps 1 and 2 of R155. -/
def reportOf (c : Configuration) (sh : Shift) : Report :=
  let run : Shift := { sh with segments := modifyLast (Segment.closeRun c sh.closeCount) sh.segments }
  let flags := if run.noDelivery c then { run.flags with noDelivery := true } else run.flags
  { shift := { run with flags := flags }, efficiency := run.efficiency c, breakRate := run.breakRate c }

/-- The payload of a SHIFT_TOTALS (12.1, R155). -/
def totalsPayload (r : Report) : List Byte :=
  field 2 r.shift.number ++ field 2 r.efficiency ++ field 2 r.breakRate ++
    field 4 ((r.shift.segments.map Segment.mass).sum) ++ field 2 r.shift.breaks ++
    field 2 ((r.shift.segments.map Segment.doffStarts).sum) ++ field 1 r.shift.doffs ++ field 1 r.shift.flags.byte

/-- The sweep ends: steps 1 to 6 of R155. -/
def sweepEnd (cl : Closing) (s : State) : State :=
  let r := reportOf s.cfg cl.shift
  let s := { s with shift := { s.shift with ring := (r :: s.shift.ring).take Config.ringCapacity, closing := none } }
  let s := enqueue .shiftTotals 0 (totalsPayload r) s
  if cl.waiting then completeClose cl.shift.number s else s

/-- The sweep takes the record at its position (R153). -/
def sweepOne (s : State) : State :=
  match s.shift.closing with
  | none => s
  | some cl =>
    let s := touch cl.sweep s
    match s.shift.closing with
    | none => s
    | some cl =>
      let cl := { cl with sweep := cl.sweep + 1 }
      let s := { s with shift := { s.shift with closing := some cl } }
      if s.mon.spindles.length < cl.sweep then sweepEnd cl s else s

/-- SWEEP_STEP (R153, R155). -/
def execSweepStep (s : State) : Answer := inRunning s (sweepOne s)

end Sys2Proof.Machine
end

