-- ==== Sys2Proof/Machine/Lockout.lean ====
section
/-! DEFINITION. The lockout range with its pin, the MAINT input, and the clearing of a rogue spindle (R35 to R37, R58). -/

namespace Sys2Proof.Machine

/-! ### The range (R35, R36) -/

/-- A spindle inside a lockout range (section 2.6). -/
def Lockout.inside (l : Lockout) (i : Nat) : Bool :=
  if l.invert then i < l.lower || l.upper < i else l.lower ≤ i && i ≤ l.upper

/-- A spindle inside the range, if one is set. -/
def insideOf (l : Option Lockout) (i : Nat) : Bool :=
  match l with
  | some l => l.inside i
  | none => false

/-- Record `i` enters the range: an outstanding order for it is withdrawn, it is booked, and it enters LOCKED (R35). -/
def lockRecord (i : Nat) (s : State) : State :=
  bookEnter i .locked (if (s.sp i).state = .ordered then withdrawOrder i s else s)

/-- LOCKED record `i` leaves the range: booked, then UNOBSERVED, ROGUE with down-since now, or UNSEEN (R35). -/
def unlockRecord (i : Nat) (s : State) : State :=
  let s := book i s
  if (s.strip (stripOf i)).failed then enter i .unobserved s
  else if (s.sp i).rogueMark then enter i .rogue (modifySp i (fun r => { r with downSince := some s.now }) s)
  else enter i .unseen s

/-- Record `i` under a change of the range. -/
def rangeRecord (old new : Option Lockout) (i : Nat) (s : State) : State :=
  if insideOf new i then (if insideOf old i then s else lockRecord i s)
  else if insideOf old i ∧ (s.sp i).state = .locked then unlockRecord i s
  else s

/-- A new range (or none) applied to every record in ascending index order; places freed are refilled after the whole table
(R35, R36, R50). -/
def applyRange (new : Option Lockout) (s : State) : State :=
  let old := s.mon.lockout
  piecingEvent (each s.indices (rangeRecord old new)) { s with mon := { s.mon with lockout := new } }

/-- An index in 1..N. -/
def State.hasSpindle (s : State) (i : Nat) : Bool := 1 ≤ i && i ≤ s.mon.spindles.length

/-- SET_LOCKOUT (R35). -/
def doSetLockout (lower upper invert : Nat) (s : State) : Effect :=
  whileRunning s <|
    if s.mon.pin then Effect.refuse .pinned s
    else if !(s.hasSpindle lower && s.hasSpindle upper) then Effect.refuse .noSuch s
    else if upper < lower then Effect.refuse .outOfRange s
    else Effect.done (applyRange (some { lower := lower, upper := upper, invert := flagOfByte invert }) s)

/-- CLEAR_LOCKOUT (R36). -/
def doClearLockout (s : State) : Effect :=
  whileRunning s <|
    if s.mon.pin then Effect.refuse .pinned s
    else match s.mon.lockout with
      | some _ => Effect.done (applyRange none s)
      | none => Effect.done s

/-! ### The pin (R37) -/

/-- PIN_LOCKOUT (R37). -/
def doPinLockout (s : State) : Effect :=
  whileRunning s <| Effect.done { s with mon := { s.mon with pin := true } }

/-- A change of MAINT clears the pin; a level that is not new is no change (R37). -/
def takeMaint (level : Bool) (s : State) : State :=
  let s := if s.frame.maint = level then s else { s with mon := { s.mon with pin := false } }
  { s with frame := { s.frame with maint := level } }

/-- MAINT_CHANGE (R37, R174): taken in any part state; while RESET_N is low the part is held at its power-on state and only
the level of the wire is kept. -/
def execMaintChange (level : Bool) (s : State) : Answer :=
  .next (if s.frame.resetLow then { s with frame := { s.frame with maint := level } } else takeMaint level s)

/-! ### Rogue spindles (R58) -/

/-- The rogue mark cleared, attempts 0; a ROGUE record is booked and enters UNSEEN, after the close step where one is due. A
record that is LOCKED or UNOBSERVED neither changes state nor is booked or counted, so R39 asks no close step for it and its
shift breaks stand (R58). -/
def unmarkRogue (i : Nat) (s : State) : State :=
  let s := modifySp i (fun r => { r with rogueMark := false, attempts := 0 }) s
  if (s.sp i).state = .rogue then bookEnter i .unseen s else s

/-- CLEAR_ROGUE (R58). -/
def doClearRogue (i : Nat) (s : State) : Effect :=
  whileRunning s <|
    if !(s.hasSpindle i) then Effect.refuse .noSuch s
    else if (s.sp i).rogueMark then Effect.done (unmarkRogue i s)
    else Effect.refuse .notRogue s

end Sys2Proof.Machine
end

