-- ==== Sys2Proof/Machine/Robots.lean ====
section
/-! DEFINITION. The robot protocol: the telegrams a robot sends (R67, R69, R74 to R78, R81), the engagement's timers (R65, R66,
R68, R70, R79) and the per-second work on queues and piecings (R52, R56). -/

namespace Sys2Proof.Machine

/-! ### The engagement a telegram is given to (R64) -/

/-- The engagement whose robot is the source, if any. -/
def State.engagedBy (s : State) (robot : Nat) : Option Side :=
  if s.pie.a.eng.robot = some robot then some .a
  else if s.pie.b.eng.robot = some robot then some .b
  else none

/-- One stray robot telegram (R69, R81). -/
def strayRobot (s : State) : State :=
  { s with pie := { s.pie with stray := addCapped Config.max16 s.pie.stray 1 } }

/-- One late result (R74). -/
def lateResult (s : State) : State :=
  { s with pie := { s.pie with late := addCapped Config.max16 s.pie.late 1 } }

/-- A reported position taken into 1..N (R69). -/
def State.clampIndex (s : State) (p : Nat) : Nat := max 1 (min s.cfg.spindles p)

/-! ### Offers (R67) -/

/-- The engagement an offer's side code names: in joined mode side A's for A, B and BOTH; in split mode that side's (R64). -/
def State.offeredSide (s : State) (code : Nat) : Option Side :=
  if s.joined then (if code ≤ bothCode then some .a else none)
  else if code = sideCode .a then some .a
  else if code = sideCode .b then some .b
  else none

/-- The side code of the answer to an offer: BOTH in joined mode, but for a code that is no side (R64, R67). -/
def State.answerCode (s : State) (code : Nat) : Nat := if s.joined ∧ code ≤ bothCode then bothCode else code

/-- The other side. -/
def otherSide : Side → Side
  | .a => .b
  | .b => .a

/-- Whether an offer is accepted (R67). -/
def State.accepts (s : State) (robot : Nat) (x : Side) : Bool :=
  (s.eng x).state == .calling && (s.side x).bar.map Bar.robot != some robot && (s.eng (otherSide x)).robot != some robot

/-- A ROBOT_OFFER (R67). -/
def takeOffer (t : Telegram) (s : State) : State :=
  let code := t.num 0 1
  let decline := enqueue .robotDecline t.source (field 1 (s.answerCode code)) s
  match s.offeredSide code with
  | some x =>
    if s.accepts t.source x then
      let s := enqueue .robotAccept t.source (field 1 (s.sideName x)) s
      setEng x { s.eng x with
        state := .awaiting, robot := some t.source, timeouts := 0, timer := some (s.now + s.cfg.arrivalTime),
        nextCall := none } s
    else decline
  | none => decline

/-! ### Arrivals (R69) -/

/-- A ROBOT_ARRIVED (R69). -/
def takeArrival (t : Telegram) (s : State) : State :=
  match s.engagedBy t.source with
  | some x =>
    if (s.eng x).state = .awaiting then
      decideNext x (setEng x { s.eng x with
        state := .working, position := some (s.clampIndex (t.num 0 2)), ascending := true, timer := none } s)
    else strayRobot s
  | none => strayRobot s

/-! ### Results (R74 to R78) -/

/-- The ordered record dealt with by outcome and seen-up (R75 to R78). A record that is no longer ORDERED is left alone
(R38). -/
def applyResult (o : WorkOutcome) (i : Nat) (s : State) : State :=
  if (s.sp i).state = .ordered then
    if (s.sp i).seenUp then
      modifySp i (fun r => { r with piecedAt := some s.now }) (countEvent .byRobot (bookEnter i .up s))
    else
      match o with
      | .pieced => modifySp i (fun r => { r with piecedAt := some s.now }) (enter i .confirming s)
      | .failed => failedPiecing i s
      | .skipped => returnToPiecing i s
      | .noRoving =>
        if s.underExchange i then bookEnter i .exchange s else goneEmpty i (bookEnter i .empty s)
  else s

/-- The engagement and order a result is matched to (R74). -/
def State.matchedOrder (s : State) (robot tag : Nat) : Option (Side × Order) :=
  match s.engagedBy robot with
  | some x =>
    match (s.eng x).state, (s.eng x).order with
    | .orderOut, some o => if o.tag = tag then some (x, o) else none
    | _, _ => none
  | none => none

/-- A matched result, within one event: steps 1 to 3 of R74. -/
def matchedResult (x : Side) (o : Order) (out : WorkOutcome) (position : Nat) (s : State) : State :=
  let s := setEng x { s.eng x with
    order := none, timer := none, timeouts := 0, position := some (s.clampIndex position) } s
  let s := refill (applyResult out o.index s)
  decideNext x (setEng x { s.eng x with state := .working } s)

/-- A WORK_RESULT (R74): order tag 1, index 2, outcome 1, position 2. -/
def takeResult (t : Telegram) (s : State) : State :=
  match s.matchedOrder t.source (t.num 0 1), WorkOutcome.ofCode (t.num 3 1) with
  | some (x, o), some out => matchedResult x o out (t.num 4 2) s
  | _, _ => lateResult s

/-! ### Withdrawals and restarts (R81) -/

/-- An engagement in one of the states a robot's withdrawal or restart ends (R81). -/
def EngState.engaged : EngState → Bool
  | .awaiting | .working | .orderOut => true
  | .idle | .calling | .suspended => false

/-- A ROBOT_WITHDRAW (R81). -/
def takeWithdraw (t : Telegram) (s : State) : State :=
  match s.engagedBy t.source with
  | some x => if (s.eng x).state.engaged then endEngagement x s else strayRobot s
  | none => strayRobot s

/-- A STATION_RESTART at the piecing engine (R81). -/
def robotRestarted (source : Nat) (s : State) : State :=
  match s.engagedBy source with
  | some x => if (s.eng x).state.engaged then endEngagement x s else s
  | none => s

/-! ### The engagement's timers -/

/-- A timer has been reached. -/
def reached (now : Nat) : Option Nat → Bool
  | some t => t ≤ now
  | none => false

/-- PIECE_CALL_REPEAT (R65). -/
def execPieceCallRepeat (x : Side) (s : State) : Answer :=
  inRunning s <|
    if (s.eng x).state = .calling ∧ reached s.now (s.eng x).nextCall then
      let s := pieceCall x s
      setEng x { s.eng x with nextCall := (s.eng x).nextCall.map (· + Config.callSeconds) } s
    else s

/-- SINCE_CALL_LIMIT (R66). The subject is the side; in joined mode the one engagement is side A's. -/
def execSinceCallLimit (x : Side) (s : State) : Answer :=
  inRunning s <|
    if (s.eng x).state = .calling ∧ Config.noRobotSeconds ≤ (s.eng x).sinceCall ∧ (s.eng x).called = false then
      raiseAlert .noRobot .action (some (sideCode x)) (setEng x { s.eng x with called := true } s)
    else s

/-- ARRIVAL_TIMEOUT (R70). -/
def execArrivalTimeout (x : Side) (s : State) : Answer :=
  inRunning s <|
    if (s.eng x).state = .awaiting ∧ reached s.now (s.eng x).timer then callOrIdle x (sendRelease x s) else s

/-- The second order timeout in a row: the robot released and barred, ROBOT_LOST, and a new calling spell (R79). -/
def robotLost (x : Side) (s : State) : State :=
  let robot := (s.eng x).robot.getD 0
  let s := sendRelease x s
  let s := setSide x { s.side x with bar := some { robot := robot, ends := s.now + Config.barSeconds } } s
  let s := raiseAlert .robotLost .note (some robot) s
  enterCalling x (setEng x (s.eng x).cleared s)

/-- An order timer reached (R79). -/
def orderTimedOut (x : Side) (o : Order) (s : State) : State :=
  let s := sendCancel x s
  let s := setEng x { s.eng x with order := none, timer := none } s
  let s := refill (failedPiecing o.index s)
  if (s.eng x).timeouts = 0 then
    decideNext x (setEng x { s.eng x with state := .working, timeouts := 1 } s)
  else robotLost x s

/-- ORDER_TIMEOUT (R79). -/
def execOrderTimeout (x : Side) (s : State) : Answer :=
  inRunning s <|
    match (s.eng x).state, (s.eng x).order with
    | .orderOut, some o => if reached s.now (s.eng x).timer then orderTimedOut x o s else s
    | _, _ => s

/-- BAR_END (R68). -/
def execBarEnd (x : Side) (s : State) : Answer :=
  inRunning s <|
    if reached s.now ((s.side x).bar.map Bar.ends) then setSide x { s.side x with bar := none } s else s

/-! ### Escalation and the hold of piecings (R52, R56) -/

/-- The entries of a queue old enough marked as escalated (R52). -/
def State.escalated (s : State) (q : List QueueEntry) : List QueueEntry :=
  q.map (fun e => if s.cfg.escalationAge ≤ (s.sp e.index).age s.now then { e with escalated := true } else e)

/-- ESCALATION (R52). -/
def execEscalation (s : State) : Answer :=
  inRunning s <|
    { s with pie := { s.pie with
      a := { s.pie.a with queue := s.escalated s.pie.a.queue }
      b := { s.pie.b with queue := s.escalated s.pie.b.queue } } }

/-- A record whose robot piecing has held for 60 s (R56). -/
def Spindle.held (now : Nat) (r : Spindle) : Spindle :=
  match r.state, r.piecedAt with
  | .up, some t => if t + Config.holdSeconds ≤ now then { r with attempts := 0, piecedAt := none } else r
  | _, _ => r

/-- PIECING_HOLD (R56). -/
def execPiecingHold (s : State) : Answer :=
  inRunning s { s with mon := { s.mon with spindles := s.mon.spindles.map (Spindle.held s.now) } }

end Sys2Proof.Machine
end

