-- ==== Sys2Proof/Machine/Carriers.lean ====
section
/-! DEFINITION. The carrier protocol and the creel's own timers: bookings, exchange begins and ends, a carrier's restart, the
host's creel confirmation, lapses and timeouts (R91, R97, R103 to R113). -/

namespace Sys2Proof.Machine

/-! ### Booking (R103, R104) -/

/-- A section number in 1..N/24. -/
def State.hasSection (s : State) (k : Nat) : Bool := 1 ≤ k && k ≤ s.creel.sections.length

/-- Section `k` of a CARRIER_BOOKING is accepted: `own` is the slot the carrier holds, `held` the sections the booking holds,
`taken` those accepted so far in the telegram and `fresh` the newly accepted among them (R103). The room of eight is asked of a section
in no booking alone: one of the carrier's own booking is accepted again also where that booking holds eight (assumption log 32). -/
def State.acceptsSection (s : State) (own : Option Nat) (held taken fresh : List Nat) (k : Nat) : Bool :=
  s.hasSection k && (s.sec k).state == .normal && !taken.contains k &&
    match (s.sec k).booking with
    | some n => own == some n
    | none => held.length + fresh.length < Config.bookingCapacity

/-- The sections of a CARRIER_BOOKING taken one by one: those accepted and, of them, those newly accepted, each in telegram
order (R103). -/
def State.bookingTaken (s : State) (own : Option Nat) (held : List Nat) : List Nat → List Nat × List Nat
  | l => l.foldl (fun (r : List Nat × List Nat) k =>
      if s.acceptsSection own held r.1 r.2 k then
        (r.1 ++ [k], if (s.sec k).booking.isNone then r.2 ++ [k] else r.2)
      else r) ([], [])

/-- The slot a carrier's booking goes to: the one it holds, else the lower-numbered free one (R104). -/
def State.slotFor (s : State) (carrier : Nat) : Option Nat :=
  match s.slotOf carrier with
  | some n => some n
  | none => if s.creel.slot1.isNone then some 1 else if s.creel.slot2.isNone then some 2 else none

/-- Slot `n` taken or extended with newly accepted sections (R104). -/
def extendSlot (n carrier eta : Nat) (fresh : List Nat) (s : State) : State :=
  let lapse := s.now + eta * 60 + s.cfg.bookingGrace
  let b : Booking := match s.slot n with
    | some b => { b with eta := eta, lapse := max b.lapse lapse, sections := b.sections ++ fresh }
    | none => { carrier := carrier, eta := eta, lapse := lapse, sections := fresh }
  each fresh (fun k => modifySec k (fun x => { x with booking := some n })) (setSlot n (some b) s)

/-- A CARRIER_BOOKING: ETA 1, section numbers 1..8 (R103, R104). -/
def takeBooking (t : Telegram) (s : State) : State :=
  let listed := (t.payload.drop 1).map BitVec.toNat
  match s.slotFor t.source with
  | some n =>
    let held := (s.slot n).elim [] Booking.sections
    let r := s.bookingTaken (s.slotOf t.source) held listed
    let s := if r.2.isEmpty then s else extendSlot n t.source (t.num 0 1) r.2 s
    enqueue .bookingAck t.source (r.1.flatMap (field 1)) s
  | none => enqueue .bookingAck t.source [] s

/-- A BOOKING_DONE (R106). -/
def takeBookingDone (t : Telegram) (s : State) : State :=
  match s.slotOf t.source with
  | some n => freeSlot n s
  | none => s

/-! ### Begin and end of an exchange (R107, R108, R110, R111) -/

/-- A record at the begin of its section's exchange (R107's table). -/
def exchangeRecord (i : Nat) (s : State) : State :=
  match (s.sp i).state with
  | .queued | .waiting => bookEnter i .exchange s
  | .empty => enter i .exchange s
  | .ordered => bookEnter i .exchange (withdrawOrder i s)
  | .confirming | .up | .unseen | .unobserved | .locked | .rogue | .exchange => s

/-- The lapse time of a slot pushed back (R107). -/
def pushLapse (n t : Nat) (s : State) : State :=
  match s.slot n with
  | some b => setSlot n (some { b with lapse := max b.lapse t }) s
  | none => s

/-- An accepted EXCHANGE_BEGIN of section `k`, booked in slot `n`: steps 1 to 5 of R107. -/
def beginExchange (k n carrier : Nat) (s : State) : State :=
  let expiry := s.now + s.cfg.exchangeTime
  let s := modifySec k (fun x => { x with state := .exchanging, timer := some expiry, carrier := some carrier }) s
  let s := pushLapse n (expiry + s.cfg.bookingGrace) s
  leaveNormal k (piecingEvent (each (indicesOf k) exchangeRecord) s)

/-- The slot of section `k`'s booking, where the section is NORMAL and the carrier of that booking is the sender (R107). -/
def State.beginnable (s : State) (k carrier : Nat) : Option Nat :=
  if s.hasSection k ∧ (s.sec k).state = .normal then
    match (s.sec k).booking with
    | some n => if (s.slot n).map Booking.carrier = some carrier then some n else none
    | none => none
  else none

/-- An EXCHANGE_BEGIN (R107). -/
def takeExchangeBegin (t : Telegram) (s : State) : State :=
  match s.beginnable (t.num 0 1) t.source with
  | some n => beginExchange (t.num 0 1) n t.source s
  | none => strayCarrier s

/-- An EXCHANGE_END of section `k` from the carrier that began it (R108). -/
def State.endable (s : State) (k carrier : Nat) : Bool :=
  s.hasSection k && (s.sec k).state == .exchanging && (s.sec k).carrier == some carrier

/-- An EXCHANGE_END: section 1, outcome 1 (LOADED 0, ABORTED 1) (R108, R110). -/
def takeExchangeEnd (t : Telegram) (s : State) : State :=
  if s.endable (t.num 0 1) t.source then
    match t.num 1 1 with
    | 0 => endLoaded (t.num 0 1) s
    | 1 => endUnknown (t.num 0 1) s
    | _ => strayCarrier s
  else strayCarrier s

/-- A section whose exchange the station began ends without a load (R111). -/
def abandonOf (carrier k : Nat) (s : State) : State :=
  if (s.sec k).state = .exchanging ∧ (s.sec k).carrier = some carrier then endUnknown k s else s

/-- A STATION_RESTART at the creel unit (R111). -/
def carrierRestarted (source : Nat) (s : State) : State :=
  let s := each s.numbers (abandonOf source) s
  match s.slotOf source with
  | some n => freeSlot n s
  | none => s

/-! ### The host's confirmation (R112, R113) -/

/-- CREEL_CONFIRM: LOADED 0, NOT_LOADED 1 (R112, R113). -/
def doCreelConfirm (k outcome : Nat) (s : State) : Effect :=
  whileRunning s <|
    if !(s.hasSection k) then Effect.refuse .noSuch s
    else if 1 < outcome then Effect.refuse .outOfRange s
    else if (s.sec k).state = .normal then Effect.refuse .notPending s
    else if outcome = 0 then Effect.done (endLoaded k s)
    else if (s.sec k).base.isNone then Effect.refuse .outOfRange s
    else Effect.done (endNotLoaded k s)

/-! ### The creel's own timers (R91, R97, R105, R110) -/

/-- A slot whose lapse time has been reached lapses (R105). -/
def lapse (n : Nat) (s : State) : State :=
  match s.slot n with
  | some b => raiseAlert .bookingLapsed .note (some b.carrier) (freeSlot n s)
  | none => s

/-- BOOKING_LAPSE (R105). -/
def execBookingLapse (n : Nat) (s : State) : Answer :=
  inRunning s <|
    if reached s.now ((s.slot n).map Booking.lapse) then lapse n s else s

/-- EXCHANGE_TIMEOUT (R110). -/
def execExchangeTimeout (k : Nat) (s : State) : Answer :=
  inRunning s <|
    if s.hasSection k ∧ (s.sec k).state = .exchanging ∧ reached s.now (s.sec k).timer then endUnknown k s else s

/-- ANNOUNCEMENT_COUNT (R97). -/
def execAnnouncementCount (s : State) : Answer :=
  inRunning s <|
    if reached s.now (s.creel.announceFrom.map (· + Config.announceSeconds)) then
      if s.creel.dueList.isEmpty then { s with creel := { s.creel with announceFrom := some s.now } }
      else announceDue s
    else s

/-- RECOMPUTE (R91). -/
def execRecompute (s : State) : Answer :=
  inRunning s <|
    if reached s.now s.creel.nextRecompute then
      recomputeAll { s with creel := { s.creel with
        nextRecompute := s.creel.nextRecompute.map (· + Config.recomputeSeconds) } }
    else s

end Sys2Proof.Machine
end

