-- ==== Sys2Proof/Machine/Doff.lean ====
section
/-! DEFINITION. The doff sequencer: claims, grants, rundown, the doff, the restart and the settle window (R116 to R129), and the
peer doff view with its ranking, grant check and back-off (R133 to R142). -/

namespace Sys2Proof.Machine

/-! ### Fill, wait and announcements -/

/-- The fill of the present cops (R10); 0 while no article is active. -/
def State.fill (s : State) : Nat :=
  match s.del.active with
  | some a => copFill s.cfg a (s.count - s.doff.copMark)
  | none => 0

/-- The wait of the present claim, saturating at 65,535 (R117, R138). -/
def State.ownWait (s : State) : Nat := min Config.max16 (s.now - s.doff.firstClaim.getD s.now)

/-- Queues a DOFF_CLAIM: urgency, wait, fill, manual flag (R117, 12.1). -/
def sendClaim (s : State) : State :=
  enqueue .doffClaim 0
    (field 1 s.doff.urgency.code ++ field 2 s.ownWait ++ field 2 s.fill ++ flag s.doff.manual) s

/-- The phase a DOFF_STATE carries in a doff state (R123, R128). -/
def DoffState.phase : DoffState → Phase
  | .granted => .granted
  | .rundown => .rundown
  | .doffing => .doffing
  | .unknown => .unknown
  | .spinning | .claimed | .fullWait | .restart | .settling => .claimed

/-- Queues a DOFF_STATE: present phase, urgency, granted wait (0 in UNKNOWN) (R123, R141, 12.1). -/
def sendDoffState (s : State) : State :=
  enqueue .doffState 0
    (field 1 s.doff.state.phase.code ++ field 1 s.doff.urgency.code ++ field 2 (s.doff.grantedWait.getD 0)) s

/-- The next announcement set to five seconds from now. -/
def announceAgain (s : State) : State :=
  { s with doff := { s.doff with nextAnn := some (s.now + Config.doffAnnounceSeconds) } }

/-- The doff state set. -/
def setDoffState (d : DoffState) (s : State) : State := { s with doff := { s.doff with state := d } }

/-! ### Claims (R116 to R119) -/

/-- The claim becomes full (R118). -/
def claimFull (s : State) : State :=
  let s := addHold .copFull { s with doff := { s.doff with urgency := .full, state := .fullWait } }
  announceAgain (sendClaim s)

/-- A claim made from SPINNING (R117). -/
def claim (manual : Bool) (s : State) : State :=
  let s := { s with doff := { s.doff with
    firstClaim := some s.now, urgency := .normal, manual := manual, listenEnd := some (s.now + Config.listenSeconds) } }
  let s := setDoffState .claimed (announceAgain (sendClaim s))
  if Config.fullFill ≤ s.fill then claimFull s else s

/-- The fill check of a device second (R116). -/
def fillCheck (s : State) : State :=
  match s.doff.state with
  | .spinning => if s.cfg.claimLevel ≤ s.fill then claim false s else s
  | .claimed => if Config.fullFill ≤ s.fill then claimFull s else s
  | .granted =>
    if Config.fullFill ≤ s.fill ∧ s.doff.urgency = .normal then
      addHold .copFull { s with doff := { s.doff with urgency := .full } }
    else s
  | .fullWait | .rundown | .doffing | .restart | .settling | .unknown => s

/-- DOFF_REQUEST (R119). -/
def doDoffRequest (s : State) : Effect :=
  whileRunning s <|
    match s.doff.state with
    | .spinning => Effect.done (claim true s)
    | .claimed | .fullWait => Effect.done { s with doff := { s.doff with manual := true } }
    | .granted | .rundown | .doffing | .restart | .settling | .unknown => Effect.refuse .busy s

/-! ### Ranking, the grant and the back-off (R138 to R142) -/

/-- An entry's present wait (R138). -/
def Peer.presentWait (p : Peer) (now : Nat) : Nat := addCapped Config.max16 p.wait (now - p.heard)

/-- A peer ranks ahead of this station (R138). -/
def State.ranksAhead (s : State) (p : Peer) : Bool :=
  let theirs := p.presentWait s.now
  if p.urgency = s.doff.urgency then
    s.ownWait < theirs || (theirs == s.ownWait && p.station < s.cfg.station)
  else p.urgency == .full

/-- A peer counts as ahead of this station: a CLAIMED or GRANTED entry by its rank; one in RUNDOWN, DOFFING or UNKNOWN is not
ranked and always does (R138). -/
def State.countsAhead (s : State) (p : Peer) : Bool :=
  match p.phase with
  | .claimed | .granted => s.ranksAhead p
  | .rundown | .doffing | .unknown => true

/-- Phase GRANTED or later (section 8.1). -/
def Phase.holdsSlot : Phase → Bool
  | .claimed => false
  | .granted | .rundown | .doffing | .unknown => true

/-- The count a of the grant check (R140). -/
def State.slotHolders (s : State) : Nat := s.doff.view.countP (fun p => p.phase.holdsSlot)

/-- The count b of the grant check (R140). -/
def State.claimantsAhead (s : State) : Nat := s.doff.view.countP (fun p => p.phase == .claimed && s.ranksAhead p)

/-- The view is full (R134). -/
def Doff.full (d : Doff) : Bool := Config.viewCapacity ≤ d.view.length

/-- A grant (R140). -/
def grant (s : State) : State :=
  let s := { s with doff := { s.doff with
    grantedWait := some s.ownWait, confirmEnd := some (s.now + Config.confirmSeconds), state := .granted } }
  announceAgain (sendDoffState s)

/-- The doff state is CLAIMED or FULL_WAIT. -/
def DoffState.claiming : DoffState → Bool
  | .claimed | .fullWait => true
  | .spinning | .granted | .rundown | .doffing | .restart | .settling | .unknown => false

/-- The grant check, in CLAIMED or FULL_WAIT with the listen end absent (R140). -/
def grantCheck (s : State) : State :=
  if s.doff.state.claiming ∧ s.doff.listenEnd = none then
    if s.doff.full = false ∧ s.slotHolders + s.claimantsAhead < s.cfg.slots then grant s else s
  else s

/-- The entries ahead of this station among those holding a slot (R142). -/
def State.holdersAhead (s : State) : Nat :=
  s.doff.view.countP (fun p => p.phase.holdsSlot && s.countsAhead p)

/-- CLAIMED or FULL_WAIT, by the urgency (R129, R142). -/
def Urgency.claimState : Urgency → DoffState
  | .normal => .claimed
  | .full => .fullWait

/-- The grant withdrawn, with a DOFF_CLAIM (R129, R142). -/
def withdrawGrant (s : State) : State :=
  let s := { s with doff := { s.doff with
    confirmEnd := none, grantedWait := none, state := s.doff.urgency.claimState } }
  announceAgain (sendClaim s)

/-- The back-off check, in GRANTED (R142; the place of its DOFF_CLAIM in the outgoing queue is assumption log 37). -/
def backOffCheck (s : State) : State :=
  if s.cfg.slots ≤ s.holdersAhead then
    let s := withdrawGrant s
    { s with doff := { s.doff with backOffs := addCapped Config.max16 s.doff.backOffs 1 } }
  else s

/-- What a view change sets off (R137). -/
def viewChanged (s : State) : State :=
  match s.doff.state with
  | .claimed | .fullWait => grantCheck s
  | .granted => backOffCheck s
  | .spinning | .rundown | .doffing | .restart | .settling | .unknown => s

/-! ### The peer doff view (R133 to R136) -/

/-- One dropped doff telegram (R133, R134). -/
def dropDoff (s : State) : State :=
  { s with doff := { s.doff with dropped := addCapped Config.max16 s.doff.dropped 1 } }

/-- An entry put at its place in the view, ascending by station. -/
def insertPeer (p : Peer) : List Peer → List Peer
  | [] => [p]
  | q :: rest => if p.station < q.station then p :: q :: rest else q :: insertPeer p rest

/-- A station's announcement taken into the view: refresh, insertion, or the full view (R133, R134, R137). -/
def takePeer (p : Peer) (s : State) : State :=
  match s.doff.view.find? (fun q => q.station == p.station) with
  | some q =>
    let s := { s with doff := { s.doff with
      view := s.doff.view.map (fun r => if r.station = p.station then p else r) } }
    if q.phase = p.phase ∧ q.urgency = p.urgency then s else viewChanged s
  | none =>
    if s.doff.full then raiseAlert .peerViewFull .note (some p.station) (dropDoff s)
    else viewChanged { s with doff := { s.doff with view := insertPeer p s.doff.view } }

/-- A DOFF_CLAIM: urgency 1, wait 2, fill 2, manual flag 1 (R133). -/
def takeClaim (t : Telegram) (s : State) : State :=
  match Urgency.ofCode (t.num 0 1) with
  | some u =>
    if t.source = s.cfg.station then dropDoff s
    else takePeer { station := t.source, phase := .claimed, urgency := u, wait := t.num 1 2, heard := s.now } s
  | none => dropDoff s

/-- A DOFF_STATE: phase 1, urgency 1, wait 2 (R133). -/
def takeDoffState (t : Telegram) (s : State) : State :=
  match Phase.ofCode (t.num 0 1), Urgency.ofCode (t.num 1 1) with
  | some ph, some u =>
    if t.source = s.cfg.station then dropDoff s
    else takePeer { station := t.source, phase := ph, urgency := u, wait := t.num 2 2, heard := s.now } s
  | _, _ => dropDoff s

/-- The entries that pass a test kept; a removal is a view change, one for all of them (R135 to R137). -/
def keepPeers (keep : Peer → Bool) (s : State) : State :=
  if s.doff.view.all keep then s
  else viewChanged { s with doff := { s.doff with view := s.doff.view.filter keep } }

/-- A DOFF_DONE, DOFF_WITHDRAW or STATION_RESTART of a station (R135). -/
def peerGone (station : Nat) (s : State) : State := keepPeers (fun p => p.station != station) s

/-- PEER_SILENCE (R136). -/
def execPeerSilence (s : State) : Answer :=
  inRunning s (keepPeers (fun p => s.now < p.heard + Config.peerSilenceSeconds) s)

/-! ### From grant to the stopped frame (R120 to R123) -/

/-- The stop test (R121). -/
def stopTest (s : State) : State :=
  if s.doff.state = .rundown ∧ s.frame.run = false ∧ Config.stopSeconds ≤ s.del.pulseFree then
    let s := { s with doff := { s.doff with doffTimer := some (s.now + s.cfg.doffTime), state := .doffing } }
    announceAgain (sendDoffState s)
  else s

/-- The grant stands and the frame enters RUNDOWN: steps 1 to 6 of R120. -/
def enterRundown (s : State) : State :=
  let s := { s with doff := { s.doff with confirmEnd := none, firstClaim := none } }
  let s := removeHold .copFull (addHold .doff s)
  let s := suspendEngagements (setDoffState .rundown s)
  stopTest (announceAgain (sendDoffState s))

/-- LISTEN_END (R139): the listen end becomes absent, and the grant check of this device second, which waited for it, is
made (R140). -/
def execListenEnd (s : State) : Answer :=
  inRunning s <|
    if reached s.now s.doff.listenEnd then grantCheck { s with doff := { s.doff with listenEnd := none } } else s

/-- CONFIRM_END (R120). -/
def execConfirmEnd (s : State) : Answer :=
  inRunning s <|
    if s.doff.state = .granted ∧ reached s.now s.doff.confirmEnd then enterRundown s else s

/-- DOFF_TIMER (R122). -/
def execDoffTimer (s : State) : Answer :=
  inRunning s <|
    if s.doff.state = .doffing ∧ reached s.now s.doff.doffTimer then
      raiseAlert .doffTimeout .action none { s with doff := { s.doff with doffTimer := none } }
    else s

/-- The next announcement reached: a DOFF_CLAIM or a DOFF_STATE by the doff state, and five seconds on (R117, R123, R128). -/
def announceDoff (s : State) : State :=
  let on := fun (s : State) =>
    { s with doff := { s.doff with nextAnn := s.doff.nextAnn.map (· + Config.doffAnnounceSeconds) } }
  match s.doff.state with
  | .claimed | .fullWait => on (sendClaim s)
  | .granted | .rundown | .doffing | .unknown => on (sendDoffState s)
  | .spinning | .restart | .settling => s

/-- NEXT_ANNOUNCEMENT (R117, R123, R128). -/
def execNextAnnouncement (s : State) : Answer :=
  inRunning s <| if reached s.now s.doff.nextAnn then announceDoff s else s

/-! ### Completing the doff (R124) -/

/-- The doff count of the open shift raised by 1 (R124, R145). -/
def countDoff (s : State) : State :=
  { s with shift := { s.shift with opened :=
      { s.shift.opened with doffs := addCapped Config.max8 s.shift.opened.doffs 1 } } }

/-- Steps 1 to 6 of R124. -/
def completeDoff (s : State) : State :=
  let s := if s.del.armed then articleSwitch s else s
  let s := countDoff { s with doff := { s.doff with copMark := s.count } }
  let s := enqueue .doffDone 0 [] s
  let s := removeHold .doff { s with doff := { s.doff with nextAnn := none, doffTimer := none, grantedWait := none } }
  let fresh := s.doff.state == .unknown
  let s := setDoffState .restart s
  if fresh then suspendEngagements s else s

/-- DOFF_COMPLETE (R124). -/
def doDoffComplete (s : State) : Effect :=
  whileRunning s <|
    match s.doff.state with
    | .doffing | .unknown => Effect.done (completeDoff s)
    | .spinning | .claimed | .fullWait | .granted | .rundown | .restart | .settling => Effect.refuse .notDoffing s

/-! ### The settle window (R126) -/

/-- A record judged at the end of the settle window to have failed to start (R126). -/
def State.failedStart (s : State) (start : Nat) (i : Nat) : Bool :=
  let r := s.sp i
  let t := s.strip (stripOf i)
  (r.state == .up || r.state == .unseen) && !t.failed && t.lastAnswered.any (fun a => start ≤ a) &&
    (r.lastClass == .down || r.lastClass == .slow)

/-- A failed start taken down, with the refill that follows it (R126). -/
def judge (start : Nat) (i : Nat) (s : State) : State :=
  if s.failedStart start i then piecingEvent (goDown .settle i) s else s

/-- The end of the settle window: steps 1 to 4 of R126. -/
def settleEnd (s : State) : State :=
  let start := s.doff.settleStart.getD 0
  let s := { s with doff := { s.doff with
    settleStart := none, state := .spinning, urgency := .normal, manual := false } }
  resumeEngagements (each s.indices (judge start) s)

/-- SETTLE_WINDOW_END (R126). -/
def execSettleWindowEnd (s : State) : Answer :=
  inRunning s <|
    if s.doff.state = .settling ∧ s.cfg.settleWindow ≤ s.doff.settleSeconds then settleEnd s else s

/-! ### Abandoning a doff (R127) -/

/-- The frame returns to SPINNING, the claim cleared (R127). -/
def abandon (s : State) : State :=
  let s := enqueue .doffWithdraw 0 [] s
  removeHold .doff (removeHold .copFull { s with doff := { s.doff with
    state := .spinning, firstClaim := none, nextAnn := none, listenEnd := none, confirmEnd := none, urgency := .normal,
    manual := false, grantedWait := none } })

/-- DOFF_ABANDON (R127). -/
def doDoffAbandon (s : State) : Effect :=
  whileRunning s <|
    match s.doff.state with
    | .claimed | .fullWait | .granted | .unknown => Effect.done (abandon s)
    | .rundown => Effect.done (resumeEngagements (abandon s))
    | .spinning | .doffing | .restart | .settling => Effect.refuse .notAbandonable s

/-! ### Line restart (R129, R144) -/

/-- The doff sequencer at a line restart in RUNNING, after the STATION_RESTART is queued (R129). -/
def restartDoff (s : State) : State :=
  let s := { s with doff := { s.doff with view := [] } }
  match s.doff.state with
  | .claimed | .fullWait =>
    announceAgain (sendClaim { s with doff := { s.doff with listenEnd := some (s.now + Config.listenSeconds) } })
  | .granted => withdrawGrant { s with doff := { s.doff with listenEnd := some (s.now + Config.listenSeconds) } }
  | .rundown | .doffing | .unknown => announceAgain (sendDoffState s)
  | .spinning | .restart | .settling => s

end Sys2Proof.Machine
end

