-- ==== Sys2Proof/Machine/Clock.lean ====
section
/-! DEFINITION. The delivery counter's events: the pulse, the device second with the per-second work that no row of its own
carries, and the close of a rate bucket (R1 to R3, R66, R116, R121, R125, R140, R146). -/

namespace Sys2Proof.Machine

/-! ### Pulses (R1, R125) -/

/-- A pulse while RUN is active (R1). -/
def Delivery.pulse (d : Delivery) : Delivery :=
  { d with
    count := addCapped Config.maxCount d.count 1
    openBucket := d.openBucket.map (fun b => addCapped Config.bucketMax b 1)
    pulseFree := 0 }

/-- The first pulse added to the delivery count in RESTART begins SETTLING (R125). -/
def settleEntry (s : State) : State :=
  { s with doff := { s.doff with settleStart := some s.now, settleSeconds := 0, state := .settling } }

/-- A front-roller pulse (R1). -/
def takePulse (s : State) : State :=
  if s.frame.run then
    let added := s.del.count < Config.maxCount
    let s := { s with del := s.del.pulse }
    if s.doff.state = .restart ∧ added then settleEntry s else s
  else { s with del := { s.del with jog := addCapped Config.max32 s.del.jog 1 } }

/-- DELIVERY_PULSE (R1): in every part state. -/
def execDeliveryPulse (s : State) : Answer := powered s (takePulse s)

/-! ### The device second (R2) -/

/-- The counts of one second of the reference clock (R2). -/
def Delivery.tick (d : Delivery) : Delivery :=
  { d with seconds := addCapped Config.max32 d.seconds 1, pulseFree := addCapped Config.max16 d.pulseFree 1 }

/-- The open shift's run or stop seconds rise by 1 (R146). -/
def Shift.second (run : Bool) (sh : Shift) : Shift :=
  if run then { sh with runSeconds := addCapped Config.max32 sh.runSeconds 1 }
  else { sh with stopSeconds := addCapped Config.max32 sh.stopSeconds 1 }

/-- Since-call rises by 1 in CALLING (R66). -/
def Engagement.second (e : Engagement) : Engagement :=
  if e.state = .calling then { e with sinceCall := addCapped Config.max16 e.sinceCall 1 } else e

/-- The settle seconds rise by 1 in SETTLING while RUN is active (R125). -/
def Doff.second (run : Bool) (d : Doff) : Doff :=
  if d.state = .settling ∧ run then { d with settleSeconds := addCapped 120 d.settleSeconds 1 } else d

/-- The work of a device second in RUNNING that has no row of its own: run or stop seconds (R146), since-call (R66), the fill
check (R116), the stop test (R121), the settle seconds (R125), and after them the grant check (R140). -/
def runningSecond (s : State) : State :=
  let s := { s with
    shift := { s.shift with opened := s.shift.opened.second s.frame.run }
    pie := { s.pie with
      a := { s.pie.a with eng := s.pie.a.eng.second }
      b := { s.pie.b with eng := s.pie.b.eng.second } }
    doff := s.doff.second s.frame.run }
  grantCheck (stopTest (fillCheck s))

/-- One second of the reference clock. -/
def takeSecond (s : State) : State :=
  let s := { s with del := s.del.tick }
  if s.running then runningSecond s else s

/-- DEVICE_SECOND (R2): in every part state. -/
def execDeviceSecond (s : State) : Answer := powered s (takeSecond s)

/-! ### The rate window (R3) -/

/-- The open bucket closes: the newest completed bucket, the oldest of more than six discarded, a new open bucket at 0 (R3). -/
def Delivery.closeBucket (d : Delivery) : Delivery :=
  let all := d.buckets ++ [d.openBucket.getD 0]
  { d with
    buckets := all.drop (all.length - Config.windowBuckets)
    openBucket := some 0
    nextBucketAt := d.nextBucketAt.map (· + Config.bucketSeconds) }

/-- RATE_BUCKET_CLOSE (R3). -/
def execRateBucketClose (s : State) : Answer :=
  inRunning s (if reached s.now s.del.nextBucketAt then { s with del := s.del.closeBucket } else s)

end Sys2Proof.Machine
end

