-- ==== Sys2Proof/Machine/Operands.lean ====
section
/-! DEFINITION. The operands of a host command: the bytes of its record and their reading (12.2, R181, R189). -/

namespace Sys2Proof.Machine

/-- A field of `w` bytes at place `at_` of the fields of a record. -/
def fieldAt (fs : List Byte) (at_ w : Nat) : Nat := ofBytes ((fs.drop at_).take w)

/-- The length of the fields of a command kind; `none` for an unknown kind (R189). -/
def fieldsLength (kind : Nat) : Option Nat :=
  match kind with
  | 2 => some 39
  | 3 => some 11
  | 9 | 26 => some 2
  | 10 | 11 | 12 | 13 | 18 => some 1
  | 20 => some 3
  | 23 => some 5
  | 27 => some 2
  | 31 => some 2
  | 34 => some 1
  | 0 => none
  | k => if k ≤ 34 then some 0 else none

/-- The configuration that CONFIGURE's 39 bytes spell, in the order of R184's table (12.2). -/
def configurationOf (fs : List Byte) : Configuration :=
  { station := fieldAt fs 0 1, spindles := fieldAt fs 1 2, joined := fieldAt fs 3 1, circumference := fieldAt fs 4 4
    ppr := fieldAt fs 8 2, scanPeriod := fieldAt fs 10 2, upPercent := fieldAt fs 12 1, downPercent := fieldAt fs 13 1
    slots := fieldAt fs 14 1, claimLevel := fieldAt fs 15 2, settleWindow := fieldAt fs 17 1
    attemptLimit := fieldAt fs 18 1, rogueLimit := fieldAt fs 19 1, escalationAge := fieldAt fs 20 2
    endsDownLimit := fieldAt fs 22 1, emptyMargin := fieldAt fs 23 1, lineDivisor := fieldAt fs 24 1
    faults := [fieldAt fs 25 1, fieldAt fs 26 1, fieldAt fs 27 1, fieldAt fs 28 1]
    arrivalTime := fieldAt fs 29 2, orderTime := fieldAt fs 31 1, exchangeTime := fieldAt fs 32 2
    bookingGrace := fieldAt fs 34 2, doffTime := fieldAt fs 36 2, horizon := fieldAt fs 38 1 }

/-- The article that STAGE_ARTICLE's 11 bytes spell (12.2). -/
def articleOf (fs : List Byte) : Article :=
  { id := fieldAt fs 0 2, tex := fieldAt fs 2 2, twist := fieldAt fs 4 2, draft := fieldAt fs 6 2
    roving := fieldAt fs 8 2, copMass := fieldAt fs 10 1 }

/-- The command of a kind with its fields; `none` for an unknown kind (R189, 12.2). -/
def commandOf (kind : Nat) (fs : List Byte) : Option Command :=
  match kind with
  | 1 => some .status
  | 2 => some (.configure (configurationOf fs))
  | 3 => some (.stageArticle (articleOf fs))
  | 4 => some .armArticle
  | 5 => some .start
  | 6 => some .warmReset
  | 7 => some .lineRestart
  | 8 => some .clearFault
  | 9 => some (.readSpindle (fieldAt fs 0 2))
  | 10 => some (.readStrip (fieldAt fs 0 1))
  | 11 => some (.readQueue (fieldAt fs 0 1))
  | 12 => some (.readEngagement (fieldAt fs 0 1))
  | 13 => some (.readSection (fieldAt fs 0 1))
  | 14 => some .readBookings
  | 15 => some .readDoff
  | 16 => some .readPeers
  | 17 => some .readShift
  | 18 => some (.readReport (fieldAt fs 0 1))
  | 19 => some .readAlert
  | 20 => some (.ackAlert (fieldAt fs 0 1) (fieldAt fs 1 2))
  | 21 => some .readLine
  | 22 => some .readInputs
  | 23 => some (.setLockout (fieldAt fs 0 2) (fieldAt fs 2 2) (fieldAt fs 4 1))
  | 24 => some .clearLockout
  | 25 => some .pinLockout
  | 26 => some (.clearRogue (fieldAt fs 0 2))
  | 27 => some (.creelConfirm (fieldAt fs 0 1) (fieldAt fs 1 1))
  | 28 => some .doffRequest
  | 29 => some .doffComplete
  | 30 => some .doffAbandon
  | 31 => some (.closeShift (fieldAt fs 0 2))
  | 32 => some .holdSet
  | 33 => some .holdClear
  | 34 => some (.faultAck (fieldAt fs 0 1))
  | _ => none

/-- The kind byte of a record, if it carries one. -/
def recordKind (bs : List Byte) : Option Nat := bs.head?.map BitVec.toNat

/-- The command and host tag of a record: kind 1, length 1, tag 1, then the fields. `none` is an unknown kind, or a length
that is not the length of its kind, or a transaction with fewer or more bytes than its length says (R181, R189). -/
def readRecord (bs : List Byte) : Option (Command × Nat) :=
  match bs with
  | k :: l :: t :: fs =>
    if fs.length = l.toNat ∧ fieldsLength k.toNat = some l.toNat then
      (commandOf k.toNat fs).map (fun c => (c, t.toNat))
    else none
  | _ => none

/-- The fields of CONFIGURE as bytes (12.2). -/
def configurationBytes (c : Configuration) : List Byte :=
  beBytes 1 c.station ++ beBytes 2 c.spindles ++ beBytes 1 c.joined ++ beBytes 4 c.circumference ++ beBytes 2 c.ppr ++
  beBytes 2 c.scanPeriod ++ beBytes 1 c.upPercent ++ beBytes 1 c.downPercent ++ beBytes 1 c.slots ++
  beBytes 2 c.claimLevel ++ beBytes 1 c.settleWindow ++ beBytes 1 c.attemptLimit ++ beBytes 1 c.rogueLimit ++
  beBytes 2 c.escalationAge ++ beBytes 1 c.endsDownLimit ++ beBytes 1 c.emptyMargin ++ beBytes 1 c.lineDivisor ++
  c.faults.flatMap (beBytes 1) ++ beBytes 2 c.arrivalTime ++ beBytes 1 c.orderTime ++ beBytes 2 c.exchangeTime ++
  beBytes 2 c.bookingGrace ++ beBytes 2 c.doffTime ++ beBytes 1 c.horizon

/-- The fields of STAGE_ARTICLE as bytes (12.2). -/
def articleBytes (a : Article) : List Byte :=
  beBytes 2 a.id ++ beBytes 2 a.tex ++ beBytes 2 a.twist ++ beBytes 2 a.draft ++ beBytes 2 a.roving ++ beBytes 1 a.copMass

/-- The fields of a command as bytes (12.2). -/
def fieldBytes (c : Command) : List Byte :=
  match c with
  | .configure c => configurationBytes c
  | .stageArticle a => articleBytes a
  | .readSpindle i | .clearRogue i => beBytes 2 i
  | .readStrip n | .readQueue n | .readEngagement n | .readSection n | .readReport n | .faultAck n => beBytes 1 n
  | .ackAlert code subject => beBytes 1 code ++ beBytes 2 subject
  | .setLockout lower upper invert => beBytes 2 lower ++ beBytes 2 upper ++ beBytes 1 invert
  | .creelConfirm n outcome => beBytes 1 n ++ beBytes 1 outcome
  | .closeShift n => beBytes 2 n
  | .status | .armArticle | .start | .warmReset | .lineRestart | .clearFault | .readBookings | .readDoff | .readPeers
  | .readShift | .readAlert | .readLine | .readInputs | .clearLockout | .pinLockout | .doffRequest | .doffComplete
  | .doffAbandon | .holdSet | .holdClear => []

/-- The record a host clocks after the first byte of a command write: kind, length, tag, fields (12.2). -/
def recordOf (c : Command) (tag : Nat) : List Byte :=
  beBytes 1 (commandKind c) ++ beBytes 1 (fieldBytes c).length ++ beBytes 1 tag ++ fieldBytes c

end Sys2Proof.Machine
end

