-- ==== Sys2Proof/Machine/Hall.lean ====
section
/-! DEFINITION. The hall line: judging a reception, keeping a telegram, handing it to its block, gaining the line, collisions
and transmission, the quiet watch, and the line restart (R161 to R171, R188). -/

namespace Sys2Proof.Machine

/-! ### Judging a reception (R163) -/

/-- How a reception is judged (R163). -/
inductive Judged where
  /-- a framing error: nothing taken -/
  | framing
  /-- complete, and its check does not agree -/
  | badCheck
  /-- complete with a good check -/
  | good
  deriving DecidableEq, Repr

/-- Byte `n` of a reception, 0 where it was not taken. -/
def byteAt (bs : List Byte) (n : Nat) : Nat := (bs.getD n 0).toNat

/-- The bytes a telegram with this header has: header, payload, check (R162). -/
def wholeLength (bs : List Byte) : Nat := 4 + byteAt bs 3 + 2

/-- The check of a complete telegram agrees: the CRC of header and payload stands in the two check bytes (R162). -/
def checkAgrees (bs : List Byte) : Bool :=
  let n := 4 + byteAt bs 3
  ofBytes ((bs.drop n).take 2) == (crc (bs.take n)).toNat

/-- The judgement of the bytes taken from the first start bit after the line was idle (R163). -/
def judgeBytes (bs : List Byte) : Judged :=
  if bs.length < 4 then .framing
  else if Config.maxPayload < byteAt bs 3 then .framing
  else if bs.length < wholeLength bs then .framing
  else if checkAgrees bs then .good
  else .badCheck

/-- Bytes, or a dominant stop bit, after a complete telegram (R163). A list longer than the telegram says the same as
`trailing`. -/
def hasTrailing (bs : List Byte) (badStop trailing : Bool) : Bool := badStop || trailing || wholeLength bs < bs.length

/-! ### Counters -/

def countLine (f : LineCounters → LineCounters) (s : State) : State :=
  { s with line := { s.line with counters := f s.line.counters } }

def LineCounters.framed (c : LineCounters) : LineCounters := { c with framing := addCapped Config.max16 c.framing 1 }
def LineCounters.checked (c : LineCounters) : LineCounters := { c with check := addCapped Config.max16 c.check 1 }
def LineCounters.overran (c : LineCounters) : LineCounters := { c with overrun := addCapped Config.max16 c.overrun 1 }
def LineCounters.unknowned (c : LineCounters) : LineCounters := { c with unknown := addCapped Config.max16 c.unknown 1 }
def LineCounters.took (c : LineCounters) : LineCounters := { c with received := addCapped Config.max16 c.received 1 }
def LineCounters.collided (c : LineCounters) : LineCounters :=
  { c with collisions := addCapped Config.max16 c.collisions 1 }
def LineCounters.sentOne (c : LineCounters) : LineCounters := { c with sent := addCapped Config.max16 c.sent 1 }

/-! ### Keeping a telegram (R167, R168, R188) -/

/-- The kinds the doff sequencer owns, but for STATION_RESTART (R167). -/
def Kind.isDoff : Kind → Bool
  | .doffClaim | .doffState | .doffDone | .doffWithdraw => true
  | _ => false

/-- The kinds passed over on arrival (R167). -/
def Kind.passedOver : Kind → Bool
  | .pieceCall | .robotAccept | .robotDecline | .workOrder | .workCancel | .robotRelease | .rovingDue | .bookingAck => true
  | _ => false

/-- The telegram a complete reception spells, where its byte 0, payload length and source are those of a kind (R188). -/
def telegramOf (bs : List Byte) : Option Telegram :=
  match Kind.ofByte0 (byteAt bs 0) with
  | some k =>
    if k.lengthOk (byteAt bs 3) ∧ 1 ≤ byteAt bs 1 ∧ byteAt bs 1 ≤ 62 then
      some { kind := k, source := byteAt bs 1, dest := byteAt bs 2, payload := (bs.drop 4).take (byteAt bs 3) }
    else none
  | none => none

/-- A valid telegram that bears this station's number (R168): DUPLICATE_STATION, and a doff kind addressed to 0 or this
station dropped and counted by the doff sequencer. R168 speaks of the doff kinds, R133's count of DOFF_CLAIM and DOFF_STATE: the
model counts all four (assumption log 29). R188 makes a telegram of a disallowed length an unknown kind, but R167 takes the own source
number first: the model reads the kind from byte 0 alone, whatever the length (assumption log 38). -/
def duplicateStation (bs : List Byte) (s : State) : State :=
  let s := raiseAlert .duplicateStation .stop (some s.cfg.station) s
  match Kind.ofByte0 (byteAt bs 0) with
  | some k => if k.isDoff ∧ (byteAt bs 2 = 0 ∨ byteAt bs 2 = s.cfg.station) then dropDoff s else s
  | none => s

/-- A valid telegram from another station taken by R167: its four cases, in order. -/
def keep (bs : List Byte) (s : State) : State :=
  if byteAt bs 1 = s.cfg.station then duplicateStation bs s
  else if byteAt bs 2 = 0 ∨ byteAt bs 2 = s.cfg.station then
    match telegramOf bs with
    | none => countLine LineCounters.unknowned s
    | some t =>
      if Config.receiveCapacity ≤ s.line.rx.length then countLine LineCounters.overran s
      else
        let s := countLine LineCounters.took s
        { s with line := { s.line with
          rx := s.line.rx ++ [{ tel := t, byPiecing := false, byCreel := false, byDoff := false }] } }
  else s

/-- A valid telegram from another station heard (R163, R169). -/
def heard (s : State) : State :=
  { s with line := { s.line with lastHeard := some s.now, liveQuiet := false } }

/-! ### The idle count (R161) -/

/-- The ten bit times of a byte: a start bit (dominant), the data bits least significant first, a stop bit (recessive). `true`
is recessive, a logical 1. -/
def byteBits (b : Byte) : List Bool := false :: ((List.range 8).map (fun i => b.getLsbD i) ++ [true])

/-- The bit times of a telegram, its bytes back to back. -/
def wireBits (bs : List Byte) : List Bool := bs.flatMap byteBits

/-- The idle count after samples of the line: 1 more at each recessive one, holding at 255, and 0 at each dominant one. -/
def countIdle (idle : Nat) (samples : List Bool) : Nat :=
  samples.foldl (fun n recessive => if recessive then addCapped Config.max8 n 1 else 0) idle

/-- The idle count at the stop bit of a complete telegram: the recessive samples that end it. -/
def idleAfter (bs : List Byte) : Nat := countIdle 0 (wireBits bs)

/-- The idle count when a reception has ended: 0 at a dominant stop bit, the recessive bits of the last byte at a complete
telegram, and else the eleven that ended it (R161, R163; assumption log 10). -/
def idleOf (bs : List Byte) (badStop trailing : Bool) : Nat :=
  if badStop then 0
  else if judgeBytes bs = .framing ∨ hasTrailing bs false trailing then Config.idleBits
  else idleAfter bs

/-- A complete reception is of the telegram that this station has just sent to the end (R163). TELEGRAM_SENT comes before the
TELEGRAM_RECEIVED of the same telegram (assumption log 24). -/
def Line.isOwn (l : Line) (bs : List Byte) : Bool := l.ownSent == some (bs.take (wholeLength bs))

/-- A reception judged and dealt with (R163). What this station has sent is awaited no longer: the first reception that ends
after it is its own. -/
def received (bs : List Byte) (badStop trailing : Bool) (s : State) : State :=
  let own := s.line.isOwn bs
  let s := { s with line := { s.line with idle := idleOf bs badStop trailing, ownSent := none } }
  match judgeBytes bs with
  | .framing => countLine LineCounters.framed s
  | .badCheck =>
    let s := countLine LineCounters.checked s
    if hasTrailing bs badStop trailing then countLine LineCounters.framed s else s
  | .good =>
    let s := if own then s else keep bs (heard s)
    if hasTrailing bs badStop trailing then countLine LineCounters.framed s else s

/-- TELEGRAM_RECEIVED (R163). -/
def execTelegramReceived (bs : List Byte) (badStop trailing : Bool) (s : State) : Answer :=
  inRunning s (received bs badStop trailing s)

/-! ### Gaining the line (R164) -/

/-- The head of the queue leaves for the transmit register when the idle count has reached its gap (R164). Its start bit is
driven at the next bit time: the idle count stands at what it was when the transmission began, nothing reads it while a telegram
is being sent, and COLLISION and TELEGRAM_SENT count the bits of the transmission on from it (R161). -/
def gainLine (s : State) : State :=
  match s.line.sending, s.line.out with
  | none, o :: rest =>
    if gapOf s.cfg.station o ≤ s.line.idle then
      { s with line := { s.line with sending := some o, out := rest } }
    else s
  | _, _ => s

/-- LINE_GAINED (R161, R164): recessive bit times pass, the idle count rises, holding at 255, and the head may start. -/
def execLineGained (bits : Nat) (s : State) : Answer :=
  inRunning s (gainLine { s with line := { s.line with idle := addCapped Config.max8 s.line.idle bits } })

/-! ### Collisions and the end of transmission (R165) -/

/-- A LINE_RESTART waits for its STATION_RESTART alone (R171). -/
def endOfRestart (o : Outgoing) (said : Nat) (s : State) : State :=
  if o.tel.kind = .stationRestart then completeRestart said s else s

/-- The attempt is lost (R165). -/
def collide (o : Outgoing) (s : State) : State :=
  let o := { o with collisions := o.collisions + 1 }
  let s := countLine LineCounters.collided { s with line := { s.line with sending := none } }
  if o.collisions < Config.maxCollisions then returnToQueue o s
  else endOfRestart o 1 (telegramDropped s)

/-- The idle count when bit `n` of a transmission that drives `bits` is read back as `!driven`: the bits before it were read as
they were driven (R161, R165). -/
def idleAtLoss (idle : Nat) (bits : List Bool) (n : Nat) (driven : Bool) : Nat := countIdle idle (bits.take n ++ [!driven])

/-- COLLISION (R165): bit `n` of the telegram being sent, counted from its first start bit, is read back as the other level than
the one driven; nothing is lost where nothing is being sent, or the telegram has no such bit. -/
def execCollision (n : Nat) (s : State) : Answer :=
  inRunning s <|
    match s.line.sending with
    | some o =>
      let bits := wireBits o.tel.bytes
      match bits[n]? with
      | some driven => collide o { s with line := { s.line with idle := idleAtLoss s.line.idle bits n driven } }
      | none => s
    | none => s

/-- The telegram is sent to the end (R165); the station's own reception of it is still to be judged (R163). -/
def sentWhole (o : Outgoing) (s : State) : State :=
  let s := countLine LineCounters.sentOne { s with line := { s.line with
    sending := none, idle := idleAfter o.tel.bytes, ownSent := some o.tel.bytes } }
  endOfRestart o 0 s

/-- TELEGRAM_SENT (R165). -/
def execTelegramSent (s : State) : Answer :=
  inRunning s <|
    match s.line.sending with
    | some o => sentWhole o s
    | none => s

/-! ### The receive buffer's turn (R167) -/

/-- The buffer without its oldest telegram. -/
def popReceived (s : State) : State := { s with line := { s.line with rx := s.line.rx.drop 1 } }

/-- The oldest telegram of the buffer handed to the block that owns its kind (R167); an event of another kind does not occur
while it stands there. -/
def handOver (k : Kind) (take : Telegram → State → State) (s : State) : State :=
  match s.line.rx with
  | r :: _ => if r.tel.kind = k then take r.tel (popReceived s) else s
  | [] => s

/-- A telegram of a kind that frame stations send leaves the buffer at its turn (R167). -/
def passOver (s : State) : State :=
  match s.line.rx with
  | r :: _ => if r.tel.kind.passedOver then popReceived s else s
  | [] => s

/-- All three owners of a STATION_RESTART have taken it. -/
def Received.done (r : Received) : Bool := r.byPiecing && r.byCreel && r.byDoff

/-- The oldest telegram, a STATION_RESTART that the marks say a block has not yet taken, is taken by that block; when all
three owners have taken it, it leaves the buffer (R167). -/
def takeRestart (taken : Received → Bool) (mark : Received → Received) (take : Nat → State → State) (s : State) :
    State :=
  match s.line.rx with
  | r :: rest =>
    if r.tel.kind = .stationRestart ∧ taken r = false then
      let r' := mark r
      let s := { s with line := { s.line with rx := if r'.done then rest else r' :: rest } }
      take r.tel.source s
    else s
  | [] => s

/-- TELEGRAM_PASSED_OVER (R167). -/
def execTelegramPassedOver (s : State) : Answer := inRunning s (passOver s)

/-- ROBOT_OFFER (R67). -/
def execRobotOffer (s : State) : Answer := inRunning s (handOver .robotOffer takeOffer s)

/-- ROBOT_ARRIVED (R69). -/
def execRobotArrived (s : State) : Answer := inRunning s (handOver .robotArrived takeArrival s)

/-- WORK_RESULT (R74). -/
def execWorkResult (s : State) : Answer := inRunning s (handOver .workResult takeResult s)

/-- ROBOT_WITHDRAW (R81). -/
def execRobotWithdraw (s : State) : Answer := inRunning s (handOver .robotWithdraw takeWithdraw s)

/-- CARRIER_BOOKING (R103, R104). -/
def execCarrierBooking (s : State) : Answer := inRunning s (handOver .carrierBooking takeBooking s)

/-- EXCHANGE_BEGIN (R107). -/
def execExchangeBegin (s : State) : Answer := inRunning s (handOver .exchangeBegin takeExchangeBegin s)

/-- EXCHANGE_END (R108). -/
def execExchangeEnd (s : State) : Answer := inRunning s (handOver .exchangeEnd takeExchangeEnd s)

/-- BOOKING_DONE (R106). -/
def execBookingDone (s : State) : Answer := inRunning s (handOver .bookingDone takeBookingDone s)

/-- DOFF_CLAIM (R133). -/
def execDoffClaim (s : State) : Answer := inRunning s (handOver .doffClaim takeClaim s)

/-- DOFF_STATE (R133). -/
def execDoffState (s : State) : Answer := inRunning s (handOver .doffState takeDoffState s)

/-- DOFF_DONE (R135). -/
def execDoffDone (s : State) : Answer := inRunning s (handOver .doffDone (fun t => peerGone t.source) s)

/-- DOFF_WITHDRAW (R135). -/
def execDoffWithdraw (s : State) : Answer := inRunning s (handOver .doffWithdraw (fun t => peerGone t.source) s)

/-- SHIFT_MARK (R150, R151). -/
def execShiftMark (s : State) : Answer := inRunning s (handOver .shiftMark takeShiftMark s)

/-- SHIFT_TOTALS (R158). -/
def execShiftTotals (s : State) : Answer := inRunning s (handOver .shiftTotals takeShiftTotals s)

/-- STATION_RESTART_PIECING (R81). -/
def execStationRestartPiecing (s : State) : Answer :=
  inRunning s (takeRestart Received.byPiecing (fun r => { r with byPiecing := true }) robotRestarted s)

/-- STATION_RESTART_CREEL (R111). -/
def execStationRestartCreel (s : State) : Answer :=
  inRunning s (takeRestart Received.byCreel (fun r => { r with byCreel := true }) carrierRestarted s)

/-- STATION_RESTART_DOFF (R135). -/
def execStationRestartDoff (s : State) : Answer :=
  inRunning s (takeRestart Received.byDoff (fun r => { r with byDoff := true }) peerGone s)

/-! ### The quiet watch (R169) -/

/-- The device second the quiet watch counts from (R169). -/
def Line.quietFrom (l : Line) : Nat := l.lastHeard.getD l.restartedAt

/-- LINE_QUIET (R169). -/
def execLineQuiet (s : State) : Answer :=
  inRunning s <|
    if s.line.quietFrom + Config.quietSeconds ≤ s.now ∧ s.line.liveQuiet = false then
      raiseAlert .lineQuiet .note none { s with line := { s.line with liveQuiet := true, stickyQuiet := true } }
    else s

/-! ### The line restart (R171) -/

/-- The line controller emptied: queue, transmit register, receive buffer, the reception under way, counters, idle count,
quiet flags, last heard (steps 1 to 3 of R171; R173). -/
def Line.cleared (l : Line) : Line :=
  { l with out := [], sending := none, rx := [], idle := 0, lastHeard := none, counters := LineCounters.zero,
           ownSent := none, liveQuiet := false, stickyQuiet := false }

/-- The creel unit at a line restart in RUNNING (R97). -/
def restartCreel (s : State) : State :=
  if s.creel.dueList.isEmpty then { s with creel := { s.creel with announceFrom := some s.now } } else announceDue s

/-- The line restart: steps 1 to 6 of R171. -/
def lineRestart (s : State) : State :=
  let s := { s with line := { s.line.cleared with restartedAt := s.now } }
  let s := { s with doff := { s.doff with view := [] } }
  let s := enqueue .stationRestart 0 [] s
  restartDoff (restartCreel (restartPiecing s))

/-- LINE_RESTART (R171): stays executing until its STATION_RESTART has been sent or dropped. -/
def doLineRestart (tag : Nat) (s : State) : Effect :=
  whileRunning s <|
    let s := lineRestart s
    { state := { s with port := { s.port with executing := some (.lineRestart tag) } }, result := none,
      alreadyOpen := false, body := [] }

end Sys2Proof.Machine
end

