-- ==== Sys2Proof/Machine/Reads.lean ====
section
/-! DEFINITION. The bodies of the responses to STATUS and the read commands (R18, R40, R41, R60, R84, R98, R99, R114, R130, R143,
R156, R157, R172, R176, R179, R183), laid out by R190. Assumption log 5 names what R190 leaves to the model. -/

namespace Sys2Proof.Machine

/-- The seconds left to a time, if it is present. -/
def State.left (s : State) (t : Option Nat) : Option Nat := t.map (· - s.now)

/-- The seconds since a time, if it is present. -/
def State.since (s : State) (t : Option Nat) : Option Nat := t.map (fun x => s.now - x)

/-! ### STATUS (R18, R183) -/

/-- A rate field, UNKNOWN without a completed bucket (R4). -/
def rateField (v : Option Nat) : List Byte :=
  qualified 4 (match v with
    | some n => .value n
    | none => .unknown)

/-- The delivery counter's state (R18). -/
def deliveryBytes (s : State) : List Byte :=
  field 6 s.del.count ++ field 4 s.del.jog ++ field 4 s.del.seconds ++ field 1 s.del.buckets.length ++
    rateField (ratePulses s.del.buckets) ++
    rateField (if s.port.config.isSome then rateMm s.cfg s.del.buckets else none) ++
    optional 2 (s.del.active.map Article.id) ++ optional 2 (s.del.staged.map Article.id) ++ flag s.del.armed

/-- The body of STATUS (R183). -/
def statusBody (s : State) : List Byte :=
  field 1 s.port.part.code ++ flag s.port.latch.isSome ++ field 1 (faultCauseCode s.port.latch) ++ field 1 s.port.faults ++
    field 2 s.port.discarded ++
    field 2 s.frame.holds.bits ++ flag s.frame.holds.driven ++
    field 1 s.frame.alerts.length ++ field 2 s.frame.overflow ++ flag (s.frame.lineOf .note) ++
    flag (s.frame.lineOf .action) ++ flag (s.frame.lineOf .stop) ++
    deliveryBytes s ++
    group 5 (s.mon.lockout.map (fun l => field 2 l.lower ++ field 2 l.upper ++ flag l.invert)) ++ flag s.mon.pin

/-! ### The spindle monitor's reads (R40, R41) -/

/-- The flags byte of a spindle record: rogue mark, lazy, seen-up, doff-start from bit 0 (R190). -/
def Spindle.flags (r : Spindle) : Nat :=
  (if r.rogueMark then 1 else 0) + (if r.lazy then 2 else 0) + (if r.seenUp then 4 else 0) +
    (if r.doffStart then 8 else 0)

/-- The spindle record, 36 bytes (R190). -/
def spindleBytes (i : Nat) (r : Spindle) : List Byte :=
  field 2 i ++ field 1 r.state.code ++ field 1 (causeCode r.cause) ++ optional 6 r.bookedTo ++ optional 4 r.downSince ++
    field 1 r.attempts ++ field 1 r.shiftBreaks ++ field 2 r.shiftTag ++ field 1 r.flags ++ field 1 r.slowRun ++
    field 1 r.downRun ++ field 1 r.confirmReads ++ field 1 r.lastClass.code ++ optional 4 r.piecedAt ++
    field 6 r.lostSinceBase

/-- The body of READ_SPINDLE (R40). -/
def spindleBody (i : Nat) (s : State) : List Byte := if s.hasSpindle i then spindleBytes i (s.sp i) else ones 36

/-- The body of READ_STRIP (R41). -/
def stripBody (k : Nat) (s : State) : List Byte :=
  if 1 ≤ k ∧ k ≤ s.mon.strips.length then
    let t := s.strip k
    flag t.failed ++ field 1 t.missed ++ optional 4 t.lastAnswered ++ field 4 t.lastExpected ++
      t.lastCounts.flatMap (field 2) ++ (indicesOf k).flatMap (fun i => field 1 (s.sp i).lastClass.code)
  else ones 83

/-! ### The piecing engine's reads (R60, R84) -/

/-- The side a code names, A or B. -/
def sideOfCode (code : Nat) : Option Side :=
  if code = sideCode .a then some .a else if code = sideCode .b then some .b else none

/-- A queue entry as READ_QUEUE carries it: index, age, escalated mark, attempts (R60). -/
def queueEntryBytes (s : State) (e : QueueEntry) : List Byte :=
  field 2 e.index ++ field 4 ((s.sp e.index).age s.now) ++ flag e.escalated ++ field 1 (s.sp e.index).attempts

/-- The body of READ_QUEUE (R60). -/
def queueBody (code : Nat) (s : State) : List Byte :=
  match sideOfCode code, s.port.config with
  | some x, some _ =>
    let p := s.side x
    field 1 code ++ counted (queueEntryBytes s) p.queue ++ field 2 p.waiting.length ++
      optional 4 (p.waiting.head?.map (fun i => (s.sp i).age s.now)) ++ counted (field 2) (p.waiting.take 16)
  | _, _ => ones 1 ++ field 1 0 ++ field 2 0 ++ optional 4 none ++ field 1 0

/-- The mode, split or joined, absent before CONFIGURE (R84). -/
def State.modeCode (s : State) : Nat :=
  match s.port.config with
  | some c => if c.joined = 1 then 1 else 0
  | none => 255

/-- The body of READ_ENGAGEMENT (R84). -/
def engagementBody (code : Nat) (s : State) : List Byte :=
  match sideOfCode code with
  | some x =>
    let e := s.eng x
    field 1 e.state.code ++ optional 1 e.robot ++
      group 4 (e.order.map (fun o => field 2 o.index ++ field 1 o.attempt ++ field 1 o.tag)) ++
      optional 2 e.position ++ flag (!e.ascending) ++ optional 2 (s.left e.timer) ++ field 1 e.timeouts ++
      field 2 e.sinceCall ++
      group 3 ((s.side x).bar.map (fun b => field 1 b.robot ++ field 2 (b.ends - s.now))) ++
      field 1 s.pie.nextTag ++ field 2 s.pie.late ++ field 2 s.pie.stray ++ field 1 s.modeCode
  | none => ones 28

/-! ### The creel unit's reads (R98, R99, R114) -/

/-- Minutes that may be HELD or absent. -/
def minutesField (m : Option Minutes) : List Byte :=
  qualified 2 (match m with
    | some (.value n) => .value n
    | some .held => .held
    | none => .absent)

/-- The minutes-to-empty of a position as READ_SECTION carries them: absent in a section that is not NORMAL (R98). -/
def State.readMinutes (s : State) (k i : Nat) : Option Minutes :=
  match (s.sec k).state, (s.sec k).base with
  | .normal, some b => some (s.minutesAt b i)
  | _, _ => none

/-- A section's place in the due list, 1..16 (R98). -/
def State.duePlace (s : State) (k : Nat) : Option Nat :=
  (s.creel.dueList.findIdx? (fun e => e.number == k)).map (· + 1)

/-- The body of READ_SECTION for a section 1..N/24 (R98). -/
def sectionBytes (k : Nat) (s : State) : List Byte :=
  let x := s.sec k
  field 1 x.state.code ++ optional 6 (x.base.map Base.mark) ++ optional 2 (x.base.map Base.loaded) ++
    (indicesOf k).flatMap (fun i => optional 4 (s.remaining i)) ++
    (indicesOf k).flatMap (fun i => minutesField (s.readMinutes k i)) ++
    minutesField (s.sectionMinutes k) ++ optional 2 x.minutes ++ flag x.due ++ optional 1 (s.duePlace k) ++
    field 1 (s.emptyCount k) ++ optional 1 x.booking ++ optional 2 (s.left x.timer)

/-- The body of READ_SECTION for section 0: the due list (R99). -/
def dueBody (s : State) : List Byte :=
  counted (fun e => field 1 e.number ++ field 2 e.minutes) s.creel.dueList ++
    field 1 (s.creel.sections.countP (·.due)) ++ optional 4 (s.since s.creel.dueSentAt)

/-- The body of READ_SECTION (R98, R99). -/
def sectionBody (k : Nat) (s : State) : List Byte :=
  if k = 0 then dueBody s else if s.hasSection k then sectionBytes k s else ones 218

/-- A booking slot as READ_BOOKINGS carries it (R114). -/
def slotBytes (s : State) (b : Option Booking) : List Byte :=
  group 4 (b.map (fun b => field 1 b.carrier ++ field 1 b.eta ++ field 2 (b.lapse - s.now))) ++
    counted (field 1) (b.elim [] Booking.sections)

/-- The exchange register: the sections that hold an entry, ascending (chapter 6). -/
def State.register (s : State) : List Nat :=
  s.numbers.filter (fun k => (s.sec k).state == .exchanging && (s.sec k).carrier.isSome)

/-- The body of READ_BOOKINGS (R114). -/
def bookingsBody (s : State) : List Byte :=
  slotBytes s s.creel.slot1 ++ slotBytes s s.creel.slot2 ++
    counted (fun k => field 1 k ++ field 1 ((s.sec k).carrier.getD 0) ++
      field 2 ((s.left (s.sec k).timer).getD 0)) s.register ++
    field 2 s.creel.stray

/-! ### The doff sequencer's reads (R130, R143) -/

/-- This station is in CLAIMED, FULL_WAIT or GRANTED, where its claim ranks (R143). -/
def DoffState.ranks : DoffState → Bool
  | .claimed | .fullWait | .granted => true
  | .spinning | .rundown | .doffing | .restart | .settling | .unknown => false

/-- The fill as READ_DOFF carries it: absent without an active article or a configuration (R10, R130). -/
def State.readFill (s : State) : Option Nat :=
  match s.del.active, s.port.config with
  | some _, some _ => some s.fill
  | _, _ => none

/-- The body of READ_DOFF (R130, R143). -/
def doffBody (s : State) : List Byte :=
  let d := s.doff
  field 1 d.state.code ++ field 1 d.urgency.code ++ flag d.manual ++ field 6 d.copMark ++
    optional 6 (s.del.active.map (fun _ => s.count - d.copMark)) ++ optional 4 (s.del.active.map copLength) ++
    optional 2 s.readFill ++
    optional 2 (d.firstClaim.map (fun _ => s.ownWait)) ++ optional 1 (s.left d.listenEnd) ++
    optional 1 (s.left d.confirmEnd) ++ optional 1 (s.left d.nextAnn) ++ optional 2 (s.left d.doffTimer) ++
    field 1 d.settleSeconds ++ optional 4 (s.since d.settleStart) ++
    field 1 d.view.length ++ flag d.full ++ field 1 s.slotHolders ++
    optional 1 (if d.state.ranks then some s.claimantsAhead else none)

/-- A peer as READ_PEERS carries it; whether it ranks ahead is reported as R138 counts it (R143). -/
def peerBytes (s : State) (p : Peer) : List Byte :=
  field 1 p.station ++ field 1 p.phase.code ++ field 1 p.urgency.code ++ field 2 p.wait ++
    field 2 (p.presentWait s.now) ++ field 1 (s.now - p.heard) ++
    (if s.doff.state.ranks then flag (s.countsAhead p) else ones 1)

/-- The body of READ_PEERS (R143). -/
def peersBody (s : State) : List Byte :=
  optional 1 (s.port.config.map Configuration.slots) ++ flag s.doff.full ++ counted (peerBytes s) s.doff.view ++
    field 2 s.doff.dropped ++ field 2 s.doff.backOffs ++ optional 2 s.doff.grantedWait

/-! ### The shift counter's reads (R156, R157, R190) -/

/-- A segment, 93 bytes (R190). -/
def segmentBytes (g : Segment) : List Byte :=
  group 4 (g.article.map (fun a => field 2 a.1 ++ field 2 a.2)) ++ field 6 g.startCount ++ optional 6 g.runStart ++
    field 6 g.runPulses ++ field 8 g.brk ++ field 8 g.roving ++ field 8 g.lockout ++ field 8 g.rogue ++
    field 8 g.openLosses ++ field 8 g.up ++ field 8 g.length ++ field 4 g.mass ++ field 2 g.breaks ++
    field 2 g.doffStarts ++ field 2 g.byRobot ++ field 2 g.byHand ++ flag g.mixed

/-- A shift report: a head of 52 bytes and its segments (R190). -/
def reportBytes (r : Report) : List Byte :=
  let sh := r.shift
  field 1 0 ++ field 2 sh.number ++ field 4 sh.openedSeconds ++ field 6 sh.openedCount ++
    group 10 (sh.closedAt.map (fun c => field 4 c.1 ++ field 6 c.2)) ++ field 4 sh.runSeconds ++ field 4 sh.stopSeconds ++
    field 1 sh.flags.byte ++ field 8 sh.unobserved ++ field 1 sh.doffs ++
    group 4 (sh.counts.map (fun c => field 2 c.1 ++ field 2 c.2)) ++ field 2 r.efficiency ++ field 2 r.breakRate ++
    counted segmentBytes sh.segments

/-- The body of READ_REPORT (R156). R156 and R190 make an ABSENT report all ones and give it no number of segments: the model
sends its head alone, 52 bytes of ones (assumption log 5). -/
def reportBody (place : Nat) (s : State) : List Byte :=
  match s.shift.ring[place]? with
  | some r => reportBytes r
  | none => ones 52

/-- The open run reckoned as if it closed now, without closing it (R18, R157). -/
def Segment.reckoned (c : Configuration) (p : Nat) (g : Segment) : Segment :=
  { g.closeRun c p with runStart := g.runStart, openLosses := g.openLosses }

/-- The open shift as READ_SHIFT reports it, with its efficiency and break rate. Before CONFIGURE nothing is reckoned: its
fields are sent as they stand, with efficiency and break rate 0 and NO_DELIVERY (R157). -/
def State.openReport (s : State) : Report :=
  let sh := s.shift.opened
  match s.port.config with
  | none => { shift := { sh with flags := { sh.flags with noDelivery := true } }, efficiency := 0, breakRate := 0 }
  | some c =>
    let live : Shift := { sh with segments := modifyLast (Segment.reckoned c s.count) sh.segments }
    let flags := if live.noDelivery c then { live.flags with noDelivery := true } else live.flags
    { shift := { live with flags := flags }, efficiency := live.efficiency c, breakRate := live.breakRate c }

/-- The body of READ_SHIFT (R157, R190). -/
def shiftBody (s : State) : List Byte :=
  reportBytes s.openReport ++
    group 11 (s.shift.closing.map (fun cl =>
      field 2 cl.shift.number ++ field 6 cl.shift.closeCount ++ field 2 cl.sweep ++ flag cl.waiting)) ++
    field 2 s.shift.refused ++
    group 8 (s.shift.totals.map (fun t =>
      field 1 t.source ++ field 2 t.number ++ field 4 t.seconds ++ flag (t.number == s.shift.opened.number)))

/-! ### The frame interface's and line controller's reads (R172, R176, R179) -/

/-- The body of READ_ALERT (R179). -/
def alertBody (s : State) : List Byte :=
  (match s.frame.alerts with
   | a :: _ => field 1 0 ++ field 1 a.code.code ++ field 1 a.cls.code ++ field 2 (subjectCode a.subject) ++
       field 4 a.raised ++ field 1 a.repeats
   | [] => ones 10) ++ field 1 s.frame.alerts.length ++ field 2 s.frame.overflow

/-- A queued telegram as READ_LINE carries it (R172). -/
def outgoingBytes (o : Outgoing) : List Byte :=
  field 1 o.tel.kind.code ++ field 1 o.tel.dest ++ field 1 o.tel.kind.cls ++ field 1 o.collisions

/-- The body of READ_LINE (R172). -/
def lineBody (s : State) : List Byte :=
  let l := s.line
  let c := l.counters
  optional 1 (s.port.config.map Configuration.station) ++ optional 1 (s.port.config.map Configuration.lineDivisor) ++
    flag l.liveQuiet ++ flag l.stickyQuiet ++ optional 4 (s.since l.lastHeard) ++
    field 2 c.sent ++ field 2 c.received ++ field 2 c.framing ++ field 2 c.check ++ field 2 c.overrun ++
    field 2 c.unknown ++ field 2 c.collisions ++ field 2 c.dropped ++
    counted outgoingBytes l.out ++
    group 3 (l.sending.map (fun o => field 1 o.tel.kind.code ++ field 1 o.tel.dest ++ field 1 o.collisions)) ++
    field 1 l.rx.length

/-- One fault input as READ_INPUTS carries it: polarity, mode, class, at active level, each absent before CONFIGURE; latch
(R176). -/
def inputBytes (s : State) (n : Nat) : List Byte :=
  (match s.faultSetup n with
   | some f => flag f.activeLow ++ flag f.manual ++ field 1 f.cls.code ++ flag (f.isActive (s.faultLevel n))
   | none => ones 4) ++ flag (s.faultLatch n)

/-- The body of READ_INPUTS (R176). -/
def inputsBody (s : State) : List Byte :=
  flag s.frame.run ++ flag s.frame.maint ++ inputBytes s 0 ++ inputBytes s 1 ++ inputBytes s 2 ++ inputBytes s 3

/-- READ_LINE clears sticky QUIET after its response has been formed (R172). -/
def doReadLine (s : State) : Effect :=
  { Effect.report (lineBody s) s with state := { s with line := { s.line with stickyQuiet := false } } }

end Sys2Proof.Machine
end

