-- ==== Sys2Proof/Machine/Resets.lean ====
section
/-! DEFINITION. The resets and the changes of part state: power-on, RESET_N, CONFIGURE, START and the warm reset, with what each
does to every block (R174, R184 to R187, and each chapter's values after reset). -/

namespace Sys2Proof.Machine

/-! ### Power-on (R174, R187) -/

/-- The part at its power-on values, the levels on the frame's wires and the commands that wait kept (assumption log 3). -/
def powerOn (resetLow : Bool) (s : State) : State :=
  { State.reset with
    frame := { Frame.powerOn with
      run := s.frame.run, maint := s.frame.maint, levels := s.frame.levels, resetLow := resetLow }
    draws := s.draws
    pending := s.pending }

/-- POWER_ON (R174): supply rise, or RESET_N rising. -/
def execPowerOn (s : State) : Answer := .next (powerOn false s)

/-- RESET_N_LOW (R174): the part is held at power-on. -/
def execResetNLow (s : State) : Answer := .next (powerOn true s)

/-! ### CONFIGURE (R184, R42, R61, R100) -/

/-- A value in a range, both ends included. -/
def within (lo hi v : Nat) : Bool := lo ≤ v && v ≤ hi

/-- A fault setup byte in range: class NOTE, ACTION or STOP; a byte with a bit of 4 to 7 set is a free value (R184, R189;
assumption log 2). -/
def setupInRange (b : Nat) : Bool := b / 4 % 4 != 3 && (b < 16 || Config.oddSetupByte b)

/-- Every field of CONFIGURE in its range (R184). -/
def configurationInRange (c : Configuration) : Bool :=
  within 1 62 c.station && (within 96 2016 c.spindles && c.spindles % 48 == 0) && c.joined ≤ 1 &&
  within 60000 150000 c.circumference && within 50 2000 c.ppr && within 500 4000 c.scanPeriod &&
  within 50 95 c.upPercent && (within 5 45 c.downPercent && c.downPercent < c.upPercent) && within 1 6 c.slots &&
  within 900 995 c.claimLevel && within 10 120 c.settleWindow && within 1 5 c.attemptLimit && within 4 60 c.rogueLimit &&
  within 30 900 c.escalationAge && within 1 200 c.endsDownLimit && c.emptyMargin ≤ 50 && c.lineDivisor ≤ 255 &&
  c.faults.all setupInRange && within 60 600 c.arrivalTime && within 10 120 c.orderTime &&
  within 300 3600 c.exchangeTime && within 120 1800 c.bookingGrace && within 120 1800 c.doffTime &&
  within 10 240 c.horizon

/-- A spindle record as CONFIGURE creates it (R42). -/
def Spindle.created (p : Nat) : Spindle := { Spindle.blank with bookedTo := some p }

/-- A strip record as CONFIGURE creates it (R42). -/
def Strip.created (p : Nat) : Strip :=
  { failed := false, missed := 0, reference := p, lastAnswered := none, lastExpected := 0,
    lastCounts := List.replicate Config.perStrip 0 }

/-- A section record as CONFIGURE creates it (R100). -/
def Section.created : Section := Section.blank

/-- The tables an accepted CONFIGURE creates (R42, R61, R100). -/
def createTables (c : Configuration) (s : State) : State :=
  { s with
    mon := { s.mon with
      spindles := List.replicate c.spindles (Spindle.created s.count)
      strips := List.replicate (c.spindles / Config.perStrip) (Strip.created s.count) }
    pie := { s.pie with
      a := { s.pie.a with queue := [], waiting := [] }
      b := { s.pie.b with queue := [], waiting := [] } }
    creel := { s.creel with sections := List.replicate (c.spindles / Config.perStrip) Section.created } }

/-- An accepted CONFIGURE (R184). -/
def configured (c : Configuration) (s : State) : State :=
  let s := resampleFaults (createTables c { s with port := { s.port with config := some c } })
  { s with port := { s.port with part := .ready } }

/-- CONFIGURE (R184). -/
def doConfigure (c : Configuration) (s : State) : Effect :=
  match s.port.part with
  | .init => if configurationInRange c then Effect.done (configured c s) else Effect.refuse .outOfRange s
  | .ready | .running => Effect.refuse .alreadyConfigured s

/-! ### START (R185) -/

/-- A strip at START (R43). -/
def Strip.started (p : Nat) (t : Strip) : Strip := { t with reference := p, missed := 0, failed := false }

/-- The delivery counter, the strip rotation and the creel unit's counts at START (step 3 of R185: R3, R43, R101). -/
def startBlocks (s : State) : State :=
  recomputeAll { s with
    del := { s.del with buckets := [], openBucket := some 0, nextBucketAt := some (s.now + Config.bucketSeconds) }
    mon := { s.mon with
      strips := s.mon.strips.map (Strip.started s.count), rotation := some { pass := 0, strip := 1 } }
    creel := { s.creel with
      announceFrom := some s.now, nextRecompute := some (s.now + Config.recomputeSeconds) } }

/-- A close interrupted by a warm reset resumes with the sweep at record 1 (R160). -/
def resumeSweep (s : State) : State :=
  { s with shift := { s.shift with closing := s.shift.closing.map (fun cl => { cl with sweep := 1 }) } }

/-- An accepted START: steps 1 to 4 of R185. -/
def started (s : State) : State :=
  let s := removeHold .notStarted { s with port := { s.port with part := .running } }
  resumeSweep (startBlocks (lineRestart s))

/-- START (R185). -/
def doStart (s : State) : Effect :=
  match s.port.part with
  | .init => Effect.refuse .notRunning s
  | .running => Effect.refuse .busy s
  | .ready => if s.del.active.isSome then Effect.done (started s) else Effect.refuse .noArticle s

/-! ### The warm reset (R186) -/

/-- The delivery counter (R20). -/
def Delivery.warm (d : Delivery) : Delivery := { d with buckets := [], openBucket := none, nextBucketAt := none }

/-- A spindle record (R44, R63). Booked-to becomes the present count without booking and lost-since-base is kept, as R44 gives,
so by R7 the open pulses of a down record count as used roving after the reset, although R102 says that every remaining roving is
the same after it: the model follows R44 (assumption log 30). -/
def Spindle.warm (now p : Nat) (r : Spindle) : Spindle :=
  let r1 : Spindle := { r with
    bookedTo := some p, slowRun := 0, downRun := 0, confirmReads := 0, seenUp := false, doffStart := false
    piecedAt := none, lastClass := .none }
  if r.state = .locked then r1
  else if r.rogueMark then
    { r1 with state := .rogue, cause := some .rogue, downSince := if r.state = .rogue then r.downSince else some now }
  else { r1 with state := .unseen, cause := none, downSince := none }

/-- A strip record (R44). -/
def Strip.warm (t : Strip) : Strip := { t with failed := false, missed := 0 }

/-- The spindle monitor (R44). -/
def Monitor.warm (now p : Nat) (m : Monitor) : Monitor :=
  { m with spindles := m.spindles.map (Spindle.warm now p), strips := m.strips.map Strip.warm, rotation := none,
           aboveLimit := false }

/-- The piecing engine: the next order tag is kept (R63, R85). -/
def Piecing.warm (p : Piecing) : Piecing :=
  { p with a := SidePiecing.reset, b := SidePiecing.reset, late := 0, stray := 0 }

/-- A section record (R102, R115). -/
def Section.warm (x : Section) : Section :=
  { x with
    state := if x.state = .exchanging then .unknown else x.state
    minutes := none, due := false, booking := none, timer := none, carrier := none }

/-- The creel unit: bases and the second of the last ROVING_DUE kept (R102, R115; assumption log 7). -/
def Creel.warm (c : Creel) : Creel :=
  { c with
    sections := c.sections.map Section.warm, dueList := [], firstSix := [], announceFrom := none, nextRecompute := none
    slot1 := none, slot2 := none, stray := 0 }

/-- The sections that are EXCHANGING, ascending. -/
def State.exchangingSections (s : State) : List Nat := s.numbers.filter (fun k => (s.sec k).state == .exchanging)

/-- The creel unit at a warm reset, with EXCHANGE_UNKNOWN for each section that was EXCHANGING (R115). -/
def warmCreel (s : State) : State :=
  let was := s.exchangingSections
  each was (fun k => raiseAlert .exchangeUnknown .action (some k)) { s with creel := s.creel.warm }

/-- The doff state after a warm reset (R132). -/
def DoffState.warm : DoffState → DoffState
  | .spinning | .claimed | .fullWait => .spinning
  | .granted | .rundown | .doffing | .restart | .settling | .unknown => .unknown

/-- The doff states that a warm reset finds as a doff under way (R132). -/
def DoffState.underWay : DoffState → Bool
  | .granted | .rundown | .doffing | .restart | .settling => true
  | .spinning | .claimed | .fullWait | .unknown => false

/-- The doff record and the peer doff view: the cop mark is kept (R132, R144). -/
def Doff.warm (d : Doff) : Doff := { Doff.powerOn with state := d.state.warm, copMark := d.copMark }

/-- The doff sequencer at a warm reset (R132). -/
def warmDoff (s : State) : State :=
  let was := s.doff.state
  let s := removeHold .copFull { s with doff := s.doff.warm }
  if was.underWay then raiseAlert .doffUnknown .action none (addHold .doff s) else s

/-- A shift record's WARM_RESET flag set (R160). -/
def Shift.warm (sh : Shift) : Shift := { sh with flags := { sh.flags with warmReset := true } }

/-- The shift counter (R160). -/
def ShiftCounter.warm (c : ShiftCounter) : ShiftCounter :=
  { c with
    opened := c.opened.warm
    closing := c.closing.map (fun cl => { cl with shift := cl.shift.warm, waiting := false }) }

/-- The number of the closing shift; of the open one where no close is in progress. -/
def State.closingNumber (s : State) : Nat := (s.shift.closing.map (fun cl => cl.shift.number)).getD s.shift.opened.number

/-- A command executing at a warm reset completes (step 1 of R186; R160, R171). -/
def completeExecuting (s : State) : State :=
  match s.port.executing with
  | some (.closeShift _) => completeClose s.closingNumber s
  | some (.lineRestart _) => completeRestart 2 s
  | none => s

/-- A command waiting in the slot is discarded and counted (step 3 of R186). -/
def discardSlot (s : State) : State :=
  match s.port.slot with
  | some _ => { s with port := { s.port with
      slot := none, discarded := addCapped Config.max16 s.port.discarded 1 } }
  | none => s

/-- Every block at its warm-reset values (step 2 of R186). -/
def warmBlocks (s : State) : State :=
  let s := { s with
    del := s.del.warm, mon := s.mon.warm s.now s.count, pie := s.pie.warm, shift := s.shift.warm, line := s.line.cleared }
  resampleFaults (addHold .notStarted (removeHold .hostHold (warmDoff (warmCreel s))))

/-- Steps 1 to 3 of R186. -/
def warmReset (s : State) : State :=
  let s := discardSlot (warmBlocks (completeExecuting s))
  { s with port := { s.port with part := .ready } }

/-- WARM_RESET (R186): in INIT it changes nothing. -/
def doWarmReset (s : State) : Effect :=
  match s.port.part with
  | .init => Effect.done s
  | .ready | .running => Effect.done (warmReset s)

end Sys2Proof.Machine
end

