-- ==== Sys2Proof/Machine/Port.lean ====
section
/-! DEFINITION. The frame inputs and the command port: fault inputs and RUN (R174 to R176), holds and alerts (R177, R179), the
command slot, dispatch and the response read (R180 to R183, R189), and one meaning for every host command. -/

namespace Sys2Proof.Machine

/-! ### The frame inputs (R174, R175) -/

/-- The engagements in WORKING decide as RUN becomes active, A before B (R71, R174; assumption log 27). -/
def runActive (s : State) : State :=
  s.engagements.foldl (fun s x => if (s.eng x).state = .working then decideNext x s else s) s

/-- A taken level of RUN (R174). -/
def takeRun (active : Bool) (s : State) : State :=
  if s.frame.run = active then s
  else
    let s := { s with frame := { s.frame with run := active } }
    if s.running then (if active then runActive s else stopTest s) else s

/-- RUN_CHANGE (R174): the level is taken in every part state, and its reports act in RUNNING, where alone an engagement works
and a frame is in RUNDOWN; while RESET_N is low only the level is kept. -/
def execRunChange (active : Bool) (s : State) : Answer :=
  .next (if s.frame.resetLow then { s with frame := { s.frame with run := active } } else takeRun active s)

/-- A level of fault input `n` kept. -/
def setLevel (n : Nat) (high : Bool) (s : State) : State :=
  { s with frame := { s.frame with levels := s.frame.levels.set n high } }

/-- A taken level of fault input `n` (R175). -/
def takeFault (n : Nat) (high : Bool) (s : State) : State :=
  if s.faultLevel n = high then s
  else
    let s := setLevel n high s
    match s.faultSetup n with
    | none => s
    | some f =>
      if f.isActive high then activeEdge n f s
      else if f.manual then s
      else clearLatch n f s

/-- FAULT_INPUT (R174, R175): in every part state; while RESET_N is low only the level is kept. -/
def execFaultInput (n : Nat) (high : Bool) (s : State) : Answer :=
  .next (if s.frame.resetLow then setLevel n high s else takeFault n high s)

/-! ### Holds, alerts and fault acknowledgement (R176, R177, R179) -/

/-- HOLD_SET (R177). -/
def doHoldSet (s : State) : Effect := whileRunning s (Effect.done (addHold .hostHold s))

/-- HOLD_CLEAR (R177). -/
def doHoldClear (s : State) : Effect := whileRunning s (Effect.done (removeHold .hostHold s))

/-- ACK_ALERT (R179). -/
def doAckAlert (code subject : Nat) (s : State) : Effect :=
  whileRunning s <|
    match s.frame.alerts with
    | a :: rest =>
      if a.code.code = code ∧ subjectCode a.subject = subject then
        Effect.done { s with frame := { s.frame with alerts := rest }.followStop }
      else Effect.refuse .noSuch s
    | [] => Effect.refuse .noSuch s

/-- FAULT_ACK (R176). -/
def doFaultAck (n : Nat) (s : State) : Effect :=
  whileRunning s <|
    if 4 ≤ n then Effect.refuse .noSuch s
    else match s.faultSetup n with
      | some f =>
        if f.isActive (s.faultLevel n) then Effect.refuse .stillActive s else Effect.done (clearLatch n f s)
      | none => Effect.done s

/-- CLEAR_FAULT (R181). -/
def doClearFault (s : State) : Effect := Effect.done { s with port := { s.port with latch := none, faults := 0 } }

/-! ### Execution (R181, R183) -/

/-- What executing a command does (R183's table). -/
def perform (c : Command) (tag : Nat) (s : State) : Effect :=
  match c with
  | .status => Effect.report (statusBody s) s
  | .configure c => doConfigure c s
  | .stageArticle a => doStageArticle a s
  | .armArticle => doArmArticle s
  | .start => doStart s
  | .warmReset => doWarmReset s
  | .lineRestart => doLineRestart tag s
  | .clearFault => doClearFault s
  | .readSpindle i => Effect.report (spindleBody i s) s
  | .readStrip k => Effect.report (stripBody k s) s
  | .readQueue side => Effect.report (queueBody side s) s
  | .readEngagement side => Effect.report (engagementBody side s) s
  | .readSection k => Effect.report (sectionBody k s) s
  | .readBookings => Effect.report (bookingsBody s) s
  | .readDoff => Effect.report (doffBody s) s
  | .readPeers => Effect.report (peersBody s) s
  | .readShift => Effect.report (shiftBody s) s
  | .readReport place => Effect.report (reportBody place s) s
  | .readAlert => Effect.report (alertBody s) s
  | .ackAlert code subject => doAckAlert code subject s
  | .readLine => doReadLine s
  | .readInputs => Effect.report (inputsBody s) s
  | .setLockout lower upper invert => doSetLockout lower upper invert s
  | .clearLockout => doClearLockout s
  | .pinLockout => doPinLockout s
  | .clearRogue i => doClearRogue i s
  | .creelConfirm k outcome => doCreelConfirm k outcome s
  | .doffRequest => doDoffRequest s
  | .doffComplete => doDoffComplete s
  | .doffAbandon => doDoffAbandon s
  | .closeShift number => doCloseShift tag number s
  | .holdSet => doHoldSet s
  | .holdClear => doHoldClear s
  | .faultAck n => doFaultAck n s

/-- A command completes with its response, or stays executing (R181, R182). -/
def finish (kind tag : Nat) (e : Effect) : State :=
  match e.result with
  | some r => respond kind tag r e.alreadyOpen e.body e.state
  | none => e.state

/-- A command executes (R181). -/
def runCommand (c : Command) (tag : Nat) (s : State) : State := finish (commandKind c) tag (perform c tag s)

/-- The commands that execute while the command-fault latch is set (R181). -/
def passesLatch : Command → Bool
  | .status | .clearFault => true
  | _ => false

/-- A command leaves the slot: it executes, or is discarded and counted while the latch is set (R181). -/
def leaveSlot (c : Command) (tag : Nat) (s : State) : State :=
  if s.port.latch.isSome && !passesLatch c then
    { s with port := { s.port with discarded := addCapped Config.max16 s.port.discarded 1 } }
  else runCommand c tag s

/-- The event of a host command's row: the command leaves the slot, which it does only while no other command is executing
(R181; assumption log 4). -/
def hostRow (c : Command) (tag : Nat) (s : State) : Answer :=
  powered s (if s.port.executing.isSome then s else leaveSlot c tag s)

/-! ### The slot (R180, R181, R189) -/

/-- The command-fault latch takes a fault: the first cause is kept, a later fault is counted (R181). -/
def latchFault (c : FaultCause) (s : State) : State :=
  match s.port.latch with
  | none => { s with port := { s.port with latch := some c } }
  | some _ => { s with port := { s.port with faults := addCapped Config.max8 s.port.faults 1 } }

/-- A command record taken at the end of its transaction: the four cases of R181. -/
def takeRecord (bs : List Byte) (s : State) : State :=
  if s.port.slot.isSome && recordKind bs != some 6 then latchFault .slotOverrun s
  else
    match readRecord bs with
    | none => latchFault .badCommand s
    | some (.warmReset, tag) => runCommand .warmReset tag s
    | some (c, tag) => { s with port := { s.port with slot := some (c, tag) } }

/-! ### Transactions (R180, R189) -/

/-- The kinds of transaction (R189). -/
inductive Transaction where
  | commandWrite | responseRead | statusRead
  deriving DecidableEq, Repr

/-- What the first byte that the host clocks selects (R189). -/
def transactionOf (first : Byte) : Transaction :=
  if first = 1#8 then .commandWrite else if first = 2#8 then .responseRead else .statusRead

/-- A command write that carries a record: the part returns the status byte and then 0, and takes the record at the end of the
transaction (R181, R189). -/
def writeRecord (record : List Byte) (s : State) : State :=
  takeRecord record { s with port := { s.port with returned := statusByte s :: List.replicate record.length 0 } }

/-- A status read in which the host clocks `n` bytes after the first: the status byte is returned and nothing is taken. The
bytes returned after it are free values (R189; assumption log 2). -/
def readStatus (n : Nat) (s : State) : State :=
  { s with
    port := { s.port with
      returned := statusByte s :: (List.range n).map (fun k => Config.statusReadByte (s.draws + k)) }
    draws := s.draws + n }

/-- COMMAND_WRITE (R181, R189): the first byte selects; a transaction of RESPONSE_READ's row is not this event (assumption
log 9). -/
def execCommandWrite (bytes : List Byte) (s : State) : Answer :=
  powered s <|
    match bytes with
    | [] => s
    | first :: rest =>
      match transactionOf first with
      | .commandWrite => writeRecord rest s
      | .statusRead => readStatus rest.length s
      | .responseRead => s

/-- The command in the slot leaves it when no command is executing (R181). -/
def dispatch (s : State) : State :=
  match s.port.executing, s.port.slot with
  | none, some (c, tag) => leaveSlot c tag { s with port := { s.port with slot := none } }
  | _, _ => s

/-- COMMAND_DISPATCH (R181). -/
def execCommandDispatch (s : State) : Answer := powered s (dispatch s)

/-- A response read in which the host clocks `n` bytes after the first: the status byte, the response record and then 255;
the response is marked read with its first byte (R182, R189). -/
def readResponse (n : Nat) (s : State) : State :=
  { s with port := { s.port with
    returned := statusByte s :: (responseBytes s.port.response ++ List.replicate n (BitVec.ofNat 8 255)).take n
    unread := s.port.unread && n == 0 } }

/-- RESPONSE_READ (R182, R189): the first byte selects; a transaction of COMMAND_WRITE's row is not this event (assumption
log 9). -/
def execResponseRead (bytes : List Byte) (s : State) : Answer :=
  powered s <|
    match bytes with
    | [] => s
    | first :: rest =>
      match transactionOf first with
      | .responseRead => readResponse rest.length s
      | .statusRead => readStatus rest.length s
      | .commandWrite => s

/-! ### The rows of the host commands -/

/-- STATUS (R183). -/
def execStatus (tag : Nat) (s : State) : Answer := hostRow .status tag s
/-- CONFIGURE (R184). -/
def execConfigure (tag : Nat) (c : Configuration) (s : State) : Answer := hostRow (.configure c) tag s
/-- STAGE_ARTICLE (R14). -/
def execStageArticle (tag : Nat) (a : Article) (s : State) : Answer := hostRow (.stageArticle a) tag s
/-- ARM_ARTICLE (R15, R16). -/
def execArmArticle (tag : Nat) (s : State) : Answer := hostRow .armArticle tag s
/-- START (R185). -/
def execStart (tag : Nat) (s : State) : Answer := hostRow .start tag s
/-- WARM_RESET (R181, R186): executes at once, whatever is executing and whether or not the latch is set. -/
def execWarmReset (tag : Nat) (s : State) : Answer := powered s (runCommand .warmReset tag s)
/-- LINE_RESTART (R171). -/
def execLineRestart (tag : Nat) (s : State) : Answer := hostRow .lineRestart tag s
/-- CLEAR_FAULT (R181). -/
def execClearFault (tag : Nat) (s : State) : Answer := hostRow .clearFault tag s
/-- READ_SPINDLE (R40). -/
def execReadSpindle (tag i : Nat) (s : State) : Answer := hostRow (.readSpindle i) tag s
/-- READ_STRIP (R41). -/
def execReadStrip (tag k : Nat) (s : State) : Answer := hostRow (.readStrip k) tag s
/-- READ_QUEUE (R60). -/
def execReadQueue (tag side : Nat) (s : State) : Answer := hostRow (.readQueue side) tag s
/-- READ_ENGAGEMENT (R84). -/
def execReadEngagement (tag side : Nat) (s : State) : Answer := hostRow (.readEngagement side) tag s
/-- READ_SECTION (R98, R99). -/
def execReadSection (tag k : Nat) (s : State) : Answer := hostRow (.readSection k) tag s
/-- READ_BOOKINGS (R114). -/
def execReadBookings (tag : Nat) (s : State) : Answer := hostRow .readBookings tag s
/-- READ_DOFF (R130). -/
def execReadDoff (tag : Nat) (s : State) : Answer := hostRow .readDoff tag s
/-- READ_PEERS (R143). -/
def execReadPeers (tag : Nat) (s : State) : Answer := hostRow .readPeers tag s
/-- READ_SHIFT (R157). -/
def execReadShift (tag : Nat) (s : State) : Answer := hostRow .readShift tag s
/-- READ_REPORT (R156). -/
def execReadReport (tag place : Nat) (s : State) : Answer := hostRow (.readReport place) tag s
/-- READ_ALERT (R179). -/
def execReadAlert (tag : Nat) (s : State) : Answer := hostRow .readAlert tag s
/-- ACK_ALERT (R179). -/
def execAckAlert (tag code subject : Nat) (s : State) : Answer := hostRow (.ackAlert code subject) tag s
/-- READ_LINE (R172). -/
def execReadLine (tag : Nat) (s : State) : Answer := hostRow .readLine tag s
/-- READ_INPUTS (R176). -/
def execReadInputs (tag : Nat) (s : State) : Answer := hostRow .readInputs tag s
/-- SET_LOCKOUT (R35). -/
def execSetLockout (tag lower upper invert : Nat) (s : State) : Answer := hostRow (.setLockout lower upper invert) tag s
/-- CLEAR_LOCKOUT (R36). -/
def execClearLockout (tag : Nat) (s : State) : Answer := hostRow .clearLockout tag s
/-- PIN_LOCKOUT (R37). -/
def execPinLockout (tag : Nat) (s : State) : Answer := hostRow .pinLockout tag s
/-- CLEAR_ROGUE (R58). -/
def execClearRogue (tag i : Nat) (s : State) : Answer := hostRow (.clearRogue i) tag s
/-- CREEL_CONFIRM (R112, R113). -/
def execCreelConfirm (tag k outcome : Nat) (s : State) : Answer := hostRow (.creelConfirm k outcome) tag s
/-- DOFF_REQUEST (R119). -/
def execDoffRequest (tag : Nat) (s : State) : Answer := hostRow .doffRequest tag s
/-- DOFF_COMPLETE (R124). -/
def execDoffComplete (tag : Nat) (s : State) : Answer := hostRow .doffComplete tag s
/-- DOFF_ABANDON (R127). -/
def execDoffAbandon (tag : Nat) (s : State) : Answer := hostRow .doffAbandon tag s
/-- CLOSE_SHIFT (R150 to R152). -/
def execCloseShift (tag number : Nat) (s : State) : Answer := hostRow (.closeShift number) tag s
/-- HOLD_SET (R177). -/
def execHoldSet (tag : Nat) (s : State) : Answer := hostRow .holdSet tag s
/-- HOLD_CLEAR (R177). -/
def execHoldClear (tag : Nat) (s : State) : Answer := hostRow .holdClear tag s
/-- FAULT_ACK (R176). -/
def execFaultAck (tag n : Nat) (s : State) : Answer := hostRow (.faultAck n) tag s

end Sys2Proof.Machine
end

