-- ==== Sys2Proof/Machine/Strips.lean ====
section
/-! DEFINITION. Strip reads: good and missed replies, classification, strip failure and recovery (R23 to R33). -/

namespace Sys2Proof.Machine

/-! ### Classification (R26 to R31) -/

/-- The lazy flag and slow run of an UP record after a classifying read, and whether LAZY_SPINDLE is raised (R27). -/
def Spindle.lazyRead (c : ReadClass) (r : Spindle) : Spindle × Bool :=
  if r.lazy then
    if c = .up then
      if Config.lazyReads ≤ r.slowRun + 1 then ({ r with lazy := false, slowRun := 0 }, false)
      else ({ r with slowRun := r.slowRun + 1 }, false)
    else ({ r with slowRun := 0 }, false)
  else
    if c = .slow then
      if Config.lazyReads ≤ r.slowRun + 1 then ({ r with lazy := true, slowRun := 0 }, true)
      else ({ r with slowRun := r.slowRun + 1 }, false)
    else ({ r with slowRun := 0 }, false)

/-- An UP record at a classifying read (R26, R27). -/
def classifyUp (i : Nat) (c : ReadClass) (s : State) : State :=
  let q := (s.sp i).lazyRead c
  let run := if c = .down then (s.sp i).downRun + 1 else 0
  let s := setSp i { q.1 with downRun := min 2 run } s
  let s := if q.2 then raiseAlert .lazySpindle .note (some i) s else s
  if 2 ≤ run then piecingEvent (goDown .sensed i) s else s

/-- An UNSEEN record at a classifying read (R28). -/
def classifyUnseen (i : Nat) (c : ReadClass) (s : State) : State :=
  match c with
  | .down => piecingEvent (goDown .found i) s
  | .slow => modifySp i (fun r => { r with slowRun := 1 }) (bookEnter i .up s)
  | .up | .none => bookEnter i .up s

/-- A WAITING or QUEUED record at a classifying read (R29). -/
def classifyBroken (i : Nat) (c : ReadClass) (s : State) : State :=
  let run := if c = .up then (s.sp i).downRun + 1 else 0
  let s := modifySp i (fun r => { r with downRun := min 2 run }) s
  if 2 ≤ run then piecingEvent (fun s => countEvent .byHand (bookEnter i .up s)) s else s

/-- A CONFIRMING record at a classifying read (R31). -/
def classifyConfirming (i : Nat) (c : ReadClass) (s : State) : State :=
  if c = .up then countEvent .byRobot (bookEnter i .up s)
  else
    let reads := (s.sp i).confirmReads + 1
    let s := modifySp i (fun r => { r with confirmReads := min 3 reads }) s
    if 3 ≤ reads then piecingEvent (failedPiecing i) s else s

/-- Record `i` taken with its last class, by its state (section 2.3). -/
def classify (i : Nat) (s : State) : State :=
  let c := (s.sp i).lastClass
  match (s.sp i).state with
  | .up => classifyUp i c s
  | .unseen => classifyUnseen i c s
  | .waiting | .queued => classifyBroken i c s
  | .ordered => if c = .up then modifySp i (fun r => { r with seenUp := true }) s else s
  | .confirming => classifyConfirming i c s
  | .empty | .exchange | .locked | .rogue | .unobserved => s

/-! ### Strip failure and recovery (R32, R33) -/

/-- A record of a strip that fails (R32). -/
def unobserve (i : Nat) (s : State) : State :=
  match (s.sp i).state with
  | .locked | .unobserved => s
  | .ordered => bookEnter i .unobserved (withdrawOrder i s)
  | _ => bookEnter i .unobserved s

/-- Strip `k` fails (R32). R32 does not order STRIP_LOST against what follows in the piecing engine: the model raises it last,
after the refill and the decisions of the engagements (assumption log 28). -/
def failStrip (k : Nat) (s : State) : State :=
  let s := setStrip k { s.strip k with failed := true } s
  raiseAlert .stripLost .action (some k) (piecingEvent (each (indicesOf k) unobserve) s)

/-- A record of a strip that recovers (R33). -/
def recoverRecord (i : Nat) (s : State) : State :=
  let s := modifySp i (fun r => { r with lastClass := .none }) s
  if (s.sp i).state = .unobserved then
    bookEnter i (if (s.sp i).rogueMark then .rogue else .unseen) s
  else s

/-! ### Replies (R24, R25) -/

/-- The doff states in which a reply may classify (R25). -/
def DoffState.classifies : DoffState → Bool
  | .spinning | .claimed | .fullWait | .granted | .unknown => true
  | .rundown | .doffing | .restart | .settling => false

/-- The last class of the `j`-th spindle of a good reply (R24). -/
def replyClass (c : Configuration) (expected : Nat) (counts : List Nat) (j : Nat) : ReadClass :=
  if expected < Config.minExpected then .none else classOf c expected (counts.getD j 0)

/-- The strip record after a good reply (R24, R33). -/
def Strip.good (p now expected : Nat) (counts : List Nat) : Strip :=
  { failed := false, missed := 0, reference := p, lastAnswered := some now, lastExpected := min Config.max32 expected,
    lastCounts := counts }

/-- A good reply of strip `k` (R24, R25, R33). -/
def goodReply (k : Nat) (counts : List Nat) (s : State) : State :=
  let t := s.strip k
  let twist := (s.del.active.map Article.twist).getD 0
  let expected := expectedCount s.cfg twist (s.count - t.reference)
  let s := setStrip k (Strip.good s.count s.now expected counts) s
  if t.failed then each (indicesOf k) recoverRecord s
  else
    let s := each (indicesOf k) (fun i =>
      modifySp i (fun r => { r with
        lastClass := replyClass s.cfg expected counts ((i - 1) % Config.perStrip) })) s
    if Config.minExpected ≤ expected ∧ s.doff.state.classifies then each (indicesOf k) classify s else s

/-- A missed reply of strip `k` (R24, R32). -/
def missedReply (k : Nat) (s : State) : State :=
  let t := s.strip k
  let s := setStrip k { t with missed := min 3 (t.missed + 1) } s
  if 3 ≤ t.missed + 1 ∧ t.failed = false then failStrip k s else s

/-- The strip rotation moved on by one read: strips 1 to N/24, then the next pass (R23). -/
def Rotation.next (strips : Nat) (r : Rotation) : Rotation :=
  if r.strip < strips then { r with strip := r.strip + 1 } else { pass := r.pass + 1, strip := 1 }

/-- STRIP_READ (R23, R24): the read of the strip whose turn it is. -/
def execStripRead (reply : Option (List Nat)) (s : State) : Answer :=
  inRunning s <|
    match s.mon.rotation with
    | none => s
    | some rot =>
      let s := match reply with
        | some counts => goodReply rot.strip counts s
        | none => missedReply rot.strip s
      { s with mon := { s.mon with rotation := some (rot.next s.mon.strips.length) } }

end Sys2Proof.Machine
end

