-- ==== Sys2Proof/Machine/Dispatch.lean ====
section
/-! DEFINITION. One arm per row of spec/opcode_table.json, each one direct call of its meaning. -/

namespace Sys2Proof.Machine

def exec (i : Instr) (s : State) : Host.Outcome State Fault Refusal :=
  match i with
  | .powerOn => Sys2Proof.Machine.execPowerOn s
  | .deliveryPulse => Sys2Proof.Machine.execDeliveryPulse s
  | .deviceSecond => Sys2Proof.Machine.execDeviceSecond s
  | .rateBucketClose => Sys2Proof.Machine.execRateBucketClose s
  | .stripRead reply => Sys2Proof.Machine.execStripRead reply s
  | .escalation => Sys2Proof.Machine.execEscalation s
  | .piecingHold => Sys2Proof.Machine.execPiecingHold s
  | .pieceCallRepeat side => Sys2Proof.Machine.execPieceCallRepeat side s
  | .sinceCallLimit side => Sys2Proof.Machine.execSinceCallLimit side s
  | .arrivalTimeout side => Sys2Proof.Machine.execArrivalTimeout side s
  | .orderTimeout side => Sys2Proof.Machine.execOrderTimeout side s
  | .barEnd side => Sys2Proof.Machine.execBarEnd side s
  | .bookingLapse slot => Sys2Proof.Machine.execBookingLapse slot s
  | .exchangeTimeout number => Sys2Proof.Machine.execExchangeTimeout number s
  | .announcementCount => Sys2Proof.Machine.execAnnouncementCount s
  | .recompute => Sys2Proof.Machine.execRecompute s
  | .listenEnd => Sys2Proof.Machine.execListenEnd s
  | .confirmEnd => Sys2Proof.Machine.execConfirmEnd s
  | .doffTimer => Sys2Proof.Machine.execDoffTimer s
  | .settleWindowEnd => Sys2Proof.Machine.execSettleWindowEnd s
  | .nextAnnouncement => Sys2Proof.Machine.execNextAnnouncement s
  | .peerSilence => Sys2Proof.Machine.execPeerSilence s
  | .lineQuiet => Sys2Proof.Machine.execLineQuiet s
  | .sweepStep => Sys2Proof.Machine.execSweepStep s
  | .runChange active => Sys2Proof.Machine.execRunChange active s
  | .maintChange level => Sys2Proof.Machine.execMaintChange level s
  | .faultInput input high => Sys2Proof.Machine.execFaultInput input high s
  | .commandWrite bytes => Sys2Proof.Machine.execCommandWrite bytes s
  | .commandDispatch => Sys2Proof.Machine.execCommandDispatch s
  | .responseRead bytes => Sys2Proof.Machine.execResponseRead bytes s
  | .status tag => Sys2Proof.Machine.execStatus tag s
  | .configure tag c => Sys2Proof.Machine.execConfigure tag c s
  | .stageArticle tag a => Sys2Proof.Machine.execStageArticle tag a s
  | .armArticle tag => Sys2Proof.Machine.execArmArticle tag s
  | .start tag => Sys2Proof.Machine.execStart tag s
  | .warmReset tag => Sys2Proof.Machine.execWarmReset tag s
  | .lineRestart tag => Sys2Proof.Machine.execLineRestart tag s
  | .clearFault tag => Sys2Proof.Machine.execClearFault tag s
  | .readSpindle tag index => Sys2Proof.Machine.execReadSpindle tag index s
  | .readStrip tag number => Sys2Proof.Machine.execReadStrip tag number s
  | .readQueue tag side => Sys2Proof.Machine.execReadQueue tag side s
  | .readEngagement tag side => Sys2Proof.Machine.execReadEngagement tag side s
  | .readSection tag number => Sys2Proof.Machine.execReadSection tag number s
  | .readBookings tag => Sys2Proof.Machine.execReadBookings tag s
  | .readDoff tag => Sys2Proof.Machine.execReadDoff tag s
  | .readPeers tag => Sys2Proof.Machine.execReadPeers tag s
  | .readShift tag => Sys2Proof.Machine.execReadShift tag s
  | .readReport tag place => Sys2Proof.Machine.execReadReport tag place s
  | .readAlert tag => Sys2Proof.Machine.execReadAlert tag s
  | .ackAlert tag code subject => Sys2Proof.Machine.execAckAlert tag code subject s
  | .readLine tag => Sys2Proof.Machine.execReadLine tag s
  | .readInputs tag => Sys2Proof.Machine.execReadInputs tag s
  | .setLockout tag lower upper invert => Sys2Proof.Machine.execSetLockout tag lower upper invert s
  | .clearLockout tag => Sys2Proof.Machine.execClearLockout tag s
  | .pinLockout tag => Sys2Proof.Machine.execPinLockout tag s
  | .clearRogue tag index => Sys2Proof.Machine.execClearRogue tag index s
  | .creelConfirm tag number outcome => Sys2Proof.Machine.execCreelConfirm tag number outcome s
  | .doffRequest tag => Sys2Proof.Machine.execDoffRequest tag s
  | .doffComplete tag => Sys2Proof.Machine.execDoffComplete tag s
  | .doffAbandon tag => Sys2Proof.Machine.execDoffAbandon tag s
  | .closeShift tag number => Sys2Proof.Machine.execCloseShift tag number s
  | .holdSet tag => Sys2Proof.Machine.execHoldSet tag s
  | .holdClear tag => Sys2Proof.Machine.execHoldClear tag s
  | .faultAck tag input => Sys2Proof.Machine.execFaultAck tag input s
  | .telegramReceived bytes badStop trailing => Sys2Proof.Machine.execTelegramReceived bytes badStop trailing s
  | .lineGained bits => Sys2Proof.Machine.execLineGained bits s
  | .collision bit => Sys2Proof.Machine.execCollision bit s
  | .telegramSent => Sys2Proof.Machine.execTelegramSent s
  | .telegramPassedOver => Sys2Proof.Machine.execTelegramPassedOver s
  | .robotOffer => Sys2Proof.Machine.execRobotOffer s
  | .robotArrived => Sys2Proof.Machine.execRobotArrived s
  | .workResult => Sys2Proof.Machine.execWorkResult s
  | .robotWithdraw => Sys2Proof.Machine.execRobotWithdraw s
  | .stationRestartPiecing => Sys2Proof.Machine.execStationRestartPiecing s
  | .stationRestartCreel => Sys2Proof.Machine.execStationRestartCreel s
  | .stationRestartDoff => Sys2Proof.Machine.execStationRestartDoff s
  | .carrierBooking => Sys2Proof.Machine.execCarrierBooking s
  | .exchangeBegin => Sys2Proof.Machine.execExchangeBegin s
  | .exchangeEnd => Sys2Proof.Machine.execExchangeEnd s
  | .bookingDone => Sys2Proof.Machine.execBookingDone s
  | .doffClaim => Sys2Proof.Machine.execDoffClaim s
  | .doffState => Sys2Proof.Machine.execDoffState s
  | .doffDone => Sys2Proof.Machine.execDoffDone s
  | .doffWithdraw => Sys2Proof.Machine.execDoffWithdraw s
  | .shiftMark => Sys2Proof.Machine.execShiftMark s
  | .shiftTotals => Sys2Proof.Machine.execShiftTotals s
  | .resetNLow => Sys2Proof.Machine.execResetNLow s

end Sys2Proof.Machine
end

