-- ==== Sys2Proof/Safety.lean ====
section
/-! DEFINITION. What a sound state of the part is, in the terms the statements use: the rules that hold of the frame interface's
alert list and hold-cause set, of the hall line's buffers and of the part state at every moment (R166, R167, R177, R178, R184,
R185). -/

namespace Sys2Proof.Machine

/-! ### The frame interface (R177, R178) -/

/-- The alert list holds at most 32 entries, never two of one code and subject, each with a repeat count of 1..255 (R178). -/
def Frame.listed (f : Frame) : Prop :=
  f.alerts.length ≤ Config.alertCapacity ∧
  (f.alerts.map (fun a => (a.code, a.subject))).Nodup ∧
  ∀ a ∈ f.alerts, 1 ≤ a.repeats ∧ a.repeats ≤ Config.max8

/-- ALERT_STOP is in the hold-cause set exactly while the alert list holds a STOP entry (R177, R178). -/
def Frame.stopHeld (f : Frame) : Prop := f.holds.alertStop = f.lineOf .stop

/-- The frame interface keeps R177 and R178. -/
def Frame.sound (f : Frame) : Prop := f.listed ∧ f.stopHeld

/-! ### The hall line (R166, R167) -/

/-- The outgoing queue holds at most 8 telegrams and the receive buffer at most 4 (R166, R167). -/
def Line.bounded (l : Line) : Prop :=
  l.out.length ≤ Config.outgoingCapacity ∧ l.rx.length ≤ Config.receiveCapacity

/-! ### The part (R177, R184, R185) -/

/-- The part holds a configuration exactly when it is past INIT, and NOT_STARTED holds the frame outside RUNNING (R177, R184,
R185). -/
def State.staged (s : State) : Prop :=
  s.port.config.isSome = (s.port.part != .init) ∧
  s.frame.holds.notStarted = (s.port.part != .running)

/-- A sound state: what every step keeps. -/
def State.sound (s : State) : Prop := s.frame.sound ∧ s.line.bounded ∧ s.staged

/-! ### The tables (section 2.1, R34, R42, R46, R100) -/

/-- A record's optional fields follow its state (section 2.1): the cause is the state's, booked-to is absent in UP alone, and
down-since stands in the down states alone. -/
def Spindle.sound (r : Spindle) : Prop :=
  r.cause = r.state.cause ∧ r.bookedTo.isNone = (r.state == .up) ∧ r.downSince.isSome = r.state.isDown

/-- The spindle, strip and section tables have the sizes that CONFIGURE gives them (R42, R100). -/
def State.sized (s : State) : Prop :=
  match s.port.config with
  | none => s.mon.spindles = [] ∧ s.mon.strips = [] ∧ s.creel.sections = []
  | some c => s.mon.spindles.length = c.spindles ∧ s.mon.strips.length = c.spindles / 24 ∧
      s.creel.sections.length = c.spindles / 24

/-- What a side's queue and waiting set hold (R46): ascending indices, at most 48, of exactly the side's QUEUED records; and
exactly the side's WAITING records, none twice. -/
def State.queued (s : State) (x : Side) : Prop :=
  ((s.side x).queue.map QueueEntry.index).Pairwise (· < ·) ∧
  (s.side x).queue.length ≤ Config.queueCapacity ∧
  (s.side x).waiting.Nodup ∧
  (∀ i, i ∈ (s.side x).queue.map QueueEntry.index ↔ s.hasSpindle i = true ∧ s.sideOf i = x ∧ (s.sp i).state = .queued) ∧
  (∀ i, i ∈ (s.side x).waiting ↔ s.hasSpindle i = true ∧ s.sideOf i = x ∧ (s.sp i).state = .waiting)

/-- Sound tables: their sizes, every record's optional fields, the two queues and waiting sets, and the ends-down flag (R34). -/
def State.tabled (s : State) : Prop :=
  s.sized ∧ (∀ r ∈ s.mon.spindles, r.sound) ∧ (∀ x, s.queued x) ∧
  s.mon.aboveLimit = decide (s.cfg.endsDownLimit < s.endsDown)

/-! ### When a command takes effect (R174, R181, R183) -/

/-- RESET_N is high and the part is RUNNING: every event of every block occurs. -/
def State.works (s : State) : Prop := s.frame.resetLow = false ∧ s.port.part = .running

/-- RESET_N is high, no command is executing and the command-fault latch is clear: a host command executes (R181). -/
def State.portOpen (s : State) : Prop :=
  s.frame.resetLow = false ∧ s.port.executing = none ∧ s.port.latch = none

/-- The command port after a host command of kind `kind` has completed with a result and a body: the response in the buffer,
not yet read, marked OVERWRITTEN over one that was not read (R182). -/
def Port.completed (kind tag : Nat) (r : Result) (body : List Byte) (p : Port) : Port :=
  { p with
    response := some
      { kind := kind, tag := tag, result := r, overwritten := p.unread, alreadyOpen := false, body := body }
    unread := true }

/-! ### What an event leaves alone -/

/-- The blocks of the part, and the counter of free values. -/
inductive Block where
  | del | mon | pie | creel | doff | shift | line | frame | port | draws
  deriving DecidableEq, Repr

/-- One block is the same in two states. -/
def Block.same (s t : State) : Block → Prop
  | .del => t.del = s.del
  | .mon => t.mon = s.mon
  | .pie => t.pie = s.pie
  | .creel => t.creel = s.creel
  | .doff => t.doff = s.doff
  | .shift => t.shift = s.shift
  | .line => t.line = s.line
  | .frame => t.frame = s.frame
  | .port => t.port = s.port
  | .draws => t.draws = s.draws

/-- Between `s` and `t` nothing has changed but in the blocks listed; the queue of waiting commands has not. -/
def onlyIn (bs : List Block) (s t : State) : Prop :=
  t.pending = s.pending ∧ ∀ b : Block, b ∉ bs → b.same s t

/-- From `s` to `t` the outgoing queue has taken one telegram by R166, with the drop counted and alerted where there was one. -/
def sends (kind : Kind) (dest : Nat) (payload : List Byte) (s t : State) : Prop :=
  t.line = (enqueue kind dest payload s).line ∧ t.frame = (enqueue kind dest payload s).frame

/-- The alert list holds the alert, or it is full (R178). -/
def alerted (code : AlertCode) (subject : Option Nat) (s : State) : Prop :=
  (∃ a ∈ s.frame.alerts, a.code = code ∧ a.subject = subject) ∨ Config.alertCapacity ≤ s.frame.alerts.length

/-! ### The telegrams an event hands over (R166) -/

/-- A telegram as a block hands it to the line controller: kind, destination and payload. -/
abbrev Handed := Kind × Nat × List Byte

/-- The state after telegrams have been handed over one after the other, each taken by R166. -/
def handAll (l : List Handed) (s : State) : State := l.foldl (fun u m => enqueue m.1 m.2.1 m.2.2 u) s

/-- From `s` to `t` the line controller has been handed the telegrams of the list, in this order, and nothing else has happened
to it. -/
def hands (l : List Handed) (s t : State) : Prop := t.line = (handAll l s).line

/-- A ROBOT_RELEASE of side `x`'s engagement (R64, R70). -/
def releaseOf (x : Side) (robot : Nat) (s : State) : Handed := (.robotRelease, robot, field 1 (s.sideName x))

/-- The WORK_ORDER of an order (R73). -/
def orderOf (robot : Nat) (o : Order) : Handed :=
  (.workOrder, robot, field 2 o.index ++ field 1 o.attempt ++ field 1 o.tag)

/-- The WORK_CANCEL of an order (R79, R80, R82). -/
def cancelOf (robot : Nat) (o : Order) : Handed := (.workCancel, robot, field 2 o.index ++ field 1 o.tag)

/-- A PIECE_CALL of side `x`'s engagement with the queue summary of `t` (R60, R65). -/
def callOf (x : Side) (lowest highest : Nat) (t : State) : Handed :=
  (.pieceCall, 0, callPayload (t.sideName x) ((t.servedEntries x).length + (t.servedWaiting x).length)
    (t.oldestAge ((t.servedEntries x).map QueueEntry.index ++ t.servedWaiting x)) lowest highest)

/-- The two indices of a PIECE_CALL are the lowest and the highest queued, where a queue served holds an entry (R60). -/
def callIndices (x : Side) (lowest highest : Nat) (t : State) : Prop :=
  ∀ e f, (t.servedEntries x).head? = some e → (t.servedEntries x).getLast? = some f → lowest = e.index ∧ highest = f.index

/-- From `s` to `t` the telegrams of the list have been handed over and then side `x`'s PIECE_CALL with `t`'s queue summary. -/
def handsCall (x : Side) (l : List Handed) (s t : State) : Prop :=
  ∃ lowest highest : Nat, hands (l ++ [callOf x lowest highest t]) s t ∧ callIndices x lowest highest t

/-- What the suspension of side `x`'s engagement hands over (R82). -/
def suspensionOf (x : Side) (s : State) : List Handed :=
  match (s.eng x).state, (s.eng x).robot with
  | .awaiting, some robot | .working, some robot => [releaseOf x robot s]
  | .orderOut, some robot => ((s.eng x).order.map (cancelOf robot)).toList ++ [releaseOf x robot s]
  | _, _ => []

/-- What a suspension hands over, A before B in split mode (R82; assumption log 27). -/
def suspensions (s : State) : List Handed :=
  if s.cfg.joined = 1 then suspensionOf .a s else suspensionOf .a s ++ suspensionOf .b s

/-- What the doff sequencer hands over at a line restart (R129). -/
def doffAnnounced (s : State) : List Handed :=
  match s.doff.state with
  | .claimed | .fullWait | .granted =>
    [(.doffClaim, 0, field 1 s.doff.urgency.code ++
      field 2 (min 65535 (s.del.seconds - s.doff.firstClaim.getD s.del.seconds)) ++ field 2 s.fill ++ flag s.doff.manual)]
  | .rundown | .doffing | .unknown =>
    [(.doffState, 0, field 1 (match s.doff.state with | .rundown => 2 | .doffing => 3 | _ => 4) ++
      field 1 s.doff.urgency.code ++ field 2 (s.doff.grantedWait.getD 0))]
  | .spinning | .restart | .settling => []

/-! ### The checks among peers, spelled out (R138, R140, R142) -/

/-- The present wait of this station's claim (R138). -/
def waitAt (now : Nat) (d : Doff) : Nat := min 65535 (now - d.firstClaim.getD now)

/-- A peer ranks ahead of this station: by a FULL urgency, then by the longer present wait, then by the lower station (R138). -/
def aheadAt (c : Configuration) (now : Nat) (d : Doff) (p : Peer) : Bool :=
  let theirs := min 65535 (p.wait + (now - p.heard))
  p.urgency == .full && d.urgency == .normal ||
    p.urgency == d.urgency && (waitAt now d < theirs || theirs == waitAt now d && p.station < c.station)

/-- The grant check grants: fewer than sixteen peers, and those that hold a slot with the claimants ahead are fewer than the
slots (R140). -/
def grantsAt (c : Configuration) (now : Nat) (d : Doff) : Prop :=
  d.view.length < 16 ∧
  d.view.countP (fun p => p.phase != .claimed) + d.view.countP (fun p => p.phase == .claimed && aheadAt c now d p) < c.slots

/-- The doff record after a grant (R140). -/
def grantedAt (now : Nat) (d : Doff) : Doff :=
  { d with
    state := .granted, grantedWait := some (waitAt now d), confirmEnd := some (now + 2), nextAnn := some (now + 5) }

/-- The back-off check backs off: those ahead among the holders of a slot are as many as the slots (R142). -/
def backsOffAt (c : Configuration) (now : Nat) (d : Doff) : Prop :=
  c.slots ≤ d.view.countP (fun q => q.phase != .claimed && (q.phase != .granted || aheadAt c now d q))

/-- The doff record after a back-off (R142). -/
def backedOffAt (now : Nat) (d : Doff) : Doff :=
  { d with
    confirmEnd := none, grantedWait := none, backOffs := min 65535 (d.backOffs + 1)
    state := if d.urgency = .full then .fullWait else .claimed, nextAnn := some (now + 5) }

/-! ### Rows by what they need (R174, R181, R183) -/

/-- The row of a host command. -/
def rowOf (c : Command) (tag : Nat) : Instr :=
  match c with
  | .status => .status tag
  | .configure c => .configure tag c
  | .stageArticle a => .stageArticle tag a
  | .armArticle => .armArticle tag
  | .start => .start tag
  | .warmReset => .warmReset tag
  | .lineRestart => .lineRestart tag
  | .clearFault => .clearFault tag
  | .readSpindle i => .readSpindle tag i
  | .readStrip n => .readStrip tag n
  | .readQueue n => .readQueue tag n
  | .readEngagement n => .readEngagement tag n
  | .readSection n => .readSection tag n
  | .readBookings => .readBookings tag
  | .readDoff => .readDoff tag
  | .readPeers => .readPeers tag
  | .readShift => .readShift tag
  | .readReport n => .readReport tag n
  | .readAlert => .readAlert tag
  | .ackAlert code subject => .ackAlert tag code subject
  | .readLine => .readLine tag
  | .readInputs => .readInputs tag
  | .setLockout lower upper invert => .setLockout tag lower upper invert
  | .clearLockout => .clearLockout tag
  | .pinLockout => .pinLockout tag
  | .clearRogue i => .clearRogue tag i
  | .creelConfirm n outcome => .creelConfirm tag n outcome
  | .doffRequest => .doffRequest tag
  | .doffComplete => .doffComplete tag
  | .doffAbandon => .doffAbandon tag
  | .closeShift n => .closeShift tag n
  | .holdSet => .holdSet tag
  | .holdClear => .holdClear tag
  | .faultAck n => .faultAck tag n

/-- A host command that R183 refuses with NOT_RUNNING in INIT and READY. -/
def commandNeedsRunning : Command → Bool
  | .lineRestart | .ackAlert _ _ | .setLockout _ _ _ | .clearLockout | .pinLockout | .clearRogue _ | .creelConfirm _ _
  | .doffRequest | .doffComplete | .doffAbandon | .closeShift _ | .holdSet | .holdClear | .faultAck _ => true
  | .status | .configure _ | .stageArticle _ | .armArticle | .start | .warmReset | .clearFault | .readSpindle _
  | .readStrip _ | .readQueue _ | .readEngagement _ | .readSection _ | .readBookings | .readDoff | .readPeers | .readShift
  | .readReport _ | .readAlert | .readLine | .readInputs => false

/-- An event that occurs in RUNNING alone: a timer of a block, a strip read, a sweep step, and everything on the hall line. -/
def rowNeedsRunning : Instr → Bool
  | .rateBucketClose | .stripRead _ | .escalation | .piecingHold | .pieceCallRepeat _ | .sinceCallLimit _
  | .arrivalTimeout _ | .orderTimeout _ | .barEnd _ | .bookingLapse _ | .exchangeTimeout _ | .announcementCount
  | .recompute | .listenEnd | .confirmEnd | .doffTimer | .settleWindowEnd | .nextAnnouncement | .peerSilence | .lineQuiet
  | .sweepStep | .telegramReceived _ _ _ | .lineGained _ | .collision _ | .telegramSent | .telegramPassedOver
  | .robotOffer | .robotArrived | .workResult | .robotWithdraw | .stationRestartPiecing | .stationRestartCreel
  | .stationRestartDoff | .carrierBooking | .exchangeBegin | .exchangeEnd | .bookingDone | .doffClaim | .doffState
  | .doffDone | .doffWithdraw | .shiftMark | .shiftTotals => true
  | .powerOn | .resetNLow | .deliveryPulse | .deviceSecond | .runChange _ | .maintChange _ | .faultInput _ _
  | .commandWrite _ | .commandDispatch | .responseRead _ | .status _ | .configure _ _ | .stageArticle _ _ | .armArticle _
  | .start _ | .warmReset _ | .lineRestart _ | .clearFault _ | .readSpindle _ _ | .readStrip _ _ | .readQueue _ _
  | .readEngagement _ _ | .readSection _ _ | .readBookings _ | .readDoff _ | .readPeers _ | .readShift _ | .readReport _ _
  | .readAlert _ | .ackAlert _ _ _ | .readLine _ | .readInputs _ | .setLockout _ _ _ _ | .clearLockout _ | .pinLockout _
  | .clearRogue _ _ | .creelConfirm _ _ _ | .doffRequest _ | .doffComplete _ | .doffAbandon _ | .closeShift _ _
  | .holdSet _ | .holdClear _ | .faultAck _ _ => false

/-! ### How an exchange ends (R108 to R113) -/

/-- Section `k` has left its booking: its reference is absent, and the slot that held it has lost the section from its list, and is
free where the list became empty. -/
def leftBooking (k : Nat) (s t : State) : Prop :=
  (t.sec k).booking = none ∧
  ((s.sec k).booking = none → t.creel.slot1 = s.creel.slot1 ∧ t.creel.slot2 = s.creel.slot2) ∧
  ∀ (n : Nat) (b : Booking), n = 1 ∨ n = 2 → (s.sec k).booking = some n → s.slot n = some b →
    t.slot n = (if b.sections.filter (· != k) = [] then none
      else some { b with sections := b.sections.filter (· != k) }) ∧
    t.slot (3 - n) = s.slot (3 - n)

/-- Section `k`'s exchange has ended without a load (R110): UNKNOWN with its base kept, out of the register, the timer, the booking
and the prediction, EXCHANGE_UNKNOWN raised; no other section and no record has changed. -/
def endedWithoutLoad (k : Nat) (s t : State) : Prop :=
  onlyIn [.creel, .line, .frame] s t ∧
  t.sec k = { s.sec k with
    state := .unknown, timer := none, carrier := none, booking := none, minutes := none, due := false } ∧
  (∀ m, m ≠ k → t.sec m = s.sec m) ∧ leftBooking k s t ∧ alerted .exchangeUnknown (some k) t ∧
  t.creel.stray = s.creel.stray

/-- Record `i` has become a fresh break (R109): booked up to the present count, placed RELOAD with its age restarted, in its queue or
waiting set unless an engagement has ordered it since, its shift breaks kept. -/
def freshBroken (i : Nat) (s t : State) : Prop :=
  ((t.sp i).state = .queued ∨ (t.sp i).state = .waiting ∨ (t.sp i).state = .ordered) ∧ (t.sp i).cause = some .brk ∧
  (t.sp i).attempts = 0 ∧ (t.sp i).piecedAt = none ∧ (t.sp i).downSince = some s.del.seconds ∧
  (t.sp i).bookedTo = some s.del.count ∧ (t.sp i).shiftBreaks = (s.sp i).shiftBreaks

/-- The break count of a segment after `n` more breaks have been counted in it (R109, R145). -/
def Segment.breaksAfter (g : Segment) (n : Nat) : Nat := if n = 0 then g.breaks else min 65535 (g.breaks + n)

/-- The shift counter after a load of section `k` (R87, R109): all 24 records booked, and each that was EXCHANGE or EMPTY counted as
one break in the open segment. -/
def loadCounted (k : Nat) (s t : State) : Prop :=
  let u := each (indicesOf k) book s
  let fresh := (indicesOf k).countP (fun i => (s.sp i).state == .exchange || (s.sp i).state == .empty)
  ∀ first g, u.shift.opened.segments = first ++ [g] →
    t.shift = { u.shift with opened := { u.shift.opened with
      segments := first ++ [{ g with breaks := g.breaksAfter fresh }] } }

/-- The shift counter after section `k` has returned to NORMAL without a load (R109, R113): its EXCHANGE records booked under ROVING
and each counted as one break in the open segment. The margin check of R92 may book queued and waiting ends under BREAK besides; where
it finds none of the section, nothing else is booked. -/
def returnCounted (k : Nat) (s t : State) : Prop :=
  let exchanged := (indicesOf k).filter (fun i => (s.sp i).state == .exchange)
  let u := each exchanged book s
  ∀ first g, u.shift.opened.segments = first ++ [g] → ∃ brk openLosses : Nat,
    t.shift = { u.shift with opened := { u.shift.opened with
      segments := first ++ [{ g with breaks := g.breaksAfter exchanged.length, brk := brk, openLosses := openLosses }] } } ∧
    g.brk ≤ brk ∧ openLosses + g.brk = g.openLosses + brk ∧
    ((∀ i ∈ indicesOf k, ∀ left, (s.sp i).state = .waiting ∨ (s.sp i).state = .queued → s.remaining i = some left →
      s.atMargin left = false) → brk = g.brk)

/-- Section `k` has been loaded (R87, R108, R109): NORMAL on a new base of full bobbins at the present count, every lost-since-base
of the section 0, its EXCHANGE and EMPTY records fresh breaks, and its other records in the states they had but for those that the
piecing engine may move; no other section has changed. -/
def endedLoaded (k : Nat) (s t : State) : Prop :=
  let roving := (s.del.active.map Article.roving).getD 0
  (t.sec k).state = .normal ∧ (t.sec k).timer = none ∧ (t.sec k).carrier = none ∧
  (t.sec k).base = some { mark := s.del.count, loaded := roving, rem := List.replicate 24 (roving * 1000) } ∧
  leftBooking k s t ∧ (∀ m, m ≠ k → t.sec m = s.sec m) ∧ loadCounted k s t ∧
  ∀ i, 24 * (k - 1) < i → i ≤ 24 * k →
    (t.sp i).lostSinceBase = 0 ∧
    ((s.sp i).state = .exchange ∨ (s.sp i).state = .empty → s.cfg.emptyMargin < roving → freshBroken i s t) ∧
    ((s.sp i).state ≠ .exchange → (s.sp i).state ≠ .empty → (s.sp i).state ≠ .waiting → (s.sp i).state ≠ .queued →
      (t.sp i).state = (s.sp i).state ∧ (t.sp i).attempts = (s.sp i).attempts)

/-- Section `k` has returned to NORMAL without a load (R113): its base kept, its EXCHANGE records fresh breaks unless the margin
check took them to EMPTY, its EMPTY records EMPTY; no other section has changed. -/
def endedNotLoaded (k : Nat) (s t : State) : Prop :=
  (t.sec k).state = .normal ∧ (t.sec k).timer = none ∧ (t.sec k).carrier = none ∧ (t.sec k).base = (s.sec k).base ∧
  leftBooking k s t ∧ (∀ m, m ≠ k → t.sec m = s.sec m) ∧ returnCounted k s t ∧
  ∀ i, 24 * (k - 1) < i → i ≤ 24 * k →
    ((s.sp i).state = .exchange → freshBroken i s t ∨ (t.sp i).state = .empty ∧ (t.sp i).cause = some .roving) ∧
    ((s.sp i).state = .empty → t.sp i = s.sp i)

end Sys2Proof.Machine
end

