-- ==== Sys2Proof/WellFormed.lean ====
section
/-! DEFINITION. Which terms of `Instr` are commands of the block: the widths of the fields that carry them (12.2, R24, R174).
A value inside its width but outside its range IS a command: the command's own rule refuses it. -/

namespace Sys2Proof

/-- An article record as STAGE_ARTICLE carries it: widths 2, 2, 2, 2, 2, 1 (12.2). -/
def Article.fits (a : Article) : Bool :=
  a.id < 65536 && a.tex < 65536 && a.twist < 65536 && a.draft < 65536 && a.roving < 65536 && a.copMass < 256

/-- A configuration as CONFIGURE carries it: the widths of 12.2 in the order of R184's table. -/
def Configuration.fits (c : Configuration) : Bool :=
  c.station < 256 && c.spindles < 65536 && c.joined < 256 && c.circumference < 4294967296 && c.ppr < 65536 &&
  c.scanPeriod < 65536 && c.upPercent < 256 && c.downPercent < 256 && c.slots < 256 && c.claimLevel < 65536 &&
  c.settleWindow < 256 && c.attemptLimit < 256 && c.rogueLimit < 256 && c.escalationAge < 65536 &&
  c.endsDownLimit < 256 && c.emptyMargin < 256 && c.lineDivisor < 256 &&
  c.faults.length == 4 && c.faults.all (· < 256) &&
  c.arrivalTime < 65536 && c.orderTime < 256 && c.exchangeTime < 65536 && c.bookingGrace < 65536 &&
  c.doffTime < 65536 && c.horizon < 256

/-- The fields of a host command fit the widths of its record (12.2). -/
def Command.fits : Command → Bool
  | .configure c => c.fits
  | .stageArticle a => a.fits
  | .readSpindle i => i < 65536
  | .readStrip n => n < 256
  | .readQueue x => x < 256
  | .readEngagement x => x < 256
  | .readSection n => n < 256
  | .readReport p => p < 256
  | .ackAlert code subject => code < 256 && subject < 65536
  | .setLockout lower upper invert => lower < 65536 && upper < 65536 && invert < 256
  | .clearRogue i => i < 65536
  | .creelConfirm n outcome => n < 256 && outcome < 256
  | .closeShift n => n < 65536
  | .faultAck n => n < 256
  | .status | .armArticle | .start | .warmReset | .lineRestart | .clearFault | .readBookings | .readDoff | .readPeers
  | .readShift | .readAlert | .readLine | .readInputs | .clearLockout | .pinLockout | .doffRequest | .doffComplete
  | .doffAbandon | .holdSet | .holdClear => true

/-- The host command that a host row stands for, with its tag; `none` for every other row. -/
def Instr.hostCommand : Instr → Option (Nat × Command)
  | .status t => some (t, .status)
  | .configure t c => some (t, .configure c)
  | .stageArticle t a => some (t, .stageArticle a)
  | .armArticle t => some (t, .armArticle)
  | .start t => some (t, .start)
  | .warmReset t => some (t, .warmReset)
  | .lineRestart t => some (t, .lineRestart)
  | .clearFault t => some (t, .clearFault)
  | .readSpindle t i => some (t, .readSpindle i)
  | .readStrip t n => some (t, .readStrip n)
  | .readQueue t x => some (t, .readQueue x)
  | .readEngagement t x => some (t, .readEngagement x)
  | .readSection t n => some (t, .readSection n)
  | .readBookings t => some (t, .readBookings)
  | .readDoff t => some (t, .readDoff)
  | .readPeers t => some (t, .readPeers)
  | .readShift t => some (t, .readShift)
  | .readReport t p => some (t, .readReport p)
  | .readAlert t => some (t, .readAlert)
  | .ackAlert t code subject => some (t, .ackAlert code subject)
  | .readLine t => some (t, .readLine)
  | .readInputs t => some (t, .readInputs)
  | .setLockout t lower upper invert => some (t, .setLockout lower upper invert)
  | .clearLockout t => some (t, .clearLockout)
  | .pinLockout t => some (t, .pinLockout)
  | .clearRogue t i => some (t, .clearRogue i)
  | .creelConfirm t n outcome => some (t, .creelConfirm n outcome)
  | .doffRequest t => some (t, .doffRequest)
  | .doffComplete t => some (t, .doffComplete)
  | .doffAbandon t => some (t, .doffAbandon)
  | .closeShift t n => some (t, .closeShift n)
  | .holdSet t => some (t, .holdSet)
  | .holdClear t => some (t, .holdClear)
  | .faultAck t n => some (t, .faultAck n)
  | .powerOn | .deliveryPulse | .deviceSecond | .rateBucketClose | .stripRead _ | .escalation | .piecingHold
  | .pieceCallRepeat _ | .sinceCallLimit _ | .arrivalTimeout _ | .orderTimeout _ | .barEnd _ | .bookingLapse _
  | .exchangeTimeout _ | .announcementCount | .recompute | .listenEnd | .confirmEnd | .doffTimer | .settleWindowEnd
  | .nextAnnouncement | .peerSilence | .lineQuiet | .sweepStep | .runChange _ | .maintChange _ | .faultInput _ _
  | .commandWrite _ | .commandDispatch | .responseRead _ | .telegramReceived _ _ _ | .lineGained _ | .collision _
  | .telegramSent | .telegramPassedOver | .robotOffer | .robotArrived | .workResult | .robotWithdraw
  | .stationRestartPiecing | .stationRestartCreel | .stationRestartDoff | .carrierBooking | .exchangeBegin
  | .exchangeEnd | .bookingDone | .doffClaim | .doffState | .doffDone | .doffWithdraw | .shiftMark | .shiftTotals
  | .resetNLow => none

/-- A strip's good reply carries 24 counts of 0..65,535 (section 2.2). -/
def replyFits : Option (List Nat) → Bool
  | none => true
  | some counts => counts.length == 24 && counts.all (· < 65536)

/-- A term of `Instr` that is a command of the block: host commands by the widths of their fields, strip replies of 24 counts,
slots 1 and 2, fault inputs 0 to 3, transactions of at least one byte, bits of a telegram. -/
def Instr.wf (i : Instr) : Bool :=
  match i.hostCommand with
  | some (tag, c) => tag < 256 && c.fits
  | none =>
    match i with
    | .stripRead reply => replyFits reply
    | .bookingLapse slot => slot == 1 || slot == 2
    | .faultInput n _ => n < 4
    | .commandWrite bytes | .responseRead bytes => !bytes.isEmpty
    | .collision n => n < Config.maxTelegramBits
    | _ => true

end Sys2Proof
end

