-- ==== Sys2Proof/Certificates/Slice0/Obligations.lean ====
section
/-! DEFINITION. The statements for the provers, chapter by chapter. Each docstring names the rule or the section of the spec it
formalises, and the assumption-log entry where a clause is the model's choice. -/

open Sys2Proof Sys2Proof.Machine

/-! ### The queue of commands -/

/-- A step with a command at the front of the queue is that command executed with the queue's rest (the row's own rule for a
block; assumption log 1). -/
def Obligations.StepRunsFrontCommand : Prop :=
  ∀ (c : Instr) (rest : List Instr) (s : State),
    step { s with pending := c :: rest } = exec c { s with pending := rest }

/-- No command of the table stops the part, and none reads or writes the queue of waiting commands: `exec` answers a next state
with the same queue, in every state (00_scope.md, "Events"; assumption log 1). -/
def Obligations.EveryCommandAnswers : Prop :=
  ∀ (c : Instr) (s : State), ∃ t, exec c s = .next t ∧ t.pending = s.pending

/-! ### Chapter 1: delivery and yarn arithmetic -/

/-- R1 to R3 with R66, R125 and R146. A pulse while RUN is active adds to the delivery count and to the open bucket, each holding
at its maximum, and clears the pulse-free seconds; the first one added in RESTART begins SETTLING; a pulse while RUN is inactive
adds to the jog count alone. A device second raises device seconds and pulse-free seconds in every part state, and in RUNNING the
run or stop seconds, since-call of a calling engagement and the settle seconds (at most 120, assumption log 13). At the tenth
device second after START, and at every tenth one after it, the open bucket becomes the newest of at most six; before it that row
changes nothing (assumption log 1). That a pulse which finds the count at its maximum does not begin SETTLING is assumption log
20. -/
def Obligations.DeliveryCounterEvents : Prop :=
  (∀ s : State, s.frame.resetLow = false →
     exec .deliveryPulse s = .next
       (if s.frame.run = true then
         { s with
           del := { s.del with
             count := min 281474976710655 (s.del.count + 1)
             openBucket := s.del.openBucket.map (fun b => min 16777215 (b + 1))
             pulseFree := 0 }
           doff :=
             if s.doff.state = .restart ∧ s.del.count < 281474976710655 then
               { s.doff with state := .settling, settleStart := some s.del.seconds, settleSeconds := 0 }
             else s.doff }
       else { s with del := { s.del with jog := min 4294967295 (s.del.jog + 1) } })) ∧
  (∀ s : State, s.frame.resetLow = false → ∃ t, exec .deviceSecond s = .next t ∧
     t.del = { s.del with
       seconds := min 4294967295 (s.del.seconds + 1), pulseFree := min 65535 (s.del.pulseFree + 1) } ∧
     (s.port.part ≠ .running → t = { s with del := t.del }) ∧
     (s.port.part = .running →
       onlyIn [.del, .shift, .pie, .doff, .line, .frame] s t ∧
       t.shift = { s.shift with opened := { s.shift.opened with
         runSeconds := if s.frame.run then min 4294967295 (s.shift.opened.runSeconds + 1) else s.shift.opened.runSeconds
         stopSeconds := if s.frame.run then s.shift.opened.stopSeconds
           else min 4294967295 (s.shift.opened.stopSeconds + 1) } } ∧
       (∀ x, t.eng x = { s.eng x with
         sinceCall := if (s.eng x).state = .calling then min 65535 ((s.eng x).sinceCall + 1) else (s.eng x).sinceCall }) ∧
       (∀ x, (t.side x).queue = (s.side x).queue ∧ (t.side x).waiting = (s.side x).waiting ∧
         (t.side x).bar = (s.side x).bar) ∧
       (s.doff.state = .settling → t.doff = { s.doff with
         settleSeconds := if s.frame.run then min 120 (s.doff.settleSeconds + 1) else s.doff.settleSeconds }))) ∧
  (∀ (s : State) (due b : Nat), s.works → s.del.nextBucketAt = some due → s.del.openBucket = some b →
     s.del.buckets.length ≤ 6 →
     exec .rateBucketClose s = .next
       (if due ≤ s.del.seconds then
         { s with del := { s.del with
           buckets := (if s.del.buckets.length = 6 then s.del.buckets.tail else s.del.buckets) ++ [b]
           openBucket := some 0
           nextBucketAt := some (due + 10) } }
       else s))

/-- R4, R6 to R10 and R12: the rate by the number of completed buckets; the class of a count against the two thresholds; the
up-pulses of a position as the exact difference clamped at 0, and its remaining roving and minutes; the fill as the cop build in
thousandths of the cop length, clamped at 1,999, and a full cop from 1,000; the efficiency as the quotient of up by gross pulses, 0
where no pulse was delivered, and at most 10,000 where up does not exceed gross. Stated of the operations the commands use. -/
def Obligations.ConversionsOfPulses : Prop :=
  (∀ l : List Nat,
    (l.length = 0 → ratePulses l = none) ∧
    (1 ≤ l.length → l.length ≤ 5 → ratePulses l = some (l.sum * 6 / l.length)) ∧
    (l.length = 6 → ratePulses l = some l.sum)) ∧
  (∀ (c : Configuration) (twist p count : Nat), c.downPercent < c.upPercent →
    let expected := p * c.circumference * twist / (c.ppr * 1000000)
    (classOf c (expectedCount c twist p) count = .up ↔ c.upPercent * expected ≤ count * 100) ∧
    (classOf c (expectedCount c twist p) count = .down ↔ count * 100 < c.downPercent * expected) ∧
    (classOf c (expectedCount c twist p) count = .slow ↔
      c.downPercent * expected ≤ count * 100 ∧ count * 100 < c.upPercent * expected)) ∧
  (∀ p base lost booked : Nat,
    (upPulses p base lost none : Int) = max 0 ((p : Int) - base - lost) ∧
    (booked ≤ p →
      (upPulses p base lost (some booked) : Int) = max 0 ((p : Int) - base - lost - ((p : Int) - booked)))) ∧
  (∀ (c : Configuration) (draft up rem : Nat),
    (remainingMm rem (usedMm c draft up) : Int) = max 0 ((rem : Int) - (up * c.circumference / (c.ppr * 10 * draft) : Nat))) ∧
  (∀ (draft left r : Nat), positionMinutes draft none left = .held ∧
    positionMinutes draft (some r) left = .value (min 65535 (left * draft / (100 * r)))) ∧
  (∀ (c : Configuration) (a : Article) (p : Nat), 1 ≤ c.ppr → 1 ≤ a.tex → 1 ≤ a.copMass * 100000000 / a.tex →
    copFill c a p =
      min 1999 (1000 * (p * c.circumference / (c.ppr * 1000)) / (a.copMass * 100000000 / a.tex)) ∧
    (1000 ≤ copFill c a p ↔ a.copMass * 100000000 / a.tex ≤ p * c.circumference / (c.ppr * 1000))) ∧
  (∀ up gross : Nat, efficiencyOf up gross = (if gross = 0 then 0 else 10000 * up / gross) ∧
    (up ≤ gross → efficiencyOf up gross ≤ 10000))

/-- R14: STAGE_ARTICLE with any field out of range is refused and the articles and the armed flag stay; with all in range the
record replaces the staged article, the armed flag is cleared, and the command completes with DONE. In every part state. -/
def Obligations.StageArticleTakesOrRefuses : Prop :=
  ∀ (s : State) (tag : Nat) (a : Article), s.portOpen →
    exec (.stageArticle tag a) s = .next
      (if (1 ≤ a.id ∧ a.id ≤ 65535) ∧ (100 ≤ a.tex ∧ a.tex ≤ 20000) ∧ (200 ≤ a.twist ∧ a.twist ≤ 2500) ∧
          (1000 ≤ a.draft ∧ a.draft ≤ 8000) ∧ (300 ≤ a.roving ∧ a.roving ≤ 6000) ∧
          (20 ≤ a.copMass ∧ a.copMass ≤ 150) then
        { s with del := { s.del with staged := some a, armed := false }, port := s.port.completed 3 tag .done [] }
      else { s with port := s.port.completed 3 tag .outOfRange [] })

/-- R15 and R16: ARM_ARTICLE without a staged article is refused; with an active article it arms; with none it switches at once,
and the last segment of the open shift takes the article and starts at the present delivery count. In every part state. -/
def Obligations.ArmArticleArmsOrSwitches : Prop :=
  ∀ (s : State) (tag : Nat), s.portOpen →
    (s.del.staged = none → exec (.armArticle tag) s = .next { s with port := s.port.completed 4 tag .noStaged [] }) ∧
    (∀ a b, s.del.staged = some a → s.del.active = some b →
      exec (.armArticle tag) s = .next
        { s with del := { s.del with armed := true }, port := s.port.completed 4 tag .done [] }) ∧
    (∀ a first g, s.del.staged = some a → s.del.active = none → s.shift.opened.segments = first ++ [g] →
      exec (.armArticle tag) s = .next { s with
        del := { s.del with active := some a, staged := none }
        shift := { s.shift with opened := { s.shift.opened with
          segments := first ++ [{ g with
            article := some (a.id, a.tex), startCount := s.del.count, runStart := some s.del.count }] } }
        port := s.port.completed 4 tag .done [] })

/-! ### Chapter 2: the spindle table -/

/-- Section 2.1 with R21, R34, R42, R46 and R100, as an invariant: whatever a step does, the tables keep their sizes, every
record's cause, booked-to and down-since follow its state, each side's queue and waiting set hold exactly its QUEUED and WAITING
records, and the above-limit flag says whether the ends-down count is above its limit. -/
def Obligations.TablesKeptByEveryStep : Prop :=
  ∀ s t : State, s.staged → s.tabled → step s = .next t → t.tabled

/-- Right after power-on the part is sound and its tables are (R42, R61, R100, R187). -/
def Obligations.ResetIsSound : Prop := State.reset.sound ∧ State.reset.tabled

/-- R23 to R25: a good reply of an OK strip that does not classify (fewer than 32 expected, or the doff state RUNDOWN to SETTLING)
sets the strip's record and the last class of its 24 spindles, moves the rotation on, and changes nothing else. A strip read
carries 24 counts (assumption log 24), and without an active article the twist reads 0 (assumption log 26). -/
def Obligations.StripReadWithoutClassifying : Prop :=
  ∀ (s : State) (counts : List Nat) (pass k : Nat), s.works → s.mon.rotation = some { pass := pass, strip := k } →
    1 ≤ k → k ≤ s.mon.strips.length → s.mon.spindles.length = 24 * s.mon.strips.length → (s.strip k).failed = false →
    let expected := (s.del.count - (s.strip k).reference) * s.cfg.circumference *
      ((s.del.active.map Article.twist).getD 0) / (s.cfg.ppr * 1000000)
    (expected < 32 ∨ s.doff.state = .rundown ∨ s.doff.state = .doffing ∨ s.doff.state = .restart ∨
      s.doff.state = .settling) →
    ∃ t, exec (.stripRead (some counts)) s = .next t ∧ onlyIn [.mon] s t ∧
      t.mon = { s.mon with
        spindles := t.mon.spindles, strips := t.mon.strips
        rotation := some (if k < s.mon.strips.length then { pass := pass, strip := k + 1 }
          else { pass := pass + 1, strip := 1 }) } ∧
      t.strip k = { failed := false, missed := 0, reference := s.del.count, lastAnswered := some s.del.seconds
                    lastExpected := min 4294967295 expected, lastCounts := counts } ∧
      (∀ m, m ≠ k → t.strip m = s.strip m) ∧
      (∀ i, t.sp i = if 24 * (k - 1) < i ∧ i ≤ 24 * k then
          { s.sp i with lastClass :=
              if expected < 32 then .none else classOf s.cfg expected (counts.getD ((i - 1) % 24) 0) }
        else s.sp i)

/-- R24 and R25: a good reply of an OK strip with 32 or more expected, in a doff state that classifies, does what a reply that
does not classify does to the strip and the last classes, and then takes the strip's 24 records with their classes in ascending
index order. A strip read carries 24 counts (assumption log 24), and without an active article the twist reads 0 (assumption log
26). That the engagements learn of their queues after each record is assumption log 15. -/
def Obligations.StripReadClassifiesInOrder : Prop :=
  ∀ (s : State) (counts : List Nat) (pass k : Nat), s.works → s.mon.rotation = some { pass := pass, strip := k } →
    1 ≤ k → k ≤ s.mon.strips.length → s.mon.spindles.length = 24 * s.mon.strips.length → (s.strip k).failed = false →
    let expected := (s.del.count - (s.strip k).reference) * s.cfg.circumference *
      ((s.del.active.map Article.twist).getD 0) / (s.cfg.ppr * 1000000)
    32 ≤ expected →
    (s.doff.state = .spinning ∨ s.doff.state = .claimed ∨ s.doff.state = .fullWait ∨ s.doff.state = .granted ∨
      s.doff.state = .unknown) →
    ∃ u, onlyIn [.mon] s u ∧ u.mon = { s.mon with spindles := u.mon.spindles, strips := u.mon.strips } ∧
      (∀ m, m ≠ k → u.strip m = s.strip m) ∧
      (∀ i, u.sp i = if 24 * (k - 1) < i ∧ i ≤ 24 * k then
          { s.sp i with lastClass := classOf s.cfg expected (counts.getD ((i - 1) % 24) 0) } else s.sp i) ∧
      u.strip k = { failed := false, missed := 0, reference := s.del.count, lastAnswered := some s.del.seconds
                    lastExpected := min 4294967295 expected, lastCounts := counts } ∧
      ∃ t, exec (.stripRead (some counts)) s = .next t ∧
        t = { each ((List.range 24).map (fun j => 24 * (k - 1) + 1 + j)) classify u with
          mon := { (each ((List.range 24).map (fun j => 24 * (k - 1) + 1 + j)) classify u).mon with
            rotation := some (if k < s.mon.strips.length then { pass := pass, strip := k + 1 }
              else { pass := pass + 1, strip := 1 }) } }

/-- R24 and R32: a missed reply raises the strip's missed replies up to 3 and leaves every record as it is, unless it is the third
in a row of an OK strip: then the strip fails, each of its records but the LOCKED ones is UNOBSERVED, booked up to the present
count, and STRIP_LOST stands in the alert list or the list is full. That STRIP_READ says itself whether the reply was missed is
assumption log 24. -/
def Obligations.MissedReplyCountsOrFailsStrip : Prop :=
  ∀ (s : State) (pass k : Nat), s.works → s.tabled → s.mon.rotation = some { pass := pass, strip := k } →
    1 ≤ k → k ≤ s.mon.strips.length → s.mon.spindles.length = 24 * s.mon.strips.length →
    ∃ t, exec (.stripRead none) s = .next t ∧
      t.mon.rotation = some (if k < s.mon.strips.length then { pass := pass, strip := k + 1 }
        else { pass := pass + 1, strip := 1 }) ∧
      t.strip k = { s.strip k with
        missed := min 3 ((s.strip k).missed + 1), failed := (s.strip k).failed || decide (2 ≤ (s.strip k).missed) } ∧
      (∀ m, m ≠ k → t.strip m = s.strip m) ∧
      ((s.strip k).missed < 2 ∨ (s.strip k).failed = true →
        onlyIn [.mon] s t ∧ t.mon.spindles = s.mon.spindles) ∧
      (2 ≤ (s.strip k).missed → (s.strip k).failed = false →
        onlyIn [.mon, .pie, .shift, .line, .frame, .draws] s t ∧
        (∀ i, 24 * (k - 1) < i → i ≤ 24 * k →
          ((s.sp i).state = .locked → t.sp i = s.sp i) ∧
          ((s.sp i).state ≠ .locked → (t.sp i).state = .unobserved ∧ (t.sp i).cause = none ∧
            ((s.sp i).state ≠ .unobserved → (t.sp i).bookedTo = some s.del.count) ∧
            (t.sp i).rogueMark = (s.sp i).rogueMark ∧ (t.sp i).lazy = (s.sp i).lazy ∧
            (t.sp i).attempts = (s.sp i).attempts)) ∧
        alerted .stripLost (some k) t)

/-- R33: a good reply of a FAILED strip sets it OK and classifies nothing; with no shift close in progress each UNOBSERVED record
of the strip is booked as unobserved and enters ROGUE if it is marked, and otherwise UNSEEN, and every other record of the strip
keeps its state. A strip read carries 24 counts (assumption log 24), and without an active article the twist reads 0 (assumption
log 26). -/
def Obligations.FailedStripRecovers : Prop :=
  ∀ (s : State) (counts : List Nat) (pass k : Nat), s.works → s.mon.rotation = some { pass := pass, strip := k } →
    1 ≤ k → k ≤ s.mon.strips.length → s.mon.spindles.length = 24 * s.mon.strips.length → (s.strip k).failed = true →
    s.shift.closing = none →
    ∃ t, exec (.stripRead (some counts)) s = .next t ∧ onlyIn [.mon, .shift] s t ∧
      (t.strip k).failed = false ∧ (t.strip k).missed = 0 ∧ (t.strip k).reference = s.del.count ∧
      (t.strip k).lastAnswered = some s.del.seconds ∧ (t.strip k).lastCounts = counts ∧
      (t.strip k).lastExpected = min 4294967295 ((s.del.count - (s.strip k).reference) * s.cfg.circumference *
        ((s.del.active.map Article.twist).getD 0) / (s.cfg.ppr * 1000000)) ∧
      (∀ i, 24 * (k - 1) < i → i ≤ 24 * k →
        (t.sp i).lastClass = .none ∧
        ((s.sp i).state = .unobserved → (s.sp i).rogueMark = true →
          (t.sp i).state = .rogue ∧ (t.sp i).cause = some .rogue ∧ (t.sp i).downSince = some s.del.seconds ∧
          (t.sp i).bookedTo = some s.del.count) ∧
        ((s.sp i).state = .unobserved → (s.sp i).rogueMark = false →
          (t.sp i).state = .unseen ∧ (t.sp i).cause = none ∧ (t.sp i).bookedTo = some s.del.count) ∧
        ((s.sp i).state ≠ .unobserved → t.sp i = { s.sp i with lastClass := .none })) ∧
      (∀ i, ¬ (24 * (k - 1) < i ∧ i ≤ 24 * k) → t.sp i = s.sp i)

/-- R26 to R31, for one record, with no shift close in progress: what a classifying read does to record `i` by its state and the
class of its count. States that ignore the sensor are left alone; ORDERED takes seen-up; CONFIRMING comes UP, a piecing by robot,
or counts a confirm read, and at the third is a failed piecing; WAITING and QUEUED come UP at the second UP read in a row, a
piecing by hand; UNSEEN comes UP; UP keeps its lazy flag by R27 and counts DOWN reads; and an end that goes down enters EXCHANGE,
EMPTY or piecing by the condition of its section, where the piecing engine may order it at once. The shift counter takes the
booking and the counted event, and a break is counted for a sensed one alone (R145). That an UNSEEN record which a SLOW read
brings UP starts its slow run at 1 whatever its lazy flag is assumption log 18, and that the engine learns of its queue, and may
order, right after this record assumption log 15. -/
def Obligations.ClassifyingReadOfOneRecord : Prop :=
  ∀ (s : State) (i : Nat), s.tabled → s.hasSpindle i = true → s.shift.closing = none →
    let r := s.sp i
    let t := classify i s
    let down := (s.sec (stripOf i)).state = .exchanging → (t.sp i).state = .exchange ∧ (t.sp i).cause = some .roving
    let empty := (s.sec (stripOf i)).state = .normal → s.atMargin ((s.remaining i).getD 0) = true →
      (t.sp i).state = .empty ∧ (t.sp i).cause = some .roving
    let isBreak := (s.sec (stripOf i)).state = .unknown ∨
      (s.sec (stripOf i)).state = .normal ∧ s.atMargin ((s.remaining i).getD 0) = false
    (r.state = .empty ∨ r.state = .exchange ∨ r.state = .locked ∨ r.state = .rogue ∨ r.state = .unobserved → t = s) ∧
    (r.state = .ordered → onlyIn [.mon] s t ∧ t.sp i = { r with seenUp := r.seenUp || r.lastClass == .up }) ∧
    (r.state = .confirming →
      (r.lastClass = .up → (t.sp i).state = .up ∧ (t.sp i).cause = none ∧ (t.sp i).bookedTo = none ∧
        (t.sp i).downSince = none ∧ (t.sp i).attempts = r.attempts ∧
        (t.sp i).piecedAt = some (r.piecedAt.getD s.del.seconds) ∧
        t.shift = (countEvent .byRobot (book i s)).shift) ∧
      (r.lastClass ≠ .up → r.confirmReads < 2 →
        onlyIn [.mon] s t ∧ t.sp i = { r with confirmReads := r.confirmReads + 1 }) ∧
      (r.lastClass ≠ .up → 2 ≤ r.confirmReads →
        (t.sp i).piecedAt = none ∧ (t.sp i).shiftBreaks = r.shiftBreaks ∧ (t.sp i).downSince = r.downSince ∧
        ((s.sec (stripOf i)).state = .exchanging → (t.sp i).state = .exchange ∧ (t.sp i).attempts = 0 ∧
          t.shift = (book i s).shift) ∧
        ((s.sec (stripOf i)).state ≠ .exchanging → (t.sp i).attempts = min 5 (r.attempts + 1) ∧
          (s.cfg.attemptLimit ≤ min 5 (r.attempts + 1) → (t.sp i).state = .rogue ∧ (t.sp i).rogueMark = true ∧
            t.shift = (book i s).shift) ∧
          (min 5 (r.attempts + 1) < s.cfg.attemptLimit → t.shift = s.shift ∧
            ((t.sp i).state = .queued ∨ (t.sp i).state = .waiting ∨ (t.sp i).state = .ordered))))) ∧
    (r.state = .waiting ∨ r.state = .queued →
      (r.lastClass ≠ .up → onlyIn [.mon] s t ∧ t.sp i = { r with downRun := 0 }) ∧
      (r.lastClass = .up → r.downRun = 0 → onlyIn [.mon] s t ∧ t.sp i = { r with downRun := 1 }) ∧
      (r.lastClass = .up → 1 ≤ r.downRun → (t.sp i).state = .up ∧ (t.sp i).cause = none ∧ (t.sp i).bookedTo = none ∧
        (t.sp i).attempts = 0 ∧ (t.sp i).piecedAt = none ∧ (t.sp i).shiftBreaks = r.shiftBreaks ∧
        t.shift = (countEvent .byHand (book i s)).shift)) ∧
    (r.state = .unseen → r.lastClass = .up ∨ r.lastClass = .slow →
      (t.sp i).state = .up ∧ (t.sp i).bookedTo = none ∧ t.shift = (book i s).shift ∧
      (t.sp i).slowRun = if r.lastClass = .slow then 1 else r.slowRun) ∧
    (r.state = .up → r.lastClass ≠ .down →
      t.sp i = { r with
        downRun := 0
        lazy := if 19 ≤ r.slowRun ∧ r.lastClass = (if r.lazy then .up else .slow) then !r.lazy else r.lazy
        slowRun := if r.lastClass = (if r.lazy then .up else .slow) ∧ r.slowRun < 19 then r.slowRun + 1 else 0 }) ∧
    (r.state = .up → r.lastClass = .down → r.downRun = 0 →
      onlyIn [.mon] s t ∧ t.sp i = { r with downRun := 1, slowRun := 0 }) ∧
    (r.state = .up → r.lastClass = .down → 1 ≤ r.downRun →
      down ∧ empty ∧ (t.sp i).downSince = some s.del.seconds ∧ (t.sp i).lazy = r.lazy ∧
      (isBreak → ((t.sp i).state = .queued ∨ (t.sp i).state = .waiting ∨ (t.sp i).state = .rogue ∨
        (t.sp i).state = .ordered) ∧ (t.sp i).shiftBreaks = min 255 (r.shiftBreaks + 1) ∧
        t.shift = (countEvent .brk s).shift)) ∧
    (r.state = .unseen → r.lastClass = .down →
      down ∧ empty ∧ (t.sp i).downSince = some s.del.seconds ∧ (t.sp i).shiftBreaks = r.shiftBreaks ∧
      (isBreak → ((t.sp i).state = .queued ∨ (t.sp i).state = .waiting ∨ (t.sp i).state = .ordered) ∧
        t.shift = (book i s).shift))

/-- R22, with no shift close in progress: booking a record hands the pulses from its booked-to to the present count to the open
shift under the record's cause, or as unobserved, adds those under a cause to its lost-since-base, and sets its booked-to to the
present count; and booking it again at the same count changes nothing, so that no pulse is booked twice. A record without a booked-to
is passed over, close or no close (R154). R145: a counted event raises the one count of its kind in the last segment of the open
shift, and nothing else. -/
def Obligations.BookingTakesEachPulseOnce : Prop :=
  (∀ (s : State) (i : Nat), (s.sp i).bookedTo = none → book i s = s) ∧
  (∀ (s : State) (k : Counted) (first : List Segment) (g : Segment), s.shift.opened.segments = first ++ [g] →
    countEvent k s = { s with shift := { s.shift with opened := { s.shift.opened with segments := first ++ [{ g with
      breaks := if k = .brk then min 65535 (g.breaks + 1) else g.breaks
      doffStarts := if k = .doffStart then min 65535 (g.doffStarts + 1) else g.doffStarts
      byRobot := if k = .byRobot then min 65535 (g.byRobot + 1) else g.byRobot
      byHand := if k = .byHand then min 65535 (g.byHand + 1) else g.byHand }] } } }) ∧
  ∀ (s : State) (i : Nat) (first : List Segment) (g : Segment), s.hasSpindle i = true → s.shift.closing = none →
    s.shift.opened.segments = first ++ [g] →
    let r := s.sp i
    let t := book i s
    (∀ b, r.bookedTo = some b →
      let n := s.del.count - b
      onlyIn [.mon, .shift] s t ∧
      (∀ j, j ≠ i → t.sp j = s.sp j) ∧
      (∀ c, r.cause = some c →
        t.sp i = { r with bookedTo := some s.del.count, lostSinceBase := min 281474976710655 (r.lostSinceBase + n) } ∧
        t.shift = { s.shift with opened := { s.shift.opened with segments := first ++ [{ g with
          brk := if c = .brk then g.brk + n else g.brk
          roving := if c = .roving then g.roving + n else g.roving
          lockout := if c = .lockout then g.lockout + n else g.lockout
          rogue := if c = .rogue then g.rogue + n else g.rogue
          openLosses := g.openLosses + n }] } }) ∧
      (r.cause = none →
        t.sp i = { r with bookedTo := some s.del.count } ∧
        t.shift = { s.shift with opened := { s.shift.opened with
          unobserved := min 18446744073709551615 (s.shift.opened.unobserved + n) } }) ∧
      (r.lostSinceBase ≤ 281474976710655 → s.shift.opened.unobserved ≤ 18446744073709551615 → book i t = t))

/-- R35 in RUNNING: SET_LOCKOUT is refused by the pin, by an index outside 1..N and by lower above upper, in that order, and
changes nothing but its response; else it takes the range. A record that enters the range is booked and LOCKED, from UP without
its pieced-at (R56); a LOCKED record that leaves it is booked and UNOBSERVED, ROGUE or UNSEEN by its strip and its mark; a record
inside both ranges, or outside both, is unchanged unless it is WAITING or QUEUED, where the refill and the engagements may reach
it. -/
def Obligations.SetLockoutRefusesOrApplies : Prop :=
  ∀ (s : State) (tag lower upper invert : Nat), s.portOpen → s.works → s.tabled → invert ≤ 1 →
    (s.mon.pin = true →
      exec (.setLockout tag lower upper invert) s = .next { s with port := s.port.completed 23 tag .pinned [] }) ∧
    (s.mon.pin = false → (s.hasSpindle lower && s.hasSpindle upper) = false →
      exec (.setLockout tag lower upper invert) s = .next { s with port := s.port.completed 23 tag .noSuch [] }) ∧
    (s.mon.pin = false → s.hasSpindle lower = true → s.hasSpindle upper = true → upper < lower →
      exec (.setLockout tag lower upper invert) s = .next { s with port := s.port.completed 23 tag .outOfRange [] }) ∧
    (s.mon.pin = false → s.hasSpindle lower = true → s.hasSpindle upper = true → lower ≤ upper →
      ∃ t, exec (.setLockout tag lower upper invert) s = .next t ∧
        onlyIn [.mon, .pie, .shift, .line, .frame, .draws, .port] s t ∧ t.port = s.port.completed 23 tag .done [] ∧
        t.mon.lockout = some { lower := lower, upper := upper, invert := invert == 1 } ∧ t.mon.pin = false ∧
        (∀ k, t.strip k = s.strip k) ∧
        ∀ i, s.hasSpindle i = true →
          let inside : Bool := if invert = 1 then i < lower || upper < i else lower ≤ i && i ≤ upper
          let was : Bool := insideOf s.mon.lockout i
          (inside = true → was = false →
            (t.sp i).state = .locked ∧ (t.sp i).cause = some .lockout ∧ (t.sp i).bookedTo = some s.del.count ∧
            (t.sp i).rogueMark = (s.sp i).rogueMark ∧ ((s.sp i).state = .up → (t.sp i).piecedAt = none)) ∧
          (inside = false → was = true → (s.sp i).state = .locked →
            (t.sp i).bookedTo = some s.del.count ∧
            (t.sp i).state = (if (s.strip (stripOf i)).failed then .unobserved
              else if (s.sp i).rogueMark then .rogue else .unseen) ∧
            ((t.sp i).state = .rogue → (t.sp i).downSince = some s.del.seconds)) ∧
          (inside = was → (s.sp i).state ≠ .waiting → (s.sp i).state ≠ .queued → t.sp i = s.sp i))

/-- R36 and R37 in RUNNING: CLEAR_LOCKOUT is refused while the pin is set; with no range it changes nothing; else the range is
gone and each LOCKED record of it is booked and leaves as R35 gives. PIN_LOCKOUT sets the pin whether or not a range or the pin
was set, and a change of MAINT clears it in every part state; neither changes the range or a record. A MAINT_CHANGE that carries
the level already taken leaves the pin (assumption log 24). -/
def Obligations.ClearLockoutAndPin : Prop :=
  (∀ (s : State) (tag : Nat), s.portOpen → s.works → s.tabled →
     (s.mon.pin = true → exec (.clearLockout tag) s = .next { s with port := s.port.completed 24 tag .pinned [] }) ∧
     (s.mon.pin = false → s.mon.lockout = none →
       exec (.clearLockout tag) s = .next { s with port := s.port.completed 24 tag .done [] }) ∧
     (∀ l, s.mon.pin = false → s.mon.lockout = some l →
       ∃ t, exec (.clearLockout tag) s = .next t ∧ onlyIn [.mon, .pie, .shift, .line, .frame, .draws, .port] s t ∧
         t.port = s.port.completed 24 tag .done [] ∧ t.mon.lockout = none ∧ t.mon.pin = false ∧
         ∀ i, s.hasSpindle i = true →
           (l.inside i = true → (s.sp i).state = .locked →
             (t.sp i).bookedTo = some s.del.count ∧
             (t.sp i).state = (if (s.strip (stripOf i)).failed then .unobserved
               else if (s.sp i).rogueMark then .rogue else .unseen)) ∧
           ((s.sp i).state ≠ .locked → (s.sp i).state ≠ .waiting → (s.sp i).state ≠ .queued → t.sp i = s.sp i))) ∧
  ((∀ (s : State) (tag : Nat), s.portOpen → s.works →
     exec (.pinLockout tag) s = .next { s with
       mon := { s.mon with pin := true }, port := s.port.completed 25 tag .done [] }) ∧
   (∀ (s : State) (level : Bool), s.frame.resetLow = false →
     exec (.maintChange level) s = .next { s with
       frame := { s.frame with maint := level }
       mon := if s.frame.maint = level then s.mon else { s.mon with pin := false } }))

/-! ### Chapters 3 and 4: breaks, the piecing queues and the robots -/

/-- R45 to R49, with no shift close in progress: a placement clears pieced-at and sets attempts by its kind; a SENSED one at the
attempt limit or the rogue threshold makes the record ROGUE, marked, with ROGUE_SPINDLE raised; every other placement joins the
side's queue, escalated at once where the record is old enough, or the waiting set where the queue is full. Shift breaks, the lazy
flag and every other record stay as they are. Stated of the operation through which STRIP_READ, CREEL_CONFIRM, EXCHANGE_END and
SETTLE_WINDOW_END place a break. -/
def Obligations.PlacementQueuesOrMarksRogue : Prop :=
  ∀ (k : Placement) (i : Nat) (s : State), s.hasSpindle i = true → s.shift.closing = none →
    let r := s.sp i
    let t := place k i s
    let x := s.sideOf i
    let attempts := match k with
      | .sensed => if r.piecedAt = none then r.attempts else min 5 (r.attempts + 1)
      | .reload => 0
      | .found | .settle => r.attempts
    let rogue := k = .sensed ∧ (s.cfg.attemptLimit ≤ attempts ∨ s.cfg.rogueLimit ≤ r.shiftBreaks)
    (t.sp i).attempts = attempts ∧ (t.sp i).piecedAt = none ∧ (t.sp i).shiftBreaks = r.shiftBreaks ∧
    (t.sp i).lazy = r.lazy ∧ (∀ j, j ≠ i → t.sp j = s.sp j) ∧
    (r.state.isDown = true → (t.sp i).downSince = r.downSince) ∧
    (rogue → (t.sp i).state = .rogue ∧ (t.sp i).cause = some .rogue ∧ (t.sp i).rogueMark = true ∧
      alerted .rogueSpindle (some i) t) ∧
    (¬ rogue → (t.sp i).cause = some .brk ∧ (t.sp i).rogueMark = r.rogueMark ∧
      ((s.side x).queue.length < 48 → (t.sp i).state = .queued ∧
        { index := i, escalated := decide (s.cfg.escalationAge ≤
            s.del.seconds - (t.sp i).downSince.getD s.del.seconds) } ∈ (t.side x).queue) ∧
      (48 ≤ (s.side x).queue.length → (t.sp i).state = .waiting ∧ i ∈ (t.side x).waiting))

/-- R54 and R57, with no shift close in progress: a failed piecing of an ORDERED or CONFIRMING record clears pieced-at and keeps
shift breaks and down-since; a section under exchange takes it to EXCHANGE with attempts 0 and the failure is not counted; else
attempts rise, to ROGUE at the attempt limit and back into piecing below it. R59: a record in another state is not touched. -/
def Obligations.FailedPiecingByItsSection : Prop :=
  ∀ (i : Nat) (s : State), s.tabled → s.hasSpindle i = true → s.shift.closing = none →
    let r := s.sp i
    let t := failedPiecing i s
    let attempts := min 5 (r.attempts + 1)
    (r.state ≠ .ordered → r.state ≠ .confirming → t = s) ∧
    (r.state = .ordered ∨ r.state = .confirming →
      (t.sp i).piecedAt = none ∧ (t.sp i).shiftBreaks = r.shiftBreaks ∧ (t.sp i).downSince = r.downSince ∧
      (∀ j, j ≠ i → t.sp j = s.sp j) ∧
      ((s.sec (stripOf i)).state = .exchanging →
        (t.sp i).state = .exchange ∧ (t.sp i).cause = some .roving ∧ (t.sp i).attempts = 0 ∧
        (t.sp i).bookedTo = some s.del.count) ∧
      ((s.sec (stripOf i)).state ≠ .exchanging → (t.sp i).attempts = attempts ∧
        (s.cfg.attemptLimit ≤ attempts → (t.sp i).state = .rogue ∧ (t.sp i).rogueMark = true ∧
          (t.sp i).bookedTo = some s.del.count ∧ alerted .rogueSpindle (some i) t) ∧
        (attempts < s.cfg.attemptLimit →
          ((s.side (s.sideOf i)).queue.length < 48 → (t.sp i).state = .queued) ∧
          (48 ≤ (s.side (s.sideOf i)).queue.length → (t.sp i).state = .waiting) ∧
          (t.sp i).bookedTo = r.bookedTo)))

/-- R58: CLEAR_ROGUE is refused with NOT_RUNNING in INIT and READY, with NO_SUCH outside 1..N and with NOT_ROGUE for a record whose
mark is clear, in this order, and then changes nothing but its response; else it clears the mark and the attempts, and a ROGUE record
is booked and enters UNSEEN, while a record in another state stays in it. Shift breaks and the lazy flag stay; where a close is in
progress the change of state of a ROGUE record has its close step first (R39). No alert is removed. -/
def Obligations.ClearRogueRefusesOrClears : Prop :=
  ∀ (s : State) (tag i : Nat), s.portOpen →
    (s.port.part ≠ .running →
      exec (.clearRogue tag i) s = .next { s with port := s.port.completed 26 tag .notRunning [] }) ∧
    (s.port.part = .running → s.hasSpindle i = false →
      exec (.clearRogue tag i) s = .next { s with port := s.port.completed 26 tag .noSuch [] }) ∧
    (s.port.part = .running → s.hasSpindle i = true → (s.sp i).rogueMark = false →
      exec (.clearRogue tag i) s = .next { s with port := s.port.completed 26 tag .notRogue [] }) ∧
    (s.port.part = .running → s.hasSpindle i = true → (s.sp i).rogueMark = true →
      ∃ t, exec (.clearRogue tag i) s = .next t ∧ onlyIn [.mon, .shift, .port] s t ∧
        t.port = s.port.completed 26 tag .done [] ∧
        (t.sp i).rogueMark = false ∧ (t.sp i).attempts = 0 ∧ (t.sp i).lazy = (s.sp i).lazy ∧
        (∀ j, j ≠ i → t.sp j = s.sp j) ∧
        (s.shift.closing = none → (t.sp i).shiftBreaks = (s.sp i).shiftBreaks) ∧
        ((s.sp i).state = .rogue → (t.sp i).state = .unseen ∧ (t.sp i).cause = none ∧ (t.sp i).downSince = none ∧
          (t.sp i).bookedTo = some s.del.count ∧
          (s.shift.closing = none → t.shift = (book i s).shift ∧
            (t.sp i).lostSinceBase = ((book i s).sp i).lostSinceBase)) ∧
        ((s.sp i).state ≠ .rogue → t.sp i = { s.sp i with rogueMark := false, attempts := 0 } ∧ t.shift = s.shift))

/-- R52, R56, R65, R66, R68 and R70, in RUNNING. ESCALATION sets the mark of every queue entry whose record's age is at or above
the escalation age; PIECING_HOLD clears the attempts and the pieced-at of every UP record pieced 60 s ago or earlier. At next call
a CALLING engagement queues a PIECE_CALL with its queue summary and moves next call on by 10; at 600 seconds of a spell NO_ROBOT
is raised, once; at its end a bar is lifted. An arrival timer that is reached in AWAITING queues ROBOT_RELEASE and leaves the
engagement without its robot, in CALLING with a new spell and its PIECE_CALL behind the release if its queues hold an entry, and
else in IDLE, nobody barred and the consecutive timeouts as they were. Before their moment the rows change nothing (assumption
logs 1 and 6). The oldest age of a PIECE_CALL over no record is assumption log 31. Its two indices where no queue served holds an
entry are free values (assumption log 2). -/
def Obligations.PiecingTimersAndMarks : Prop :=
  ((∀ s : State, s.works →
     let mark : QueueEntry → QueueEntry := fun e =>
       { e with escalated := e.escalated ||
           decide (s.cfg.escalationAge ≤ s.del.seconds - (s.sp e.index).downSince.getD s.del.seconds) }
     exec .escalation s = .next { s with pie := { s.pie with
       a := { s.pie.a with queue := s.pie.a.queue.map mark }, b := { s.pie.b with queue := s.pie.b.queue.map mark } } }) ∧
   (∀ s : State, s.works → ∃ t, exec .piecingHold s = .next t ∧
     t = { s with mon := { s.mon with spindles := t.mon.spindles } } ∧
     t.mon.spindles.length = s.mon.spindles.length ∧
     ∀ i, s.hasSpindle i = true →
       let r := s.sp i
       t.sp i = if r.state = .up ∧ (∃ p, r.piecedAt = some p ∧ p + 60 ≤ s.del.seconds) then
         { r with attempts := 0, piecedAt := none } else r)) ∧
  (∀ (s : State) (x : Side), s.works →
     (∀ due, (s.eng x).state = .calling → (s.eng x).nextCall = some due → due ≤ s.del.seconds →
       ∃ t, exec (.pieceCallRepeat x) s = .next t ∧ onlyIn [.pie, .line, .frame, .draws] s t ∧
         t.pie = (setEng x { s.eng x with nextCall := some (due + 10) } s).pie ∧
         ∃ lowest highest : Nat,
           sends .pieceCall 0 (callPayload (s.sideName x) ((s.servedEntries x).length + (s.servedWaiting x).length)
             (s.oldestAge ((s.servedEntries x).map QueueEntry.index ++ s.servedWaiting x)) lowest highest) s t ∧
           ∀ e f, (s.servedEntries x).head? = some e → (s.servedEntries x).getLast? = some f →
             lowest = e.index ∧ highest = f.index ∧ t.draws = s.draws) ∧
     ((s.eng x).state ≠ .calling ∨ (∀ due, (s.eng x).nextCall = some due → s.del.seconds < due) →
       exec (.pieceCallRepeat x) s = .next s) ∧
     (exec (.sinceCallLimit x) s = .next
       (if (s.eng x).state = .calling ∧ 600 ≤ (s.eng x).sinceCall ∧ (s.eng x).called = false then
         { s with
           pie := (setEng x { s.eng x with called := true } s).pie
           frame := s.frame.raised .noRobot .action (some (match x with | .a => 0 | .b => 1)) s.del.seconds }
       else s)) ∧
     (∀ b, (s.side x).bar = some b →
       exec (.barEnd x) s = .next
         (if b.ends ≤ s.del.seconds then setSide x { s.side x with bar := none } s else s)) ∧
     ((s.side x).bar = none → exec (.barEnd x) s = .next s)) ∧
  (∀ (s : State) (x : Side), s.works →
     (∀ due robot, (s.eng x).state = .awaiting → (s.eng x).timer = some due → due ≤ s.del.seconds →
       (s.eng x).robot = some robot →
       ∃ t, exec (.arrivalTimeout x) s = .next t ∧ onlyIn [.pie, .line, .frame, .draws] s t ∧
         (∀ y, (t.side y).bar = (s.side y).bar ∧ (t.side y).queue = (s.side y).queue ∧
           (t.side y).waiting = (s.side y).waiting ∧ (y ≠ x → t.eng y = s.eng y)) ∧
         (t.eng x).robot = none ∧ (t.eng x).position = none ∧ (t.eng x).timer = none ∧
         (t.eng x).timeouts = (s.eng x).timeouts ∧
         (s.queuesEmpty x = true → (t.eng x).state = .idle ∧ (t.eng x).nextCall = none ∧
           sends .robotRelease robot (field 1 (s.sideName x)) s t) ∧
         (s.queuesEmpty x = false → (t.eng x).state = .calling ∧ (t.eng x).sinceCall = 0 ∧
           (t.eng x).nextCall = some (s.del.seconds + 10) ∧ handsCall x [releaseOf x robot s] s t)) ∧
     ((s.eng x).state ≠ .awaiting ∨ (∀ due, (s.eng x).timer = some due → s.del.seconds < due) →
       exec (.arrivalTimeout x) s = .next s))

/-- R79, in RUNNING: an order timer that is reached takes the order away with a WORK_CANCEL, and the ordered record is a failed
piecing whatever its seen-up flag. The first in a row leaves the engagement with the robot in its next decision, one timeout
counted, which releases the robot, waits, or sends the next WORK_ORDER; the second releases and bars the robot for 300 seconds,
raises ROBOT_LOST and begins a new calling spell. Before that nothing changes (assumption log 1). R80: a lockout, a strip failure
or an exchange begin that takes an ORDERED record withdraws its order: a WORK_CANCEL with index and tag, the order and the timer
gone, the timeouts kept. Stated of the three operations that take a record so. The oldest age of a PIECE_CALL over no record is
assumption log 31. -/
def Obligations.OrderTimeoutFailsThenBars : Prop :=
  (∀ (s : State) (x : Side) (o : Order) (robot : Nat) (take : Nat → State → State),
    take = lockRecord ∨ take = unobserve ∨ take = exchangeRecord →
    (s.eng x).state = .orderOut → (s.eng x).order = some o → (s.eng x).robot = some robot →
    (∀ y, y ≠ x → (s.eng y).order.map Order.index ≠ some o.index) → (s.sp o.index).state = .ordered →
    let t := take o.index s
    hands [cancelOf robot o] s t ∧ t.eng x = { s.eng x with state := .working, order := none, timer := none } ∧
    ∀ y, y ≠ x → t.eng y = s.eng y) ∧
  ∀ (s : State) (x : Side) (o : Order) (due robot : Nat), s.works → s.tabled → s.shift.closing = none →
    (s.eng x).state = .orderOut → (s.eng x).order = some o → (s.eng x).timer = some due →
    (s.eng x).robot = some robot →
    (s.del.seconds < due → exec (.orderTimeout x) s = .next s) ∧
    (due ≤ s.del.seconds → ∃ t, exec (.orderTimeout x) s = .next t ∧
      onlyIn [.mon, .pie, .shift, .line, .frame, .draws] s t ∧
      ((s.sp o.index).state = .ordered →
        let attempts := min 5 ((s.sp o.index).attempts + 1)
        ((s.sec (stripOf o.index)).state = .exchanging → (t.sp o.index).state = .exchange) ∧
        ((s.sec (stripOf o.index)).state ≠ .exchanging → (t.sp o.index).attempts = attempts ∧
          (s.cfg.attemptLimit ≤ attempts → (t.sp o.index).state = .rogue) ∧
          (attempts < s.cfg.attemptLimit → (t.sp o.index).state = .queued ∨ (t.sp o.index).state = .waiting ∨
            (t.sp o.index).state = .ordered))) ∧
      ((s.eng x).timeouts = 0 → (t.eng x).timeouts = 1 ∧ (t.side x).bar = (s.side x).bar ∧
        ((t.eng x).state = .idle ∧ (t.eng x).robot = none ∨ (t.eng x).state = .working ∧ (t.eng x).robot = some robot ∨
          (t.eng x).state = .orderOut ∧ (t.eng x).robot = some robot) ∧
        ((t.eng x).state = .idle → hands [cancelOf robot o, releaseOf x robot s] s t) ∧
        ((t.eng x).state = .working → hands [cancelOf robot o] s t) ∧
        (∀ p, (t.eng x).state = .orderOut → (t.eng x).order = some p →
          hands [cancelOf robot o, orderOf robot p] s t)) ∧
      ((s.eng x).timeouts ≠ 0 → (t.eng x).state = .calling ∧ (t.eng x).robot = none ∧ (t.eng x).order = none ∧
        (t.eng x).timeouts = 0 ∧ (t.eng x).sinceCall = 0 ∧ (t.eng x).nextCall = some (s.del.seconds + 10) ∧
        (t.side x).bar = some { robot := robot, ends := s.del.seconds + 300 } ∧ alerted .robotLost (some robot) t ∧
        handsCall x [cancelOf robot o, releaseOf x robot s] s t))

/-- R64 and R67, in RUNNING: an offer for a CALLING engagement, from a robot neither barred on that side nor engaged on the other,
gets ROBOT_ACCEPT and brings AWAITING with the arrival timer; every other offer gets ROBOT_DECLINE and changes no engagement. The
side named in the answer is BOTH in joined mode, but for a side code that is none. -/
def Obligations.OfferAcceptedOrDeclined : Prop :=
  ∀ (s : State) (r : Received) (rest : List Received), s.works → s.line.rx = r :: rest → r.tel.kind = .robotOffer →
    let code := r.tel.num 0 1
    let robot := r.tel.source
    let u : State := { s with line := { s.line with rx := rest } }
    let taken : Option Side :=
      if s.cfg.joined = 1 then (if code ≤ 2 then some .a else none)
      else if code = 0 then some .a else if code = 1 then some .b else none
    let other : Side → Side := fun x => match x with | .a => .b | .b => .a
    let open_ : Side → Prop := fun x =>
      (s.eng x).state = .calling ∧ (∀ b, (s.side x).bar = some b → b.robot ≠ robot) ∧ (s.eng (other x)).robot ≠ some robot
    (∀ x, taken = some x → open_ x →
      ∃ t, exec .robotOffer s = .next t ∧ onlyIn [.pie, .line, .frame] s t ∧
        sends .robotAccept robot (field 1 (if s.cfg.joined = 1 then 2 else code)) u t ∧
        t.pie = (setEng x { s.eng x with
          state := .awaiting, robot := some robot, timeouts := 0, timer := some (s.del.seconds + s.cfg.arrivalTime)
          nextCall := none } s).pie) ∧
    ((∀ x, taken = some x → ¬ open_ x) →
      ∃ t, exec .robotOffer s = .next t ∧ onlyIn [.line, .frame] s t ∧
        sends .robotDecline robot (field 1 (if s.cfg.joined = 1 ∧ code ≤ 2 then 2 else code)) u t)

/-- R69, R71 and R73, in RUNNING: the arrival of the robot that an engagement awaits brings WORKING at the reported position taken
into 1..N; the engagement then lets it go where its queues are empty, waits while RUN is inactive, and else orders the selected
index with the record's next attempt number and the part's next order tag, by a WORK_ORDER to the robot. Any other arrival is a
stray robot telegram. -/
def Obligations.ArrivalBringsAnOrder : Prop :=
  ∀ (s : State) (r : Received) (rest : List Received), s.works → s.line.rx = r :: rest → r.tel.kind = .robotArrived →
    let u : State := { s with line := { s.line with rx := rest } }
    (∀ x, s.engagedBy r.tel.source = some x → (s.eng x).state = .awaiting →
      let at_ := max 1 (min s.cfg.spindles (r.tel.num 0 2))
      let w : State := setEng x { s.eng x with state := .working, position := some at_, ascending := true, timer := none } u
      ∃ t, exec .robotArrived s = .next t ∧
        (s.queuesEmpty x = true → onlyIn [.pie, .line, .frame] s t ∧
          sends .robotRelease r.tel.source (field 1 (s.sideName x)) u t ∧
          t.pie = (setEng x { s.eng x with
            state := .idle, robot := none, order := none, position := none, ascending := true, timer := none
            nextCall := none } s).pie) ∧
        (s.queuesEmpty x = false → s.frame.run = false → t = w) ∧
        (∀ i asc, s.queuesEmpty x = false → s.frame.run = true → s.tabled → s.shift.closing = none →
          w.selection x = some (i, asc) →
          onlyIn [.mon, .pie, .line, .frame] s t ∧ (t.sp i).state = .ordered ∧
          t.eng x = { s.eng x with
            state := .orderOut, position := some at_, ascending := asc
            order := some { index := i, attempt := (s.sp i).attempts + 1, tag := s.pie.nextTag }
            timer := some (s.del.seconds + s.cfg.orderTime) } ∧
          t.pie.nextTag = (s.pie.nextTag + 1) % 256 ∧
          sends .workOrder r.tel.source
            (field 2 i ++ field 1 ((s.sp i).attempts + 1) ++ field 1 s.pie.nextTag) u t ∧
          (t.sp i).downSince = (s.sp i).downSince ∧ (t.sp i).attempts = (s.sp i).attempts)) ∧
    ((∀ x, s.engagedBy r.tel.source = some x → (s.eng x).state ≠ .awaiting) →
      exec .robotArrived s = .next { u with pie := { s.pie with stray := min 65535 (s.pie.stray + 1) } })

/-- R72: the selection takes the escalated entry whose record has the oldest down-since, the lower index among equals; where none
is escalated, the entry nearest ahead in the present direction; and where none lies ahead, the nearest in the other direction,
which is kept. It takes nothing only where no queue served holds an entry. A selection without a robot position, which no run
makes, counts from index 1 (assumption log 26). -/
def Obligations.SelectionTakesEscalatedThenNearest : Prop :=
  ∀ (s : State) (x : Side),
    let entries := s.servedEntries x
    let ascending := (s.eng x).ascending
    let p := (s.eng x).position.getD 1
    let n := s.cfg.spindles
    let since := fun i => (s.sp i).downSince.getD 0
    let ahead : Bool → Nat → Option Nat := fun asc i =>
      if s.cfg.joined = 1 then some ((if asc then i + n - p else p + n - i) % n)
      else if asc then (if p ≤ i then some (i - p) else none) else (if i ≤ p then some (p - i) else none)
    let nearestIn := fun (asc : Bool) (i : Nat) => ∃ d, ahead asc i = some d ∧
      ∀ e ∈ entries, ∀ d', ahead asc e.index = some d' → d ≤ d'
    (∀ i asc, s.selection x = some (i, asc) → ∃ e ∈ entries, e.index = i ∧
      ((∃ e ∈ entries, e.escalated = true) → asc = ascending ∧ e.escalated = true ∧
        ∀ f ∈ entries, f.escalated = true → since i < since f.index ∨ since i = since f.index ∧ i ≤ f.index) ∧
      ((∀ e ∈ entries, e.escalated = false) → nearestIn asc i ∧
        ((∃ e ∈ entries, (ahead ascending e.index).isSome = true) → asc = ascending) ∧
        ((∀ e ∈ entries, ahead ascending e.index = none) → asc = !ascending))) ∧
    (s.selection x = none ↔ entries = [])

/-- R74 to R78, in RUNNING, with no shift close in progress: a result matched to the order of its robot's engagement deals with the
ordered record by its seen-up flag and the outcome, and the engagement decides anew from the reported position with its timeouts
cleared; every other result counts as late and changes nothing else. The shift counter takes the booking of a record that changes its
cause or comes UP, and one piecing by robot for a seen-up one (R75); where a position goes empty, these alone where the recompute of R93
finds no queued or waiting end of the section at the margin. -/
def Obligations.ResultDealsWithTheOrderedRecord : Prop :=
  ∀ (s : State) (r : Received) (rest : List Received), s.works → s.tabled → s.shift.closing = none →
    s.line.rx = r :: rest → r.tel.kind = .workResult →
    let u : State := { s with line := { s.line with rx := rest } }
    let tag := r.tel.num 0 1
    let outcome := r.tel.num 3 1
    (∀ x o, s.engagedBy r.tel.source = some x → (s.eng x).state = .orderOut → (s.eng x).order = some o → o.tag = tag →
      outcome ≤ 3 → (s.sp o.index).state = .ordered →
      ∃ t, exec .workResult s = .next t ∧ onlyIn [.mon, .pie, .creel, .shift, .line, .frame, .draws] s t ∧
        (t.eng x).timeouts = 0 ∧
        ((t.eng x).state = .idle ∨
          ((t.eng x).state = .working ∨ (t.eng x).state = .orderOut) ∧
          (t.eng x).position = some (max 1 (min s.cfg.spindles (r.tel.num 4 2))) ∧
          (t.eng x).robot = some r.tel.source) ∧
        let i := o.index
        let exchanging := (s.sec (stripOf i)).state = .exchanging
        ((s.sp i).seenUp = true → (t.sp i).state = .up ∧ (t.sp i).piecedAt = some s.del.seconds ∧
          (t.sp i).attempts = (s.sp i).attempts ∧ (t.sp i).bookedTo = none ∧
          t.shift = (countEvent .byRobot (book i s)).shift) ∧
        ((s.sp i).seenUp = false → outcome = 0 → (t.sp i).state = .confirming ∧ (t.sp i).cause = some .brk ∧
          (t.sp i).piecedAt = some s.del.seconds ∧ (t.sp i).confirmReads = 0 ∧
          (t.sp i).bookedTo = (s.sp i).bookedTo ∧ (t.sp i).attempts = (s.sp i).attempts ∧ t.shift = s.shift) ∧
        ((s.sp i).seenUp = false → outcome ≠ 0 → exchanging →
          (t.sp i).state = .exchange ∧ (t.sp i).cause = some .roving ∧ (t.sp i).attempts = 0 ∧
          (t.sp i).bookedTo = some s.del.count ∧ t.shift = (book i s).shift) ∧
        ((s.sp i).seenUp = false → outcome = 1 → ¬ exchanging →
          (t.sp i).attempts = min 5 ((s.sp i).attempts + 1) ∧ (t.sp i).shiftBreaks = (s.sp i).shiftBreaks ∧
          (s.cfg.attemptLimit ≤ min 5 ((s.sp i).attempts + 1) → (t.sp i).state = .rogue ∧
            t.shift = (book i s).shift) ∧
          (min 5 ((s.sp i).attempts + 1) < s.cfg.attemptLimit → t.shift = s.shift)) ∧
        ((s.sp i).seenUp = false → outcome = 2 → ¬ exchanging →
          (t.sp i).attempts = (s.sp i).attempts ∧ (t.sp i).downSince = (s.sp i).downSince ∧
          ((t.sp i).state = .queued ∨ (t.sp i).state = .waiting ∨ (t.sp i).state = .ordered) ∧ t.shift = s.shift) ∧
        ((s.sp i).seenUp = false → outcome = 3 → ¬ exchanging →
          (t.sp i).state = .empty ∧ (t.sp i).cause = some .roving ∧ (t.sp i).attempts = 0 ∧
          (t.sp i).piecedAt = none ∧ (t.sp i).bookedTo = some s.del.count ∧
          ((∀ j left, stripOf j = stripOf i → (s.sp j).state = .waiting ∨ (s.sp j).state = .queued →
              s.remaining j = some left → s.atMargin left = false) → t.shift = (book i s).shift))) ∧
    ((∀ x o, s.engagedBy r.tel.source = some x → (s.eng x).state = .orderOut → (s.eng x).order = some o →
        o.tag ≠ tag) ∨ 3 < outcome →
      exec .workResult s = .next { u with pie := { s.pie with late := min 65535 (s.pie.late + 1) } })

/-- R81, in RUNNING: ROBOT_WITHDRAW, and STATION_RESTART at the piecing engine, from the robot of an engagement in AWAITING,
WORKING or ORDER_OUT end the engagement: nothing is sent to the robot, an ordered record returns to piecing with its attempts, and
the engagement calls anew, by one PIECE_CALL, if its queues hold an entry, and else is IDLE and sends nothing. From another
station a withdrawal is a stray robot telegram and a restart changes nothing but the mark that the engine has taken it (assumption
log 11). -/
def Obligations.RobotGoneEndsTheEngagement : Prop :=
  ∀ (s : State) (r : Received) (rest : List Received), s.works → s.tabled → s.shift.closing = none → s.line.rx = r :: rest →
    let ended := fun (rx : List Received) (t : State) (x : Side) =>
      let u : State := { s with line := { s.line with rx := rx } }
      ((t.eng x).state = .idle → t.line = u.line) ∧ ((t.eng x).state = .calling → handsCall x [] u t) ∧
      onlyIn [.mon, .pie, .shift, .line, .frame, .draws] s t ∧
      (t.eng x).robot = none ∧ (t.eng x).order = none ∧ (t.eng x).position = none ∧ (t.eng x).timer = none ∧
      (t.eng x).timeouts = 0 ∧ (t.side x).bar = (s.side x).bar ∧
      ((t.eng x).state = .calling ∧ (t.eng x).sinceCall = 0 ∧ (t.eng x).nextCall = some (s.del.seconds + 10) ∨
        (t.eng x).state = .idle) ∧
      ((t.eng x).state = .idle ↔ t.queuesEmpty x = true) ∧
      (∀ o, (s.eng x).order = some o → (s.sp o.index).state = .ordered →
        ((s.sec (stripOf o.index)).state = .exchanging → (t.sp o.index).state = .exchange) ∧
        ((s.sec (stripOf o.index)).state ≠ .exchanging →
          ((t.sp o.index).state = .queued ∨ (t.sp o.index).state = .waiting) ∧
          (t.sp o.index).attempts = (s.sp o.index).attempts ∧ (t.sp o.index).downSince = (s.sp o.index).downSince))
    let engaged := fun (x : Side) => s.engagedBy r.tel.source = some x ∧
      ((s.eng x).state = .awaiting ∨ (s.eng x).state = .working ∨ (s.eng x).state = .orderOut)
    (r.tel.kind = .robotWithdraw → (∀ x, engaged x → ∃ t, exec .robotWithdraw s = .next t ∧ t.line.rx = rest ∧ ended rest t x) ∧
      ((∀ x, ¬ engaged x) → exec .robotWithdraw s = .next { s with
        line := { s.line with rx := rest }
        pie := { s.pie with stray := min 65535 (s.pie.stray + 1) } })) ∧
    (r.tel.kind = .stationRestart → r.byPiecing = false →
      let rx := if r.byCreel ∧ r.byDoff then rest else { r with byPiecing := true } :: rest
      (∀ x, engaged x → ∃ t, exec .stationRestartPiecing s = .next t ∧ t.line.rx = rx ∧ ended rx t x) ∧
      ((∀ x, ¬ engaged x) → exec .stationRestartPiecing s = .next { s with line := { s.line with rx := rx } })) ∧
    (r.tel.kind = .stationRestart → r.byPiecing = true → exec .stationRestartPiecing s = .next s)

/-! ### Chapters 5 and 6: sections, roving prediction and carriers -/

/-- R97, in RUNNING: where the announcement count has reached 300 it restarts, and a ROVING_DUE with the first six entries of the
due list is queued if the list holds an entry. Before that, and before START, nothing changes (assumption log 1). That one which a
full outgoing queue drops counts as queued for the second of the last ROVING_DUE (R99) is the model's choice (assumption log
36). -/
def Obligations.AnnouncementRepeatsEvery300 : Prop :=
  ∀ s : State, s.works →
    (∀ from_, s.creel.announceFrom = some from_ → from_ + 300 ≤ s.del.seconds → s.creel.dueList = [] →
      exec .announcementCount s = .next { s with creel := { s.creel with announceFrom := some s.del.seconds } }) ∧
    (∀ from_, s.creel.announceFrom = some from_ → from_ + 300 ≤ s.del.seconds → s.creel.dueList ≠ [] →
      ∃ t, exec .announcementCount s = .next t ∧ onlyIn [.creel, .line, .frame] s t ∧
        t.creel = { s.creel with announceFrom := some s.del.seconds, dueSentAt := some s.del.seconds } ∧
        sends .rovingDue 0
          ((s.creel.dueList.take 6).flatMap (fun e => field 1 e.number ++ field 2 e.minutes)) s t) ∧
    ((∀ from_, s.creel.announceFrom = some from_ → s.del.seconds < from_ + 300) →
      exec .announcementCount s = .next s)

/-- R94 and R96: the due list after a rebuild holds at most sixteen of the due sections with their recorded minutes, in the order of
minutes and then of number, and leaves a due section out only behind sixteen that stand before it; a change of the first six section
numbers queues a ROVING_DUE with these entries and restarts the announcement count, and without a change nothing is queued. Stated
of the operation that RECOMPUTE and every change of section state end with. -/
def Obligations.DueListOrderedAndAnnounced : Prop :=
  ∀ s : State,
    let t := rebuildDue s
    let l := t.creel.dueList
    let before := fun (d e : DueEntry) => d.minutes < e.minutes ∨ d.minutes = e.minutes ∧ d.number < e.number
    let six := (l.take 6).map DueEntry.number
    onlyIn [.creel, .line, .frame] s t ∧ (∀ k, t.sec k = s.sec k) ∧
    l.length ≤ 16 ∧ l.Pairwise before ∧
    (∀ e ∈ l, 1 ≤ e.number ∧ e.number ≤ s.creel.sections.length ∧ (s.sec e.number).due = true ∧
      e.minutes = (s.sec e.number).minutes.getD 0) ∧
    (∀ k, 1 ≤ k → k ≤ s.creel.sections.length → (s.sec k).due = true →
      (∃ e ∈ l, e.number = k) ∨
      l.length = 16 ∧ ∀ e ∈ l, before e { number := k, minutes := (s.sec k).minutes.getD 0 }) ∧
    t.creel.firstSix = six ∧
    (six = s.creel.firstSix → t.line = s.line ∧ t.frame = s.frame ∧ t.creel.announceFrom = s.creel.announceFrom) ∧
    (six ≠ s.creel.firstSix → t.creel.announceFrom = some s.del.seconds ∧
      sends .rovingDue 0 ((l.take 6).flatMap (fun e => field 1 e.number ++ field 2 e.minutes)) s t)

/-- R92 and R93, with no shift close in progress: the margin check takes a WAITING or QUEUED record whose predicted roving is at or
below the empty margin to EMPTY, booked, with attempts 0 and pieced-at absent, and raises ROVING_EMPTY where its section holds no
other EMPTY record; every other record is left alone. -/
def Obligations.MarginCheckEmptiesQueuedEnds : Prop :=
  ∀ (s : State) (i : Nat) (b : Base), s.tabled → s.hasSpindle i = true → s.shift.closing = none →
    (s.sec (stripOf i)).base = some b →
    let t := marginOne i s
    let r := s.sp i
    let taken := (r.state = .waiting ∨ r.state = .queued) ∧ s.remainingFrom b i ≤ s.cfg.emptyMargin * 1000
    (∀ j, j ≠ i → t.sp j = s.sp j) ∧ (¬ taken → t = s) ∧
    (taken → (t.sp i).state = .empty ∧ (t.sp i).cause = some .roving ∧ (t.sp i).attempts = 0 ∧
      (t.sp i).piecedAt = none ∧ (t.sp i).bookedTo = some s.del.count ∧ (t.sp i).downSince = r.downSince ∧
      (t.sp i).shiftBreaks = r.shiftBreaks ∧
      ((∀ j, stripOf j = stripOf i → (s.sp j).state ≠ .empty) → alerted .rovingEmpty (some (stripOf i)) t))

/-- R91, in RUNNING: a recompute that is due moves its time on by 60, leaves every section that is not NORMAL alone, keeps each
NORMAL section's state, base and booking, records 0 minutes where it holds an EMPTY record, keeps the recorded minutes where it
holds none and the rate is HELD, and with a rate records the least minutes-to-empty of its 24 positions (R9, R90; with no shift
close in progress), sets the due flag by the booking horizon, and rebuilds the due list. A recompute that is not due changes
nothing (assumption log 1). -/
def Obligations.RecomputeRecordsMinutes : Prop :=
  ∀ (s : State) (due : Nat), s.works → s.tabled → s.creel.nextRecompute = some due →
    (s.del.seconds < due → exec .recompute s = .next s) ∧
    (due ≤ s.del.seconds → ∃ t, exec .recompute s = .next t ∧
      onlyIn [.mon, .pie, .creel, .shift, .line, .frame, .draws] s t ∧
      t.creel.nextRecompute = some (due + 60) ∧ t.creel.slot1 = s.creel.slot1 ∧ t.creel.slot2 = s.creel.slot2 ∧
      t.creel.dueList = t.dueSections.take 16 ∧
      (∀ i, (s.sp i).state ≠ .waiting → (s.sp i).state ≠ .queued → t.sp i = s.sp i) ∧
      ∀ k, 1 ≤ k → k ≤ s.creel.sections.length →
        ((s.sec k).state ≠ .normal → t.sec k = s.sec k) ∧
        ((s.sec k).state = .normal →
          t.sec k = { s.sec k with minutes := (t.sec k).minutes, due := (t.sec k).due } ∧
          ((t.sec k).due = true ↔ ∃ m, (t.sec k).minutes = some m ∧ m ≤ s.cfg.horizon) ∧
          ((s.sec k).base.isSome = true →
            (t.emptyCount k ≠ 0 → (t.sec k).minutes = some 0) ∧
            (t.emptyCount k = 0 → s.rate = none → (t.sec k).minutes = (s.sec k).minutes)) ∧
          (∀ b rate, (s.sec k).base = some b → s.rate = some rate → t.emptyCount k = 0 → s.shift.closing = none →
            let minutes := fun (i : Nat) => min 65535 (t.remainingFrom b i * s.draft / (100 * rate))
            ∃ m, (t.sec k).minutes = some m ∧ (∃ i, 24 * (k - 1) < i ∧ i ≤ 24 * k ∧ m = minutes i) ∧
              ∀ i, 24 * (k - 1) < i → i ≤ 24 * k → m ≤ minutes i)))

/-- R105 and R110, in RUNNING: at its lapse time a booking is gone, its sections unbooked, its slot free and BOOKING_LAPSED raised; at
its timer an exchange ends without a load. Before that the two rows change nothing (assumption log 1). -/
def Obligations.BookingsLapseAndExchangesTimeOut : Prop :=
  (∀ (s : State) (n : Nat), s.works → n = 1 ∨ n = 2 →
    (∀ b, s.slot n = some b → b.lapse ≤ s.del.seconds →
      ∃ t, exec (.bookingLapse n) s = .next t ∧ onlyIn [.creel, .frame] s t ∧
        t.slot n = none ∧ t.slot (3 - n) = s.slot (3 - n) ∧
        t.creel = { s.creel with sections := t.creel.sections, slot1 := t.creel.slot1, slot2 := t.creel.slot2 } ∧
        (∀ k, t.sec k = if k ∈ b.sections then { s.sec k with booking := none } else s.sec k) ∧
        alerted .bookingLapsed (some b.carrier) t) ∧
    ((∀ b, s.slot n = some b → s.del.seconds < b.lapse) → exec (.bookingLapse n) s = .next s)) ∧
  (∀ (s : State) (k : Nat), s.works →
    (∀ due, s.hasSection k = true → (s.sec k).state = .exchanging → (s.sec k).timer = some due →
      due ≤ s.del.seconds → ∃ t, exec (.exchangeTimeout k) s = .next t ∧ endedWithoutLoad k s t) ∧
    ((s.sec k).state ≠ .exchanging ∨ (∀ due, (s.sec k).timer = some due → s.del.seconds < due) →
      exec (.exchangeTimeout k) s = .next s))

/-- R103 and R104, in RUNNING: a CARRIER_BOOKING is answered by a BOOKING_ACK that lists the accepted sections in telegram order;
those newly accepted extend the carrier's slot, or take the lower free one, and carry its number; with none newly accepted the
booking table is unchanged. An accepted section is NORMAL, of this frame, listed, in no booking or in the carrier's own, and listed
once; no booking holds more than eight; with room left no section that meets these is refused, and without it none of the carrier's own
booking (assumption log 32). -/
def Obligations.CarrierBookingAcceptsSections : Prop :=
  ∀ (s : State) (r : Received) (rest : List Received), s.works → s.line.rx = r :: rest → r.tel.kind = .carrierBooking →
    let u : State := { s with line := { s.line with rx := rest } }
    let listed := (r.tel.payload.drop 1).map BitVec.toNat
    let eta := r.tel.num 0 1
    let carrier := r.tel.source
    (s.slotFor carrier = none → ∃ t, exec .carrierBooking s = .next t ∧ onlyIn [.line, .frame] s t ∧
      sends .bookingAck carrier [] u t) ∧
    (∀ n, s.slotFor carrier = some n →
      let held := (s.slot n).elim [] Booking.sections
      let accepted := (s.bookingTaken (s.slotOf carrier) held listed).1
      let fresh := (s.bookingTaken (s.slotOf carrier) held listed).2
      let lapse := s.del.seconds + eta * 60 + s.cfg.bookingGrace
      ∃ t, exec .carrierBooking s = .next t ∧ onlyIn [.creel, .line, .frame] s t ∧
        sends .bookingAck carrier (accepted.flatMap (field 1)) u t ∧
        accepted.Sublist listed ∧ accepted.Nodup ∧ fresh.Sublist accepted ∧
        (held.length ≤ 8 → held.length + fresh.length ≤ 8) ∧
        (∀ k ∈ accepted, s.hasSection k = true ∧ (s.sec k).state = .normal ∧
          ((s.sec k).booking = none ∧ k ∈ fresh ∨ (s.sec k).booking = s.slotOf carrier ∧ k ∉ fresh)) ∧
        (∀ k ∈ listed, s.hasSection k = true → (s.sec k).state = .normal →
          ((s.sec k).booking = none ∧ held.length + fresh.length < 8 ∨
            (s.sec k).booking ≠ none ∧ (s.sec k).booking = s.slotOf carrier) → k ∈ accepted) ∧
        (fresh = [] → t.creel = s.creel) ∧
        (fresh ≠ [] →
          t.slot n = some (match s.slot n with
            | some b => { b with eta := eta, lapse := max b.lapse lapse, sections := b.sections ++ fresh }
            | none => { carrier := carrier, eta := eta, lapse := lapse, sections := fresh }) ∧
          t.slot (3 - n) = s.slot (3 - n) ∧
          ∀ k, t.sec k = if k ∈ fresh then { s.sec k with booking := some n } else s.sec k))

/-- R107, in RUNNING, with no shift close in progress: an EXCHANGE_BEGIN of a NORMAL section from the carrier of its booking sets
the exchange going: register, timer, the slot's lapse time, and every QUEUED, WAITING, EMPTY or ORDERED record of the section into
EXCHANGE with its down-since kept; the section leaves the prediction. Every other begin is a stray carrier telegram. -/
def Obligations.ExchangeBeginTakesTheSection : Prop :=
  ∀ (s : State) (r : Received) (rest : List Received), s.works → s.tabled → s.shift.closing = none →
    s.line.rx = r :: rest → r.tel.kind = .exchangeBegin →
    let k := r.tel.num 0 1
    let carrier := r.tel.source
    let begun := fun (n : Nat) (b : Booking) => s.hasSection k = true ∧ (s.sec k).state = .normal ∧
      (s.sec k).booking = some n ∧ s.slot n = some b ∧ b.carrier = carrier
    (∀ n b, begun n b → ∃ t, exec .exchangeBegin s = .next t ∧
      onlyIn [.mon, .pie, .creel, .shift, .line, .frame, .draws] s t ∧
      t.sec k = { s.sec k with
        state := .exchanging, timer := some (s.del.seconds + s.cfg.exchangeTime), carrier := some carrier
        minutes := none, due := false } ∧
      (∀ m, m ≠ k → t.sec m = s.sec m) ∧
      t.slot n = some { b with lapse := max b.lapse (s.del.seconds + s.cfg.exchangeTime + s.cfg.bookingGrace) } ∧
      (∀ i, 24 * (k - 1) < i → i ≤ 24 * k →
        ((s.sp i).state = .queued ∨ (s.sp i).state = .waiting ∨ (s.sp i).state = .ordered ∨ (s.sp i).state = .empty →
          (t.sp i).state = .exchange ∧ (t.sp i).cause = some .roving ∧ (t.sp i).attempts = 0 ∧
          (t.sp i).piecedAt = none ∧ (t.sp i).downSince = (s.sp i).downSince ∧
          ((s.sp i).state ≠ .empty → (t.sp i).bookedTo = some s.del.count)) ∧
        ((s.sp i).state ≠ .queued → (s.sp i).state ≠ .waiting → (s.sp i).state ≠ .ordered → (s.sp i).state ≠ .empty →
          t.sp i = s.sp i))) ∧
    ((∀ n b, ¬ begun n b) → exec .exchangeBegin s = .next { s with
      line := { s.line with rx := rest }, creel := { s.creel with stray := min 65535 (s.creel.stray + 1) } })

/-- R108 and R110, in RUNNING, with no shift close in progress: an EXCHANGE_END from the carrier that began the section's exchange
loads it (outcome 0) or ends the exchange without a load (outcome 1); every other end is a stray carrier telegram. A load books the 24
records of the section up to the present count and counts each fresh break as one break in the open segment (R87, R109). -/
def Obligations.ExchangeEndLoadsOrAborts : Prop :=
  ∀ (s : State) (r : Received) (rest : List Received), s.works → s.tabled → s.shift.closing = none →
    s.line.rx = r :: rest → r.tel.kind = .exchangeEnd →
    let k := r.tel.num 0 1
    let accepted := s.hasSection k = true ∧ (s.sec k).state = .exchanging ∧ (s.sec k).carrier = some r.tel.source
    let u : State := { s with line := { s.line with rx := rest } }
    (accepted → r.tel.num 1 1 = 0 → ∃ t, exec .exchangeEnd s = .next t ∧
      onlyIn [.mon, .pie, .creel, .shift, .line, .frame, .draws] s t ∧ endedLoaded k s t) ∧
    (accepted → r.tel.num 1 1 = 1 → ∃ t, exec .exchangeEnd s = .next t ∧ endedWithoutLoad k u t) ∧
    (¬ accepted ∨ 1 < r.tel.num 1 1 → exec .exchangeEnd s = .next { u with
      creel := { s.creel with stray := min 65535 (s.creel.stray + 1) } })

/-- R106 and R111, in RUNNING: BOOKING_DONE frees the sender's slot and unbooks its sections, which keep their state, timer and entry
in the exchange register; STATION_RESTART at the creel unit ends each exchange that the station began without a load, with
EXCHANGE_UNKNOWN (R110), then frees its slot and unbooks the sections listed there, and leaves every other section; the slot of another
carrier stays, but for sections in it whose exchange so ended. From a station that holds nothing they change nothing but the receive
buffer. The mark by which the buffer keeps a STATION_RESTART until three blocks have taken it, each once, is the model's (assumption
log 11). -/
def Obligations.CarrierGoneFreesItsSlot : Prop :=
  ∀ (s : State) (r : Received) (rest : List Received), s.works → s.line.rx = r :: rest →
    let u : State := { s with line := { s.line with rx := rest } }
    (r.tel.kind = .bookingDone →
      (∀ n b, s.slotOf r.tel.source = some n → s.slot n = some b →
        ∃ t, exec .bookingDone s = .next t ∧ onlyIn [.creel, .line] s t ∧ t.line = u.line ∧
          t.slot n = none ∧ t.slot (3 - n) = s.slot (3 - n) ∧
          (∀ k, t.sec k = if k ∈ b.sections then { s.sec k with booking := none } else s.sec k)) ∧
      (s.slotOf r.tel.source = none → exec .bookingDone s = .next u)) ∧
    (r.tel.kind = .stationRestart → r.byCreel = false →
      let rx := if r.byPiecing ∧ r.byDoff then rest else { r with byCreel := true } :: rest
      let began := fun (k : Nat) => (s.sec k).state = .exchanging ∧ (s.sec k).carrier = some r.tel.source
      let listed := fun (k : Nat) => ∃ n b, (n = 1 ∨ n = 2) ∧ s.slot n = some b ∧ b.carrier = r.tel.source ∧ k ∈ b.sections
      ∃ t, exec .stationRestartCreel s = .next t ∧ onlyIn [.creel, .line, .frame] s t ∧ t.line.rx = rx ∧
        (∀ n, s.slotOf r.tel.source = some n → t.slot n = none) ∧
        (∀ k, 1 ≤ k → k ≤ s.creel.sections.length →
          (began k → t.sec k = { s.sec k with
            state := .unknown, timer := none, carrier := none, booking := none, minutes := none, due := false } ∧
            alerted .exchangeUnknown (some k) t) ∧
          (∀ n b, ¬ began k → s.slotOf r.tel.source = some n → s.slot n = some b → k ∈ b.sections →
            t.sec k = { s.sec k with booking := none }) ∧
          (¬ began k → ¬ listed k → t.sec k = s.sec k)) ∧
        (∀ n b, n = 1 ∨ n = 2 → s.slot n = some b → b.carrier ≠ r.tel.source →
          let ended : Section → Bool := fun x =>
            x.state == .exchanging && x.carrier == some r.tel.source && x.booking.any (fun m => (m == 1) == (n == 1))
          let left := b.sections.filter (fun k => !ended (s.sec k))
          t.slot n = if s.creel.sections.any ended then (if left = [] then none else some { b with sections := left })
            else some b) ∧
        ((∀ k, ¬ began k) → t.frame = s.frame ∧ t.line = { s.line with rx := rx } ∧
          t.creel = { s.creel with sections := t.creel.sections, slot1 := t.creel.slot1, slot2 := t.creel.slot2 }) ∧
        ((∀ k, ¬ began k) → (∀ n, s.slotOf r.tel.source ≠ some n) →
          t = { s with line := { s.line with rx := rx } })) ∧
    (r.tel.kind = .stationRestart → r.byCreel = true → exec .stationRestartCreel s = .next s)

/-- R112, R113 and R108: CREEL_CONFIRM in RUNNING is refused, in this order, for a section outside 1..N/24, an outcome above 1, a
NORMAL section, and NOT_LOADED without a base; else LOADED loads the section and NOT_LOADED returns it to NORMAL on its base. Either
counts each fresh break as one break in the open segment, and books it under ROVING (R109). -/
def Obligations.CreelConfirmRefusesOrEnds : Prop :=
  ∀ (s : State) (tag k outcome : Nat), s.portOpen → s.works → s.tabled → s.shift.closing = none →
    let refused := fun (r : Result) =>
      exec (.creelConfirm tag k outcome) s = .next { s with port := s.port.completed 27 tag r [] }
    let ends := fun (P : Nat → State → State → Prop) => ∃ t, exec (.creelConfirm tag k outcome) s = .next t ∧
      onlyIn [.mon, .pie, .creel, .shift, .line, .frame, .draws, .port] s t ∧
      t.port = s.port.completed 27 tag .done [] ∧ P k s t
    (s.hasSection k = false → refused .noSuch) ∧
    (s.hasSection k = true → 1 < outcome → refused .outOfRange) ∧
    (s.hasSection k = true → outcome ≤ 1 → (s.sec k).state = .normal → refused .notPending) ∧
    (s.hasSection k = true → (s.sec k).state ≠ .normal → outcome = 1 → (s.sec k).base = none → refused .outOfRange) ∧
    (s.hasSection k = true → (s.sec k).state ≠ .normal → outcome = 0 → ends endedLoaded) ∧
    (s.hasSection k = true → (s.sec k).state ≠ .normal → outcome = 1 → (s.sec k).base ≠ none → ends endedNotLoaded)

/-! ### Chapters 7 and 8: the doff sequence and the doff slots -/

/-- R116 to R118, R121 and R140, at a device second in RUNNING: in SPINNING a fill at the claim level makes a claim, full at once from
1,000; in CLAIMED and in GRANTED a fill of 1,000 makes the claim full and holds the frame by COP_FULL; in CLAIMED and FULL_WAIT with
the listen end absent the grant check follows the fill check, with the urgency that it left, and grants or changes nothing; in RUNDOWN
the frame that has stood for two pulse-free seconds with RUN inactive enters DOFFING with its timer; else the doff record stays. Which
of this work stands in the row DEVICE_SECOND is assumption log 1. -/
def Obligations.SecondClaimsAndTestsTheStop : Prop :=
  ∀ s : State, s.works →
    let now := min 4294967295 (s.del.seconds + 1)
    let free := min 65535 (s.del.pulseFree + 1)
    let u : State := { s with del := { s.del with seconds := now, pulseFree := free } }
    let d := s.doff
    let claimed : Doff := { d with
      state := .claimed, firstClaim := some now, urgency := .normal, manual := false, listenEnd := some (now + 3)
      nextAnn := some (now + 5) }
    let stopped := s.frame.run = false ∧ 2 ≤ free
    ∃ t, exec .deviceSecond s = .next t ∧
      (d.state = .spinning → s.fill < s.cfg.claimLevel → t.doff = d) ∧
      (d.state = .spinning → s.cfg.claimLevel ≤ s.fill → s.fill < 1000 → t.doff = claimed ∧
        sends .doffClaim 0 (field 1 0 ++ field 2 0 ++ field 2 s.fill ++ field 1 0) u t) ∧
      (d.state = .spinning → s.cfg.claimLevel ≤ s.fill → 1000 ≤ s.fill →
        t.doff = { claimed with state := .fullWait, urgency := .full } ∧ t.frame.holds.copFull = true) ∧
      (d.state = .claimed → 1000 ≤ s.fill → t.doff.urgency = .full ∧ t.doff.firstClaim = d.firstClaim ∧
        t.frame.holds.copFull = true ∧
        (d.listenEnd ≠ none → t.doff = { d with state := .fullWait, urgency := .full, nextAnn := some (now + 5) })) ∧
      (d.state = .claimed → s.fill < 1000 → d.listenEnd ≠ none → t.doff = d) ∧
      (d.state = .fullWait → d.listenEnd ≠ none → t.doff = d) ∧
      (d.state = .claimed ∨ d.state = .fullWait → d.listenEnd = none →
        let filled : Doff := if d.state = .claimed ∧ 1000 ≤ s.fill then
          { d with state := .fullWait, urgency := .full, nextAnn := some (now + 5) } else d
        let claim : List Handed := if d.state = .claimed ∧ 1000 ≤ s.fill then
          [(.doffClaim, 0, field 1 1 ++ field 2 (waitAt now d) ++ field 2 s.fill ++ flag d.manual)] else []
        (grantsAt s.cfg now filled → t.doff = grantedAt now filled ∧
          hands (claim ++ [(.doffState, 0, field 1 1 ++ field 1 filled.urgency.code ++ field 2 (waitAt now d))]) u t) ∧
        (¬ grantsAt s.cfg now filled → t.doff = filled ∧ hands claim u t)) ∧
      (d.state = .granted → 1000 ≤ s.fill → d.urgency = .normal →
        t.doff = { d with urgency := .full } ∧ t.frame.holds.copFull = true) ∧
      (d.state = .granted → s.fill < 1000 ∨ d.urgency = .full → t.doff = d) ∧
      (d.state = .rundown → stopped →
        t.doff = { d with state := .doffing, doffTimer := some (now + s.cfg.doffTime), nextAnn := some (now + 5) } ∧
        sends .doffState 0 (field 1 3 ++ field 1 d.urgency.code ++ field 2 (d.grantedWait.getD 0)) u t) ∧
      (d.state = .rundown → ¬ stopped → t.doff = d) ∧
      (d.state = .doffing ∨ d.state = .restart ∨ d.state = .unknown → t.doff = d)

/-- R138 to R140, in RUNNING: at the listen end the interval is over, and the station grants itself a doff slot exactly when it claims,
its view holds fewer than sixteen peers, and those that hold a slot with those claimants that rank ahead of it are fewer than the
slots. A peer ranks ahead by a FULL urgency, then by the longer wait, then by the lower station. R139 makes the listen end absent; that
LISTEN_END itself makes the grant check of its device second is the model's choice (assumption log 1). -/
def Obligations.ListenEndGrantsBelowTheSlots : Prop :=
  ∀ (s : State) (due : Nat), s.works → s.doff.listenEnd = some due →
    (s.del.seconds < due → exec .listenEnd s = .next s) ∧
    (due ≤ s.del.seconds →
      let d : Doff := { s.doff with listenEnd := none }
      let mine := min 65535 (s.del.seconds - d.firstClaim.getD s.del.seconds)
      let theirs := fun (p : Peer) => min 65535 (p.wait + (s.del.seconds - p.heard))
      let ahead : Peer → Bool := fun p =>
        p.urgency == .full && d.urgency == .normal ||
          p.urgency == d.urgency && (mine < theirs p || theirs p == mine && p.station < s.cfg.station)
      let holders := d.view.countP (fun p => p.phase != .claimed)
      let claimants := d.view.countP (fun p => p.phase == .claimed && ahead p)
      let grants := (d.state = .claimed ∨ d.state = .fullWait) ∧ d.view.length < 16 ∧ holders + claimants < s.cfg.slots
      (¬ grants → exec .listenEnd s = .next { s with doff := d }) ∧
      (grants → ∃ t, exec .listenEnd s = .next t ∧ onlyIn [.doff, .line, .frame] s t ∧
        t.doff = { d with
          state := .granted, grantedWait := some mine, confirmEnd := some (s.del.seconds + 2)
          nextAnn := some (s.del.seconds + 5) } ∧
        sends .doffState 0 (field 1 1 ++ field 1 d.urgency.code ++ field 2 mine) s t))

/-- R120 and R82, in RUNNING: at the confirm end the grant stands: DOFF takes the place of COP_FULL, every engagement that acts is
SUSPENDED without robot or order, its ordered record back in piecing with its attempts, and the state is RUNDOWN, or DOFFING where
the frame has already stopped. The cancels and releases go out before the DOFF_STATE of RUNDOWN, and of DOFFING; that side A's go
before side B's is the model's choice (assumption log 27). Before that, and in another state, nothing changes (assumption log 1). -/
def Obligations.ConfirmEndEntersRundown : Prop :=
  ∀ (s : State) (due : Nat), s.works → s.doff.confirmEnd = some due →
    (s.del.seconds < due ∨ s.doff.state ≠ .granted → exec .confirmEnd s = .next s) ∧
    (due ≤ s.del.seconds → s.doff.state = .granted → ∃ t, exec .confirmEnd s = .next t ∧
      onlyIn [.mon, .pie, .doff, .shift, .line, .frame] s t ∧
      t.doff = { s.doff with
        confirmEnd := none, firstClaim := none, nextAnn := some (s.del.seconds + 5)
        state := if s.frame.run = false ∧ 2 ≤ s.del.pulseFree then .doffing else .rundown
        doffTimer := if s.frame.run = false ∧ 2 ≤ s.del.pulseFree then some (s.del.seconds + s.cfg.doffTime)
          else s.doff.doffTimer } ∧
      t.frame.holds.doff = true ∧ t.frame.holds.copFull = false ∧
      (let state := fun (phase : Nat) => ((.doffState, 0, field 1 phase ++ field 1 s.doff.urgency.code ++
          field 2 (s.doff.grantedWait.getD 0)) : Handed)
       hands (suspensions s ++ [state 2] ++ if s.frame.run = false ∧ 2 ≤ s.del.pulseFree then [state 3] else []) s t) ∧
      ∀ x, x = .a ∨ s.cfg.joined ≠ 1 →
        (t.eng x).state = .suspended ∧ (t.eng x).robot = none ∧ (t.eng x).order = none ∧ (t.eng x).timer = none ∧
        (t.eng x).nextCall = none ∧
        (∀ o, (s.eng x).state = .orderOut → (s.eng x).order = some o → (s.sp o.index).state = .ordered →
          s.tabled → s.shift.closing = none →
          ((s.sec (stripOf o.index)).state = .exchanging → (t.sp o.index).state = .exchange) ∧
          ((s.sec (stripOf o.index)).state ≠ .exchanging → (t.sp o.index).attempts = (s.sp o.index).attempts ∧
            ((t.sp o.index).state = .queued ∨ (t.sp o.index).state = .waiting))))

/-- R117, R122, R123, R128 and R174, in RUNNING: the doff timer reached in DOFFING raises DOFF_TIMEOUT once; the next announcement
reached queues the claim or the doff state by the doff state and moves on by 5; RUN becoming inactive stops a RUNDOWN frame that
has been pulse-free for two seconds; RUN becoming active lets every WORKING engagement decide. In INIT and READY a change of RUN is
taken as a level and nothing else. A timer row before its moment (assumption log 1) and a RUN_CHANGE to the level already taken
(assumption log 24) change nothing. -/
def Obligations.DoffTimersAndRun : Prop :=
  (∀ (s : State) (active : Bool), s.frame.resetLow = false → s.port.part ≠ .running →
    exec (.runChange active) s = .next { s with frame := { s.frame with run := active } }) ∧
  ∀ s : State, s.works →
    (exec .doffTimer s = .next
      (if s.doff.state = .doffing ∧ (∃ due, s.doff.doffTimer = some due ∧ due ≤ s.del.seconds) then
        { s with doff := { s.doff with doffTimer := none }, frame := s.frame.raised .doffTimeout .action none s.del.seconds }
      else s)) ∧
    (∀ due, s.doff.nextAnn = some due → due ≤ s.del.seconds →
      let on : Doff := { s.doff with nextAnn := some (due + 5) }
      let wait := min 65535 (s.del.seconds - s.doff.firstClaim.getD s.del.seconds)
      (s.doff.state = .claimed ∨ s.doff.state = .fullWait →
        ∃ t, exec .nextAnnouncement s = .next t ∧ onlyIn [.doff, .line, .frame] s t ∧ t.doff = on ∧
          sends .doffClaim 0 (field 1 s.doff.urgency.code ++ field 2 wait ++ field 2 s.fill ++
            field 1 (if s.doff.manual then 1 else 0)) s t) ∧
      (s.doff.state = .granted ∨ s.doff.state = .rundown ∨ s.doff.state = .doffing ∨ s.doff.state = .unknown →
        ∃ t, exec .nextAnnouncement s = .next t ∧ onlyIn [.doff, .line, .frame] s t ∧ t.doff = on ∧
          sends .doffState 0 (field 1 (match s.doff.state with
              | .granted => 1 | .rundown => 2 | .doffing => 3 | _ => 4) ++
            field 1 s.doff.urgency.code ++ field 2 (s.doff.grantedWait.getD 0)) s t)) ∧
    ((∀ due, s.doff.nextAnn = some due → s.del.seconds < due) → exec .nextAnnouncement s = .next s) ∧
    exec (.runChange s.frame.run) s = .next s ∧
    (s.frame.run = true → (s.doff.state ≠ .rundown ∨ s.del.pulseFree < 2) →
      exec (.runChange false) s = .next { s with frame := { s.frame with run := false } }) ∧
    (s.frame.run = true → s.doff.state = .rundown → 2 ≤ s.del.pulseFree →
      ∃ t, exec (.runChange false) s = .next t ∧ onlyIn [.doff, .line, .frame] s t ∧ t.frame.run = false ∧
        t.doff = { s.doff with
          state := .doffing, doffTimer := some (s.del.seconds + s.cfg.doffTime), nextAnn := some (s.del.seconds + 5) }) ∧
    (s.frame.run = false → ∃ t, exec (.runChange true) s = .next t ∧ t.frame.run = true ∧
      onlyIn [.mon, .pie, .shift, .line, .frame] s t ∧
      (s.tabled → (∀ y, (s.side y).queue.length < 48 → (s.side y).waiting = []) →
        ∀ x, x = .a ∨ s.cfg.joined ≠ 1 → (s.eng x).state = .working →
          (t.eng x).state = if s.queuesEmpty x then .idle else .orderOut) ∧
      ((∀ x, (s.eng x).state ≠ .working) → t = { s with frame := { s.frame with run := true } }))

/-- R126, in RUNNING, with no shift close in progress: at the end of the settle window the state is SPINNING; each UP or UNSEEN
record of an OK strip that answered since the settle start with class DOWN or SLOW has failed to start and goes down by the
condition of its section, to EXCHANGE, to EMPTY, or into piecing with its doff-start flag set and its attempts and shift breaks
kept; the records that did not fail and are not in piecing stay; and the SUSPENDED engagements resume. Before that the row changes
nothing (assumption log 1). R145: of one record, an UNSEEN one is booked, and each failed start that is a break is counted as one
doff-start break in the open segment; at a position gone empty nothing else is booked where the recompute of R93 finds no queued
or waiting end of its section at the margin. -/
def Obligations.SettleWindowJudgesTheStart : Prop :=
  ∀ s : State, s.works → s.tabled → s.shift.closing = none →
    (s.doff.state ≠ .settling ∨ s.doff.settleSeconds < s.cfg.settleWindow → exec .settleWindowEnd s = .next s) ∧
    (s.doff.state = .settling → s.cfg.settleWindow ≤ s.doff.settleSeconds →
      let start := s.doff.settleStart.getD 0
      let failed := fun (i : Nat) =>
        ((s.sp i).state = .up ∨ (s.sp i).state = .unseen) ∧ (s.strip (stripOf i)).failed = false ∧
        (∃ a, (s.strip (stripOf i)).lastAnswered = some a ∧ start ≤ a) ∧
        ((s.sp i).lastClass = .down ∨ (s.sp i).lastClass = .slow)
      let margin := fun (i : Nat) => (s.remaining i).getD 0 ≤ s.cfg.emptyMargin * 1000
      ∃ t, exec .settleWindowEnd s = .next t ∧
        onlyIn [.mon, .pie, .creel, .doff, .shift, .line, .frame, .draws] s t ∧
        t.doff = { s.doff with settleStart := none, state := .spinning, urgency := .normal, manual := false } ∧
        (∀ i, s.hasSpindle i = true → failed i →
          (t.sp i).downSince = some s.del.seconds ∧ (t.sp i).bookedTo = some s.del.count ∧
          (t.sp i).shiftBreaks = (s.sp i).shiftBreaks ∧
          ((s.sec (stripOf i)).state = .exchanging → (t.sp i).state = .exchange) ∧
          ((s.sec (stripOf i)).state = .normal → margin i → (t.sp i).state = .empty) ∧
          ((s.sec (stripOf i)).state = .unknown ∨ (s.sec (stripOf i)).state = .normal ∧ ¬ margin i →
            ((t.sp i).state = .queued ∨ (t.sp i).state = .waiting ∨ (t.sp i).state = .ordered) ∧
            (t.sp i).doffStart = true ∧ (t.sp i).attempts = (s.sp i).attempts ∧ (t.sp i).piecedAt = none)) ∧
        (∀ i, s.hasSpindle i = true → failed i →
          ((s.sec (stripOf i)).state = .unknown ∨ (s.sec (stripOf i)).state = .normal ∧ ¬ margin i →
            (judge start i s).shift = (countEvent .doffStart (book i s)).shift) ∧
          ((s.sec (stripOf i)).state = .exchanging → (judge start i s).shift = (book i s).shift) ∧
          ((s.sec (stripOf i)).state = .normal → margin i →
            (∀ j left, stripOf j = stripOf i → (s.sp j).state = .waiting ∨ (s.sp j).state = .queued →
              s.remaining j = some left → s.atMargin left = false) →
            (judge start i s).shift = (book i s).shift)) ∧
        (∀ i, ¬ failed i → (judge start i s) = s) ∧
        (∀ i, ¬ failed i → (s.sp i).state ≠ .waiting → (s.sp i).state ≠ .queued → t.sp i = s.sp i) ∧
        (∀ x, x = .a ∨ s.cfg.joined ≠ 1 → (s.eng x).state = .suspended →
          (t.eng x).state = if t.queuesEmpty x then .idle else .calling))

/-- R119, R124 and R127 in RUNNING: DOFF_REQUEST claims from SPINNING, marks a claim manual, and is BUSY later; DOFF_COMPLETE in
DOFFING and UNKNOWN sets the cop mark, counts the doff, queues DOFF_DONE (from UNKNOWN before the telegrams of the suspension,
assumption log 27), lifts DOFF and enters RESTART, and is NOT_DOFFING elsewhere. Where it is armed it first makes the article
switch (R17): every record with a booked-to is booked up to the present count, the run closes under the old article and the staged
one takes a segment of its own, or merges into the fourth (R147, R148), every NORMAL section is rebased on its remaining roving
(R88), and the staged article is active. DOFF_ABANDON gives a claim or a doff up to SPINNING with its holds lifted, and is
NOT_ABANDONABLE in SPINNING and from DOFFING to SETTLING. -/
def Obligations.DoffCommandsByTheState : Prop :=
  ∀ (s : State) (tag : Nat), s.portOpen → s.works →
    let d := s.doff
    let now := s.del.seconds
    (d.state = .spinning → ∃ t, exec (.doffRequest tag) s = .next t ∧ onlyIn [.doff, .line, .frame, .port] s t ∧
      t.port = s.port.completed 28 tag .done [] ∧
      t.doff = { d with
        state := if s.fill < 1000 then .claimed else .fullWait, urgency := if s.fill < 1000 then .normal else .full
        manual := true, firstClaim := some now, listenEnd := some (now + 3), nextAnn := some (now + 5) } ∧
      (1000 ≤ s.fill → t.frame.holds.copFull = true)) ∧
    (d.state = .claimed ∨ d.state = .fullWait → exec (.doffRequest tag) s = .next { s with
      doff := { d with manual := true }, port := s.port.completed 28 tag .done [] }) ∧
    (d.state ≠ .spinning → d.state ≠ .claimed → d.state ≠ .fullWait →
      exec (.doffRequest tag) s = .next { s with port := s.port.completed 28 tag .busy [] }) ∧
    (d.state = .doffing ∨ d.state = .unknown → ∃ t, exec (.doffComplete tag) s = .next t ∧
      onlyIn [.del, .mon, .pie, .creel, .doff, .shift, .line, .frame, .port] s t ∧
      t.port = s.port.completed 29 tag .done [] ∧ t.frame.holds.doff = false ∧
      t.doff = { d with
        copMark := s.del.count, nextAnn := none, doffTimer := none, grantedWait := none, state := .restart } ∧
      t.shift.opened.doffs = min 255 (s.shift.opened.doffs + 1) ∧
      (s.del.armed = false → t.del = s.del ∧ t.creel = s.creel) ∧
      (∀ a, s.del.armed = true → s.del.staged = some a →
        t.del = { s.del with active := some a, staged := none, armed := false } ∧
        (let booked := each ((List.range s.mon.spindles.length).map (· + 1)) book s
         (∀ i, (s.sp i).bookedTo.isSome = true → s.hasSpindle i = true → (t.sp i).bookedTo = some s.del.count) ∧
         (∀ i, (s.sp i).bookedTo = none → (t.sp i).bookedTo = none) ∧
         t.creel = { s.creel with sections := t.creel.sections } ∧
         (∀ k, (s.sec k).state ≠ .normal → t.sec k = s.sec k) ∧
         (∀ k b, s.hasSection k = true → (s.sec k).state = .normal → (s.sec k).base = some b →
           let carried : Base :=
             { mark := s.del.count, loaded := b.loaded
               rem := (List.range 24).map (fun j => booked.remainingFrom b (24 * (k - 1) + 1 + j)) }
           t.sec k = { s.sec k with base := some carried } ∧
           ∀ i, 24 * (k - 1) < i → i ≤ 24 * k → (t.sp i).lostSinceBase = 0) ∧
         ∀ first g, booked.shift.opened.segments = first ++ [g] →
           (s.shift.opened.segments.length < 4 → t.shift.opened.segments =
             first ++ [g.closeRun s.cfg s.del.count, Segment.opened (some (a.id, a.tex)) s.del.count]) ∧
           (s.shift.opened.segments.length = 4 → t.shift.opened.segments =
             first ++ [{ g.closeRun s.cfg s.del.count with
               article := some (a.id, a.tex), runStart := some s.del.count, openLosses := 0, mixed := true }] ∧
             t.shift.opened.flags.mixed = true ∧ alerted .segmentMerge none t)) ∧
        (s.shift.opened.segments.length < 4 →
          t.shift.opened.segments.length = s.shift.opened.segments.length + 1 ∧
          t.shift.opened.segments.getLast? = some (Segment.opened (some (a.id, a.tex)) s.del.count))) ∧
      (d.state = .doffing → t.line = (enqueue .doffDone 0 [] s).line ∧ t.pie = s.pie) ∧
      (d.state = .unknown → hands ([(.doffDone, 0, [])] ++ suspensions s) s t) ∧
      (d.state = .unknown → ∀ x, x = .a ∨ s.cfg.joined ≠ 1 → (t.eng x).state = .suspended)) ∧
    (d.state ≠ .doffing → d.state ≠ .unknown →
      exec (.doffComplete tag) s = .next { s with port := s.port.completed 29 tag .notDoffing [] }) ∧
    (d.state = .claimed ∨ d.state = .fullWait ∨ d.state = .granted ∨ d.state = .unknown ∨ d.state = .rundown →
      ∃ t, exec (.doffAbandon tag) s = .next t ∧ onlyIn [.pie, .doff, .line, .frame, .draws, .port] s t ∧
        t.port = s.port.completed 30 tag .done [] ∧ t.frame.holds.doff = false ∧ t.frame.holds.copFull = false ∧
        t.doff = { d with
          state := .spinning, firstClaim := none, nextAnn := none, listenEnd := none, confirmEnd := none
          urgency := .normal, manual := false, grantedWait := none } ∧
        (d.state ≠ .rundown → t.line = (enqueue .doffWithdraw 0 [] s).line ∧ t.pie = s.pie) ∧
        (d.state = .rundown → ∀ x, x = .a ∨ s.cfg.joined ≠ 1 → (s.eng x).state = .suspended →
          (t.eng x).state = if s.queuesEmpty x then .idle else .calling)) ∧
    (d.state = .spinning ∨ d.state = .doffing ∨ d.state = .restart ∨ d.state = .settling →
      exec (.doffAbandon tag) s = .next { s with port := s.port.completed 30 tag .notAbandonable [] })

/-- R133, R134, R137 and R142, in RUNNING: DOFF_CLAIM and DOFF_STATE take the sender's phase, urgency and wait into the view: its
entry is refreshed, or inserted by station where the view holds fewer than sixteen; a full view drops the telegram with
PEER_VIEW_FULL. A telegram of an unlisted code, or that bears this station's number, is dropped and counted. A view change, an
insertion or a refresh that changes phase or urgency, makes the grant check in CLAIMED and FULL_WAIT with the listen end absent
(R140), and backs a GRANTED station off when the holders ahead of it fill the slots; a mere refresh, and a change in a state that
does not weigh peers, changes nothing but the view. The DOFF_CLAIM of a back-off joins by R166 also where an older one is queued
(assumption log 37). -/
def Obligations.PeerViewTakesAnnouncements : Prop :=
  ∀ (s : State) (r : Received) (rest : List Received) (c : Instr), s.works → s.line.rx = r :: rest →
    c = .doffClaim ∧ r.tel.kind = .doffClaim ∨ c = .doffState ∧ r.tel.kind = .doffState →
    let d := s.doff
    let u : State := { s with line := { s.line with rx := rest } }
    let phase : Option Phase := if c = .doffClaim then some .claimed else
      match r.tel.num 0 1 with
      | 1 => some .granted | 2 => some .rundown | 3 => some .doffing | 4 => some .unknown | _ => none
    let code := if c = .doffClaim then r.tel.num 0 1 else r.tel.num 1 1
    let urgency : Option Urgency := if code = 0 then some .normal else if code = 1 then some .full else none
    let wait := if c = .doffClaim then r.tel.num 1 2 else r.tel.num 2 2
    let listed := ∃ q ∈ d.view, q.station = r.tel.source
    (phase = none ∨ urgency = none ∨ r.tel.source = s.cfg.station →
      exec c s = .next { u with doff := { d with dropped := min 65535 (d.dropped + 1) } }) ∧
    (∀ ph ur, phase = some ph → urgency = some ur → r.tel.source ≠ s.cfg.station →
      let p : Peer := { station := r.tel.source, phase := ph, urgency := ur, wait := wait, heard := s.del.seconds }
      (¬ listed → 16 ≤ d.view.length → ∃ t, exec c s = .next t ∧ onlyIn [.doff, .line, .frame] s t ∧ t.line = u.line ∧
        t.doff = { d with dropped := min 65535 (d.dropped + 1) } ∧ alerted .peerViewFull (some r.tel.source) t) ∧
      (listed ∨ d.view.length < 16 → ∃ t, exec c s = .next t ∧ onlyIn [.doff, .line, .frame] s t ∧
        (listed → t.doff.view = d.view.map (fun q => if q.station = p.station then p else q)) ∧
        (¬ listed → t.doff.view = insertPeer p d.view ∧ p ∈ t.doff.view) ∧
        (d.state ≠ .claimed → d.state ≠ .fullWait → d.state ≠ .granted →
          t = { u with doff := { d with view := t.doff.view } }) ∧
        (listed → (∀ q ∈ d.view, q.station = p.station → q.phase = ph ∧ q.urgency = ur) →
          t = { u with doff := { d with view := t.doff.view } }) ∧
        (d.state = .claimed ∨ d.state = .fullWait → d.listenEnd ≠ none →
          t = { u with doff := { d with view := t.doff.view } }) ∧
        (d.state = .claimed ∨ d.state = .fullWait → d.listenEnd = none →
          (∀ q ∈ d.view, q.station = p.station → ¬ (q.phase = ph ∧ q.urgency = ur)) →
          let seen : Doff := { d with view := t.doff.view }
          (grantsAt s.cfg s.del.seconds seen → t.doff = grantedAt s.del.seconds seen ∧
            sends .doffState 0 (field 1 1 ++ field 1 d.urgency.code ++ field 2 (waitAt s.del.seconds d)) u t) ∧
          (¬ grantsAt s.cfg s.del.seconds seen → t = { u with doff := seen })) ∧
        (d.state = .granted → (∀ q ∈ d.view, q.station = p.station → ¬ (q.phase = ph ∧ q.urgency = ur)) →
          let mine := min 65535 (s.del.seconds - d.firstClaim.getD s.del.seconds)
          let theirs := fun (q : Peer) => min 65535 (q.wait + (s.del.seconds - q.heard))
          let ahead : Peer → Bool := fun q =>
            q.urgency == .full && d.urgency == .normal ||
              q.urgency == d.urgency && (mine < theirs q || theirs q == mine && q.station < s.cfg.station)
          let holders := t.doff.view.countP (fun q => q.phase != .claimed && (q.phase != .granted || ahead q))
          (holders < s.cfg.slots → t = { u with doff := { d with view := t.doff.view } }) ∧
          (s.cfg.slots ≤ holders →
            t.doff = { d with
              view := t.doff.view, confirmEnd := none, grantedWait := none, backOffs := min 65535 (d.backOffs + 1)
              state := if d.urgency = .full then .fullWait else .claimed, nextAnn := some (s.del.seconds + 5) } ∧
            sends .doffClaim 0 (field 1 d.urgency.code ++ field 2 mine ++ field 2 s.fill ++
              field 1 (if d.manual then 1 else 0)) u t))))

/-- R135 to R137, in RUNNING: DOFF_DONE, DOFF_WITHDRAW and STATION_RESTART at the doff sequencer remove the sender's entry, and
PEER_SILENCE every entry not heard for fifteen seconds, in one view change, which makes the grant check in CLAIMED and FULL_WAIT with
the listen end absent (R140) and the back-off check in GRANTED (R142); where nothing is removed, and in a state that does not weigh
peers, nothing but the view and the receive buffer changes. The mark by which the buffer keeps a STATION_RESTART until three blocks
have taken it is the model's (assumption log 11), and so is the place of the DOFF_CLAIM of a back-off where an older one is queued
(assumption log 37). -/
def Obligations.PeersLeaveTheView : Prop :=
  ∀ s : State, s.works →
    let gone := fun (c : Instr) (rx : List Received) (keep : Peer → Bool) =>
      let u : State := { s with line := { s.line with rx := rx } }
      ∃ t, exec c s = .next t ∧ onlyIn [.doff, .line, .frame] s t ∧ t.doff.view = s.doff.view.filter keep ∧
        ((∀ p ∈ s.doff.view, keep p = true) → t = u) ∧
        (s.doff.state ≠ .claimed → s.doff.state ≠ .fullWait → s.doff.state ≠ .granted →
          t = { u with doff := { s.doff with view := s.doff.view.filter keep } }) ∧
        (s.doff.state = .claimed ∨ s.doff.state = .fullWait → s.doff.listenEnd ≠ none →
          t = { u with doff := { s.doff with view := s.doff.view.filter keep } }) ∧
        (s.doff.state = .claimed ∨ s.doff.state = .fullWait → s.doff.listenEnd = none →
          (∃ p ∈ s.doff.view, keep p = false) →
          let left : Doff := { s.doff with view := s.doff.view.filter keep }
          (grantsAt s.cfg s.del.seconds left → t.doff = grantedAt s.del.seconds left ∧
            sends .doffState 0
              (field 1 1 ++ field 1 s.doff.urgency.code ++ field 2 (waitAt s.del.seconds s.doff)) u t) ∧
          (¬ grantsAt s.cfg s.del.seconds left → t = { u with doff := left })) ∧
        (s.doff.state = .granted → (∃ p ∈ s.doff.view, keep p = false) →
          let left : Doff := { s.doff with view := s.doff.view.filter keep }
          (backsOffAt s.cfg s.del.seconds left → t.doff = backedOffAt s.del.seconds left ∧
            sends .doffClaim 0 (field 1 s.doff.urgency.code ++ field 2 (waitAt s.del.seconds s.doff) ++ field 2 s.fill ++
              flag s.doff.manual) u t) ∧
          (¬ backsOffAt s.cfg s.del.seconds left → t = { u with doff := left }))
    gone .peerSilence s.line.rx (fun p => s.del.seconds < p.heard + 15) ∧
    ∀ (r : Received) (rest : List Received), s.line.rx = r :: rest →
      let other : Peer → Bool := fun p => p.station != r.tel.source
      (r.tel.kind = .doffDone → gone .doffDone rest other) ∧
      (r.tel.kind = .doffWithdraw → gone .doffWithdraw rest other) ∧
      (r.tel.kind = .stationRestart → r.byDoff = false →
        gone .stationRestartDoff (if r.byPiecing ∧ r.byCreel then rest else { r with byDoff := true } :: rest) other)

/-! ### Chapters 9 and 10: shifts and the hall line -/

/-- R150 to R152 and R158, in RUNNING: a mark with the open shift's number is ignored, a CLOSE_SHIFT with the already-open note;
with a close in progress a CLOSE_SHIFT is BUSY and a SHIFT_MARK is refused and counted; else the open shift becomes the closing
one at the present second and count with its rogue and lazy counts, and a new one opens on the active article, with GAP and
SHIFT_GAP unless its number is the next. The host's mark stays executing and is sent on as SHIFT_MARK. SHIFT_TOTALS is kept as
last heard. That an already-open CLOSE_SHIFT and a BUSY one have an empty body is the model's choice (assumption log 5). -/
def Obligations.ShiftMarksBeginACloseOrAreIgnored : Prop :=
  ∀ s : State, s.works →
    let old := s.shift.opened
    let gap := fun (number : Nat) => number != (old.number + 1) % 65536
    let begun := fun (number : Nat) (waiting : Bool) => ({ s.shift with
      opened := { number := number, openedSeconds := s.del.seconds, openedCount := s.del.count, closedAt := none
                  runSeconds := 0, stopSeconds := 0
                  flags := { gap := gap number, mixed := false, warmReset := false, noDelivery := false }
                  unobserved := 0, doffs := 0, counts := none
                  segments := [Segment.opened (s.del.active.map (fun a => (a.id, a.tex))) s.del.count] }
      closing := some
        { shift := { old with
            counts := some (s.mon.spindles.countP (·.rogueMark), s.mon.spindles.countP (·.lazy))
            closedAt := some (s.del.seconds, s.del.count) }
          sweep := 1, waiting := waiting } } : ShiftCounter)
    (∀ tag number, s.portOpen →
      (number = old.number → exec (.closeShift tag number) s = .next { s with port :=
        { s.port with
          unread := true
          response := some { kind := 31, tag := tag, result := .done, overwritten := s.port.unread,
                             alreadyOpen := true, body := [] } } }) ∧
      (number ≠ old.number → s.shift.closing ≠ none →
        exec (.closeShift tag number) s = .next { s with port := s.port.completed 31 tag .busy [] }) ∧
      (number ≠ old.number → s.shift.closing = none → ∃ t, exec (.closeShift tag number) s = .next t ∧
        onlyIn [.shift, .line, .frame, .port] s t ∧ t.port = { s.port with executing := some (.closeShift tag) } ∧
        t.shift = begun number true ∧ t.line = (enqueue .shiftMark 0 (field 2 number) s).line ∧
        (gap number = true → alerted .shiftGap none t))) ∧
    (∀ (r : Received) (rest : List Received), s.line.rx = r :: rest →
      let u : State := { s with line := { s.line with rx := rest } }
      let number := r.tel.num 0 2
      (r.tel.kind = .shiftMark →
        (number = old.number → exec .shiftMark s = .next u) ∧
        (number ≠ old.number → s.shift.closing ≠ none → exec .shiftMark s = .next { u with
          shift := { s.shift with refused := min 65535 (s.shift.refused + 1) } }) ∧
        (number ≠ old.number → s.shift.closing = none → exec .shiftMark s = .next { u with
          shift := begun number false
          frame := if gap number then s.frame.raised .shiftGap .note none s.del.seconds else s.frame })) ∧
      (r.tel.kind = .shiftTotals → exec .shiftTotals s = .next { u with shift := { s.shift with
        totals := some { source := r.tel.source, number := number, seconds := s.del.seconds } } }))

/-- R153, R155, R156, R149, R12 and R13, in RUNNING: a sweep step applies the close step to the record at its position unless its
tag is the open shift's: the pulses up to the mark go to the closing shift under the record's cause or as unobserved, its shift
breaks become 0 and its tag the open shift's number. After record N the closing shift's last run is closed at the mark, the report
with its efficiency and break rate heads the ring of four, SHIFT_TOTALS is queued, the close ends, and a waiting CLOSE_SHIFT
completes. With no close in progress the row changes nothing (assumption log 19). A segment's length is converted once from its
summed up-pulses (R149, R5), where R11 adds the lengths of its runs (assumption log 14). -/
def Obligations.SweepClosesRecordsThenReports : Prop :=
  ∀ s : State, s.works →
    (s.shift.closing = none → exec .sweepStep s = .next s) ∧
    ∀ (cl : Closing) (seconds mark : Nat) (first : List Segment) (g : Segment) (start : Nat),
      s.shift.closing = some cl → cl.shift.closedAt = some (seconds, mark) → cl.shift.segments = first ++ [g] →
      g.runStart = some start → s.hasSpindle cl.sweep = true →
      let i := cl.sweep
      let r := s.sp i
      let due := r.shiftTag ≠ s.shift.opened.number
      let n := if due then (r.bookedTo.elim 0 (fun b => mark - b)) else 0
      let booked : Shift := if due then cl.shift.book r.cause n else cl.shift
      let after : Spindle := if due then
          { r with
            bookedTo := r.bookedTo.map (fun b => max b mark)
            lostSinceBase := if r.cause.isSome ∧ n ≠ 0 then min 281474976710655 (r.lostSinceBase + n) else r.lostSinceBase
            shiftBreaks := 0, shiftTag := s.shift.opened.number }
        else r
      ∃ t, exec .sweepStep s = .next t ∧ t.sp i = after ∧ (∀ j, j ≠ i → t.sp j = s.sp j) ∧
        t.shift.opened = s.shift.opened ∧
        (i < s.mon.spindles.length → onlyIn [.mon, .shift] s t ∧
          t.shift = { s.shift with closing := some { cl with shift := booked, sweep := i + 1 } }) ∧
        (i = s.mon.spindles.length → onlyIn [.mon, .shift, .line, .frame, .port] s t ∧
          t.shift.closing = none ∧ ∃ report : Report, t.shift.ring = (report :: s.shift.ring).take 4 ∧
            report.shift.number = cl.shift.number ∧ report.shift.closedAt = cl.shift.closedAt ∧
            report.shift.unobserved = booked.unobserved ∧ report.shift.counts = cl.shift.counts ∧
            (∃ h : Segment, booked.segments = first ++ [h] ∧
              let run := mark - start
              let up := s.cfg.spindles * run - h.openLosses
              report.shift.segments = first ++ [{ h with
                runPulses := h.runPulses + run, up := h.up + up, openLosses := 0, runStart := none
                length := min 18446744073709551615 ((h.up + up) * s.cfg.circumference / (s.cfg.ppr * 1000))
                mass := min 4294967295 (h.mass +
                  up * s.cfg.circumference / (s.cfg.ppr * 1000) * ((h.article.map Prod.snd).getD 0) / 100000000) }]) ∧
            (let gross := s.cfg.spindles * (report.shift.segments.map Segment.runPulses).sum
             let up := (report.shift.segments.map Segment.up).sum
             let breaks := (report.shift.segments.map Segment.breaks).sum
             let hours := s.cfg.spindles * cl.shift.runSeconds
             report.efficiency = (if gross = 0 then 0 else 10000 * up / gross) ∧
             report.breakRate = (if hours = 0 then 0 else breaks * 36000000 / hours) ∧
             (report.shift.flags.noDelivery = true ↔
               gross = 0 ∨ cl.shift.runSeconds = 0 ∨ cl.shift.flags.noDelivery = true)) ∧
            sends .shiftTotals 0 (totalsPayload report) s t ∧
            (∀ tag, cl.waiting = true → s.port.executing = some (.closeShift tag) →
              t.port = ({ s.port with executing := none } : Port).completed 31 tag .done
                (field 2 cl.shift.number ++ field 2 s.shift.opened.number ++
                  field 1 (if s.shift.opened.flags.gap then 1 else 0))) ∧
            (cl.waiting = false → t.port = s.port))

/-- R163, R167 and R168, in RUNNING: a reception that is short, announces more than 24 payload bytes, or breaks off is one framing
error; a complete one is a check error where its CRC does not agree; a good one that this station has just sent to the end is taken no
further; any other good one is heard, and by its source, destination and kind raises DUPLICATE_STATION, is left to its addressee, is
an unknown kind, overruns the buffer of four, or joins it. What trails a complete telegram adds one framing error. The idle count, and
that TELEGRAM_SENT comes before the TELEGRAM_RECEIVED of the same telegram, are assumption logs 10 and 24; that a doff kind of this
station's own number counts as dropped whichever of the four it is, and whatever its length, assumption logs 29 and 38. -/
def Obligations.ReceptionJudgedAndKept : Prop :=
  ∀ (s : State) (bs : List Byte) (bad more : Bool), s.works →
    let at_ := fun (n : Nat) => (bs.getD n 0).toNat
    let size := 4 + at_ 3
    let complete := 4 ≤ bs.length ∧ at_ 3 ≤ 24 ∧ size + 2 ≤ bs.length
    let good := ofBytes ((bs.drop size).take 2) = (crc (bs.take size)).toNat
    let trailing := bad = true ∨ more = true ∨ size + 2 < bs.length
    let own := s.line.ownSent = some (bs.take (size + 2))
    let c := s.line.counters
    let framing := min 65535 (c.framing + 1)
    let framed : LineCounters → LineCounters := fun k => if trailing then { k with framing := framing } else k
    let quiet : Line := { s.line with idle := idleOf bs bad more, ownSent := none }
    let here := at_ 2 = 0 ∨ at_ 2 = s.cfg.station
    let heard_ : Line := { quiet with lastHeard := some s.del.seconds, liveQuiet := false, counters := framed c }
    (¬ complete → exec (.telegramReceived bs bad more) s = .next { s with
      line := { quiet with counters := { c with framing := framing } } }) ∧
    (complete → ¬ good → exec (.telegramReceived bs bad more) s = .next { s with
      line := { quiet with counters := framed { c with check := min 65535 (c.check + 1) } } }) ∧
    (complete → good → own → exec (.telegramReceived bs bad more) s = .next { s with
      line := { quiet with counters := framed c } }) ∧
    (complete → good → ¬ own →
      (at_ 1 = s.cfg.station → exec (.telegramReceived bs bad more) s = .next { s with
        line := heard_
        frame := s.frame.raised .duplicateStation .stop (some s.cfg.station) s.del.seconds
        doff := if (2 ≤ at_ 0 ∧ at_ 0 ≤ 5) ∧ here then { s.doff with dropped := min 65535 (s.doff.dropped + 1) }
          else s.doff }) ∧
      (at_ 1 ≠ s.cfg.station → ¬ here → exec (.telegramReceived bs bad more) s = .next { s with line := heard_ }) ∧
      (at_ 1 ≠ s.cfg.station → here → telegramOf bs = none → exec (.telegramReceived bs bad more) s = .next { s with
        line := { heard_ with counters := framed { c with unknown := min 65535 (c.unknown + 1) } } }) ∧
      (∀ t, at_ 1 ≠ s.cfg.station → here → telegramOf bs = some t → 4 ≤ s.line.rx.length →
        exec (.telegramReceived bs bad more) s = .next { s with
          line := { heard_ with counters := framed { c with overrun := min 65535 (c.overrun + 1) } } }) ∧
      (∀ t, at_ 1 ≠ s.cfg.station → here → telegramOf bs = some t → s.line.rx.length < 4 →
        exec (.telegramReceived bs bad more) s = .next { s with
          line := { heard_ with
            counters := framed { c with received := min 65535 (c.received + 1) }
            rx := s.line.rx ++ [{ tel := t, byPiecing := false, byCreel := false, byDoff := false }] } }))

/-- R162, R163 and 12.1: what a station sends is what another receives: the bytes of a telegram with fields in their ranges are
complete with a good check, and spell that telegram again; and the CRC over the whole of them, its check included, is 0. -/
def Obligations.SentTelegramIsReceivedAgain : Prop :=
  ∀ t : Telegram, 1 ≤ t.source → t.source ≤ 62 → t.dest ≤ 62 → t.kind.lengthOk t.payload.length = true →
    t.bytes.length = t.payload.length + 6 ∧ judgeBytes t.bytes = .good ∧ hasTrailing t.bytes false false = false ∧
    telegramOf t.bytes = some t ∧ crc t.bytes = 0

/-- R166: a telegram handed over replaces the queued one of its key in its place; else it joins where the queue holds fewer than
eight; else it takes the room of the telegram that joined last of those of greater class; else it is dropped. The queue stays in
the order of class and joining, holds at most eight, and never two of one key. The stamp by which the model keeps the order of
joining is its own (assumption log 12). -/
def Obligations.OutgoingQueueKeepsOrderAndKeys : Prop :=
  ∀ (t : Telegram) (l : Line),
    l.out.length ≤ 8 → l.out.Pairwise (fun a b => a.before b = true) → (∀ q ∈ l.out, q.joined < l.nextJoin) →
    l.out.Pairwise (fun a b => a.tel.sameKey b.tel = false) → (l.out.map Outgoing.joined).Nodup →
    let r := (joined t l).1
    let dropped := (joined t l).2
    r.out.length ≤ 8 ∧ r.out.Pairwise (fun a b => a.before b = true) ∧ (∀ q ∈ r.out, q.joined < r.nextJoin) ∧
    r.out.Pairwise (fun a b => a.tel.sameKey b.tel = false) ∧ (r.out.map Outgoing.joined).Nodup ∧
    ((∃ q ∈ l.out, q.tel.sameKey t = true) → dropped = false ∧ r.nextJoin = l.nextJoin ∧
      r.out = l.out.map (fun q => if q.tel.sameKey t then { q with tel := t, collisions := 0 } else q)) ∧
    ((∀ q ∈ l.out, q.tel.sameKey t = false) → l.out.length < 8 → dropped = false ∧
      { tel := t, collisions := 0, joined := l.nextJoin } ∈ r.out ∧ (∀ q ∈ l.out, q ∈ r.out)) ∧
    ((∀ q ∈ l.out, q.tel.sameKey t = false) → l.out.length = 8 → dropped = true ∧
      ((∀ q ∈ l.out, q.tel.kind.cls ≤ t.kind.cls) → r = l) ∧
      ∀ q ∈ l.out, t.kind.cls < q.tel.kind.cls →
        (∀ p ∈ l.out, t.kind.cls < p.tel.kind.cls → p.joined ≤ q.joined) →
        q ∉ r.out ∧ { tel := t, collisions := 0, joined := l.nextJoin } ∈ r.out ∧ ∀ p ∈ l.out, p ≠ q → p ∈ r.out)

/-- R161, R164, R165, R167, R169 and R171, in RUNNING: passing recessive bit times raise the idle count, and at its gap the head
of the queue goes to the transmit register; a collision at a bit of the telegram counts and returns the telegram to its place, or
drops it at the sixteenth with TELEGRAM_DROPPED; a telegram sent to the end is counted, and its bytes are this station's own until
their reception is judged (R163); a STATION_RESTART that is sent or dropped completes a waiting LINE_RESTART; a telegram that no
block takes leaves the buffer; and thirty seconds unheard make the line quiet, once. The idle count after a loss and after a sent
telegram, and that LINE_GAINED carries the bit times that have passed, is assumption log 10, the return to a full queue assumption
log 12, and the order of the ends of a telegram, and that TELEGRAM_SENT and COLLISION change nothing where nothing is being sent
or the telegram has no such bit, assumption log 24. R171 says only that the response of a LINE_RESTART says which end it was: its
body byte, 0 sent and 1 dropped, is the model's choice (assumption log 5). That TELEGRAM_PASSED_OVER takes the oldest telegram of
the buffer where no block owns its kind, and changes nothing on another kind or an empty buffer, is assumption log 11; that
LINE_QUIET is its own row, guarded by its moment, is assumption log 1, and the quiet watch before any line restart assumption log
8. -/
def Obligations.LineGainedLostSentAndQuiet : Prop :=
  ∀ s : State, s.works →
    let c := s.line.counters
    let restarted := fun (o : Outgoing) (said : Nat) => match s.port.executing with
      | some (.lineRestart tag) => if o.tel.kind = .stationRestart then
          ({ s.port with executing := none } : Port).completed 7 tag .done (field 1 said) else s.port
      | _ => s.port
    (∀ bits : Nat,
      let idle := min 255 (s.line.idle + bits)
      (∀ o rest, s.line.sending = none → s.line.out = o :: rest →
        12 + 8 * o.tel.kind.cls + s.cfg.station % 8 + o.collisions * (1 + s.cfg.station / 8) ≤ idle →
        exec (.lineGained bits) s = .next { s with line := { s.line with idle := idle, sending := some o, out := rest } }) ∧
      (s.line.sending ≠ none ∨ (∀ o ∈ s.line.out.head?,
          idle < 12 + 8 * o.tel.kind.cls + s.cfg.station % 8 + o.collisions * (1 + s.cfg.station / 8)) →
        exec (.lineGained bits) s = .next { s with line := { s.line with idle := idle } })) ∧
    (∀ n : Nat,
      (s.line.sending = none → exec (.collision n) s = .next s) ∧
      (∀ o, s.line.sending = some o → 10 * o.tel.bytes.length ≤ n → exec (.collision n) s = .next s) ∧
      ∀ o driven, s.line.sending = some o → (wireBits o.tel.bytes)[n]? = some driven →
        let lost : Line := { s.line with
          sending := none
          idle := if driven then 0 else min 255 (countIdle s.line.idle ((wireBits o.tel.bytes).take n) + 1)
          counters := { c with collisions := min 65535 (c.collisions + 1) } }
        (o.collisions < 15 → (∃ q ∈ s.line.out, q.tel.sameKey o.tel = true) →
          exec (.collision n) s = .next { s with line := lost }) ∧
        (o.collisions < 15 → (∀ q ∈ s.line.out, q.tel.sameKey o.tel = false) → s.line.out.length < 8 →
          exec (.collision n) s = .next { s with line :=
            { lost with out := insertOutgoing { o with collisions := o.collisions + 1 } s.line.out } }) ∧
        (o.collisions < 15 → (∀ q ∈ s.line.out, q.tel.sameKey o.tel = false) → 8 ≤ s.line.out.length →
          exec (.collision n) s = .next (joinLine o.tel { s with line := lost })) ∧
        (15 ≤ o.collisions → ∃ t, exec (.collision n) s = .next t ∧ onlyIn [.line, .frame, .port] s t ∧
          t.line = { lost with counters := { lost.counters with dropped := min 65535 (c.dropped + 1) } } ∧
          alerted .telegramDropped none t ∧ t.port = restarted o 1)) ∧
    (s.line.sending = none → exec .telegramSent s = .next s) ∧
    (∀ o, s.line.sending = some o → exec .telegramSent s = .next { s with
      line := { s.line with
        sending := none, idle := idleAfter o.tel.bytes, ownSent := some o.tel.bytes
        counters := { c with sent := min 65535 (c.sent + 1) } }
      port := restarted o 0 }) ∧
    (∀ r rest, s.line.rx = r :: rest →
      exec .telegramPassedOver s = .next (if r.tel.kind ∈
          [.pieceCall, .robotAccept, .robotDecline, .workOrder, .workCancel, .robotRelease, .rovingDue, .bookingAck] then
        { s with line := { s.line with rx := rest } } else s)) ∧
    (s.line.rx = [] → exec .telegramPassedOver s = .next s) ∧
    (exec .lineQuiet s = .next
      (if s.line.lastHeard.getD s.line.restartedAt + 30 ≤ s.del.seconds ∧ s.line.liveQuiet = false then
        { s with
          line := { s.line with liveQuiet := true, stickyQuiet := true }
          frame := s.frame.raised .lineQuiet .note none s.del.seconds }
      else s))

/-- R171, R83, R97 and R129 in RUNNING: LINE_RESTART stays executing and empties the line controller; a STATION_RESTART heads the
queue; every engagement that has a robot gives it up, a calling one begins a new spell; a non-empty due list is announced; the
peer view is empty, a grant is withdrawn, and the doff sequencer announces itself and listens anew where it claims. On the emptied
line the STATION_RESTART, a PIECE_CALL of each engagement that is left calling, the ROVING_DUE of a non-empty due list and the
DOFF_CLAIM or DOFF_STATE are handed over in this order; that side A's PIECE_CALL goes before side B's, the oldest age of one over
no record, that an ordered record returns to piecing (R83), with its close step during a close, where R44, R63 and R160 have the
records, the queues and the shift counter unchanged, and that the ROVING_DUE counts as queued, are the model's choices (assumption
logs 27, 31, 35 and 36), and so are the stamp of joining, which goes on, and the end of the wait for this station's own telegram
(assumption logs 12 and 24). -/
def Obligations.LineRestartForgetsCommitments : Prop :=
  ∀ (s : State) (tag : Nat), s.portOpen → s.works →
    let now := s.del.seconds
    let d := s.doff
    let anew : Doff := { d with view := [], nextAnn := some (now + 5) }
    ∃ t, exec (.lineRestart tag) s = .next t ∧
      onlyIn [.mon, .pie, .creel, .doff, .shift, .line, .frame, .draws, .port] s t ∧
      t.port = { s.port with executing := some (.lineRestart tag) } ∧
      t.line.rx = [] ∧ t.line.sending = none ∧ t.line.idle = 0 ∧ t.line.lastHeard = none ∧
      t.line.liveQuiet = false ∧ t.line.stickyQuiet = false ∧ t.line.restartedAt = now ∧
      t.line.counters = LineCounters.zero ∧
      t.line.out.head? = some
        { tel := { kind := .stationRestart, source := s.cfg.station, dest := 0, payload := [] }
          collisions := 0, joined := s.line.nextJoin } ∧
      (∀ x, (t.side x).bar = (s.side x).bar) ∧
      (∀ x, x = .a ∨ s.cfg.joined ≠ 1 →
        ((s.eng x).state = .idle ∨ (s.eng x).state = .suspended → t.eng x = s.eng x) ∧
        ((s.eng x).state = .calling → (t.eng x).state = .calling ∧ (t.eng x).sinceCall = 0 ∧
          (t.eng x).nextCall = some (now + 10)) ∧
        ((s.eng x).state = .awaiting ∨ (s.eng x).state = .working ∨ (s.eng x).state = .orderOut →
          (t.eng x).robot = none ∧ (t.eng x).order = none ∧ (t.eng x).timer = none ∧
          ((t.eng x).state = .calling ∨ (t.eng x).state = .idle))) ∧
      (s.tabled → (s.cfg.joined ≠ 1 → ∀ o, (s.eng .b).order = some o → s.sideOf o.index = .b) →
        let emptied : State := { s with line := { s.line.cleared with restartedAt := now } }
        let calls := fun (x : Side) => (x = .a ∨ s.cfg.joined ≠ 1) ∧ (t.eng x).state = .calling
        let due : List Handed := if s.creel.dueList = [] then [] else
          [(.rovingDue, 0, (s.creel.dueList.take 6).flatMap (fun e => field 1 e.number ++ field 2 e.minutes))]
        ∃ callA callB : List Handed,
          hands ([(.stationRestart, 0, [])] ++ callA ++ callB ++ due ++ doffAnnounced s) emptied t ∧
          ∀ x, let call := match x with | .a => callA | .b => callB
            (¬ calls x → call = []) ∧
            (calls x → ∃ lowest highest, call = [callOf x lowest highest t] ∧ callIndices x lowest highest t)) ∧
      t.creel = { s.creel with
        announceFrom := some now, dueSentAt := if s.creel.dueList = [] then s.creel.dueSentAt else some now } ∧
      (d.state = .claimed ∨ d.state = .fullWait → t.doff = { anew with listenEnd := some (now + 3) }) ∧
      (d.state = .granted → t.doff = { anew with
        listenEnd := some (now + 3), confirmEnd := none, grantedWait := none
        state := if d.urgency = .full then .fullWait else .claimed }) ∧
      (d.state = .rundown ∨ d.state = .doffing ∨ d.state = .unknown → t.doff = anew) ∧
      (d.state = .spinning ∨ d.state = .restart ∨ d.state = .settling → t.doff = { d with view := [] })

/-! ### Chapter 11: frame lines, alerts and the command port -/

/-- R180 to R182 and R189. The first byte of a transaction selects: 1 a command write, whose record is taken by the four cases of
R181; 2 a response read, which returns the status byte, the response and 255 beyond it, and marks the response read with its first
byte; any other byte a status read, which returns the status byte and then free values, and takes nothing (assumption log 2). A
transaction of the other row, or one without a byte, is not the event of COMMAND_WRITE or RESPONSE_READ (assumption log 9). A
command leaves a full slot while none executes, and then does what its own row does; its row does nothing while another command
executes, and while the command-fault latch is set a command other than STATUS, CLEAR_FAULT and WARM_RESET is discarded and
counted; CLEAR_FAULT clears the latch (assumption log 4). That the first fault sets the latch and leaves the fault count, and that
any record but a WARM_RESET over a full slot is SLOT_OVERRUN, a bad one too, is assumption log 16. -/
def Obligations.CommandPortTakesAndReturnsRecords : Prop :=
  ∀ s : State, s.frame.resetLow = false →
    let port := s.port
    (∀ bs : List Byte,
      let p : Port := { port with returned := statusByte s :: List.replicate bs.length 0 }
      let faulted : FaultCause → Port := fun c => match port.latch with
        | none => { p with latch := some c }
        | some _ => { p with faults := min 255 (port.faults + 1) }
      (port.slot ≠ none → recordKind bs ≠ some 6 →
        exec (.commandWrite (1#8 :: bs)) s = .next { s with port := faulted .slotOverrun }) ∧
      (port.slot = none ∨ recordKind bs = some 6 →
        (readRecord bs = none → exec (.commandWrite (1#8 :: bs)) s = .next { s with port := faulted .badCommand }) ∧
        (∀ tag, readRecord bs = some (.warmReset, tag) →
          exec (.commandWrite (1#8 :: bs)) s = exec (.warmReset tag) { s with port := p }) ∧
        (∀ c tag, c ≠ .warmReset → readRecord bs = some (c, tag) →
          exec (.commandWrite (1#8 :: bs)) s = .next { s with port := { p with slot := some (c, tag) } }))) ∧
    (∀ bs : List Byte, exec (.responseRead (2#8 :: bs)) s = .next { s with port := { port with
      returned := statusByte s :: (responseBytes port.response ++ List.replicate bs.length 255#8).take bs.length
      unread := if bs = [] then port.unread else false } }) ∧
    (∀ (b : Byte) (bs : List Byte) (c : Instr), b ≠ 1#8 → b ≠ 2#8 →
      c = .commandWrite (b :: bs) ∨ c = .responseRead (b :: bs) →
      ∃ t, exec c s = .next t ∧ onlyIn [.port, .draws] s t ∧ t.port = { port with returned := t.port.returned } ∧
        t.port.returned.head? = some (statusByte s) ∧ t.port.returned.length = bs.length + 1) ∧
    (∀ bs : List Byte, exec (.commandWrite (2#8 :: bs)) s = .next s ∧ exec (.responseRead (1#8 :: bs)) s = .next s) ∧
    (exec (.commandWrite []) s = .next s ∧ exec (.responseRead []) s = .next s) ∧
    (port.executing ≠ none ∨ port.slot = none → exec .commandDispatch s = .next s) ∧
    (∀ c tag, c ≠ .warmReset →
      (port.executing = none → port.slot = some (c, tag) →
        exec .commandDispatch s = exec (rowOf c tag) { s with port := { port with slot := none } }) ∧
      (port.executing ≠ none → exec (rowOf c tag) s = .next s) ∧
      (port.executing = none → port.latch ≠ none → c ≠ .status → c ≠ .clearFault →
        exec (rowOf c tag) s = .next { s with port := { port with discarded := min 65535 (port.discarded + 1) } })) ∧
    (∀ tag, port.executing = none → exec (.clearFault tag) s = .next { s with
      port := ({ port with latch := none, faults := 0 } : Port).completed 8 tag .done [] }) ∧
    ((statusByte s).getLsbD 0 = port.slot.isNone ∧
      (statusByte s).getLsbD 1 = (port.slot.isNone && port.executing.isNone) ∧
      (statusByte s).getLsbD 2 = port.unread ∧ (statusByte s).getLsbD 3 = port.latch.isSome ∧
      (statusByte s).getLsbD 4 = s.frame.alerts.any (fun a => a.cls == .note) ∧
      (statusByte s).getLsbD 5 = s.frame.alerts.any (fun a => a.cls == .action) ∧
      (statusByte s).getLsbD 6 = s.frame.alerts.any (fun a => a.cls == .stop) ∧ (statusByte s).getLsbD 7 = false)

/-- R174, R183 and R187 with R19, R42, R85, R115, R131, R159 and R173: POWER_ON and RESET_N_LOW give every block its power-on
values, with NOT_STARTED alone in the hold-cause set (the wires' levels kept, assumption log 3), nothing counted, no record
created, shift 0 open with one segment, and nothing on the line; while RESET_N is low no row but these two changes anything but a
wire's level (assumption log 3); the events that occur in RUNNING alone change nothing in INIT and READY; and the commands that
R183 names are NOT_RUNNING there, with an empty body (assumption log 5). The power-on values of the fields that the model adds are
its own: the flag of a raised NO_ROBOT (assumption log 6), the second of the last ROVING_DUE (7), the second of the latest line
restart (8), the bytes returned on SPI (9), the stamp of joining (12) and the station's own telegram just sent (24); the counter
of free values is kept (2). -/
def Obligations.HeldAtPowerOnAndBeforeStart : Prop :=
  (∀ s : State,
    let on : Bool → State := fun low => { State.reset with
      frame := { State.reset.frame with
        run := s.frame.run, maint := s.frame.maint, levels := s.frame.levels, resetLow := low }
      draws := s.draws, pending := s.pending }
    exec .powerOn s = .next (on false) ∧ exec .resetNLow s = .next (on true)) ∧
  (State.reset.port.part = .init ∧ State.reset.port.config = none ∧ State.reset.port.slot = none ∧
    State.reset.port.executing = none ∧ State.reset.port.response = none ∧ State.reset.port.latch = none ∧
    State.reset.port.faults = 0 ∧ State.reset.port.discarded = 0 ∧ State.reset.frame.alerts = [] ∧
    State.reset.port.unread = false ∧ State.reset.port.returned = [] ∧
    State.reset.frame.overflow = 0 ∧ State.reset.frame.latches = [false, false, false, false] ∧
    ∀ c, State.reset.frame.holds.has c = (c == .notStarted)) ∧
  (State.reset.del = { count := 0, jog := 0, seconds := 0, pulseFree := 0, buckets := [], openBucket := none
                       nextBucketAt := none, active := none, staged := none, armed := false } ∧
    State.reset.mon = { spindles := [], strips := [], rotation := none, lockout := none, pin := false, aboveLimit := false } ∧
    (∀ x, State.reset.eng x = { state := .idle, robot := none, order := none, position := none, ascending := true
                                timer := none, timeouts := 0, sinceCall := 0, nextCall := none, called := false } ∧
      State.reset.side x = { queue := [], waiting := [], eng := State.reset.eng x, bar := none }) ∧
    State.reset.pie.nextTag = 0 ∧ State.reset.pie.late = 0 ∧ State.reset.pie.stray = 0 ∧
    State.reset.creel = { sections := [], dueList := [], firstSix := [], announceFrom := none, dueSentAt := none
                          nextRecompute := none, slot1 := none, slot2 := none, stray := 0 } ∧
    State.reset.doff = { state := .spinning, copMark := 0, urgency := .normal, firstClaim := none, nextAnn := none
                         listenEnd := none, confirmEnd := none, doffTimer := none, settleStart := none, settleSeconds := 0
                         manual := false, view := [], grantedWait := none, dropped := 0, backOffs := 0 } ∧
    State.reset.shift = { closing := none, ring := [], refused := 0, totals := none, opened :=
      { number := 0, openedSeconds := 0, openedCount := 0, closedAt := none, runSeconds := 0, stopSeconds := 0
        flags := { gap := false, mixed := false, warmReset := false, noDelivery := false }
        unobserved := 0, doffs := 0, counts := none
        segments := [{ article := none, startCount := 0, runStart := some 0, runPulses := 0, brk := 0, roving := 0
                       lockout := 0, rogue := 0, openLosses := 0, up := 0, length := 0, mass := 0, breaks := 0
                       doffStarts := 0, byRobot := 0, byHand := 0, mixed := false }] } } ∧
    State.reset.line = { out := [], nextJoin := 0, sending := none, rx := [], idle := 0, lastHeard := none, restartedAt := 0
                         counters := { sent := 0, received := 0, framing := 0, check := 0, overrun := 0, unknown := 0
                                       collisions := 0, dropped := 0 }
                         ownSent := none, liveQuiet := false, stickyQuiet := false }) ∧
  (∀ (i : Instr) (s : State), s.frame.resetLow = true → i ≠ .powerOn → i ≠ .resetNLow →
    (∀ level, i = .runChange level → exec i s = .next { s with frame := { s.frame with run := level } }) ∧
    (∀ level, i = .maintChange level → exec i s = .next { s with frame := { s.frame with maint := level } }) ∧
    (∀ n level, i = .faultInput n level →
      exec i s = .next { s with frame := { s.frame with levels := s.frame.levels.set n level } }) ∧
    ((∀ level, i ≠ .runChange level) → (∀ level, i ≠ .maintChange level) → (∀ n level, i ≠ .faultInput n level) →
      exec i s = .next s)) ∧
  (∀ (i : Instr) (s : State), rowNeedsRunning i = true → s.port.part ≠ .running → exec i s = .next s) ∧
  (∀ (c : Command) (tag : Nat) (s : State), commandNeedsRunning c = true → s.portOpen → s.port.part ≠ .running →
    exec (rowOf c tag) s = .next { s with port := s.port.completed (commandKind c) tag .notRunning [] })

/-- R175 to R179: HOLD_SET and HOLD_CLEAR put and lift HOST_HOLD; ACK_ALERT removes the oldest entry alone, where code and subject are
its own; FAULT_ACK is refused beyond input 3 and at the active level, and else clears the latch; a taken change of a fault input sets
its latch with FAULT_INPUT at the active level, and clears it at the inactive one in mode AUTO, FAULT_n following a STOP-class latch;
and a raised alert is taken by the first of R178's four cases, ALERT_STOP following the list. A FAULT_INPUT that carries the level
already taken changes nothing (assumption log 24). -/
def Obligations.HoldsFaultsAndAlerts : Prop :=
  (∀ (s : State) (tag : Nat), s.portOpen → s.works →
    exec (.holdSet tag) s = .next { s with
      frame := { s.frame with holds := { s.frame.holds with hostHold := true } }
      port := s.port.completed 32 tag .done [] } ∧
    exec (.holdClear tag) s = .next { s with
      frame := { s.frame with holds := { s.frame.holds with hostHold := false } }
      port := s.port.completed 33 tag .done [] } ∧
    (∀ code subject : Nat,
      let matches_ : Alert → Prop := fun a => a.code.code = code ∧ a.subject.getD 65535 = subject
      (∀ a rest, s.frame.alerts = a :: rest → matches_ a → exec (.ackAlert tag code subject) s = .next { s with
        frame := { s.frame with
          alerts := rest, holds := { s.frame.holds with alertStop := rest.any (fun b => b.cls == .stop) } }
        port := s.port.completed 20 tag .done [] }) ∧
      ((∀ a ∈ s.frame.alerts.head?, ¬ matches_ a) →
        exec (.ackAlert tag code subject) s = .next { s with port := s.port.completed 20 tag .noSuch [] })) ∧
    (∀ n : Nat, 4 ≤ n → exec (.faultAck tag n) s = .next { s with port := s.port.completed 34 tag .noSuch [] }) ∧
    (∀ n b : Nat, n < 4 → s.cfg.faults[n]? = some b → s.port.config ≠ none →
      let active := s.frame.levels.getD n false != (b % 2 == 1)
      exec (.faultAck tag n) s = .next (if active then { s with port := s.port.completed 34 tag .stillActive [] }
        else { s with
          frame := { s.frame with
            latches := s.frame.latches.set n false
            holds := if 2 ≤ b / 4 % 4 then s.frame.holds.put (HoldCause.fault n) false else s.frame.holds }
          port := s.port.completed 34 tag .done [] }))) ∧
  (∀ (s : State) (n : Nat) (level : Bool), s.frame.resetLow = false →
    let taken : Frame := { s.frame with levels := s.frame.levels.set n level }
    (s.frame.levels.getD n false = level → exec (.faultInput n level) s = .next s) ∧
    (s.frame.levels.getD n false ≠ level →
      (s.port.config = none → exec (.faultInput n level) s = .next { s with frame := taken }) ∧
      (∀ b, s.port.config ≠ none → s.cfg.faults[n]? = some b →
        let active := level != (b % 2 == 1)
        let cls : AlertClass := if b / 4 % 4 = 0 then .note else if b / 4 % 4 = 1 then .action else .stop
        let edge : Frame :=
          ({ taken with latches := s.frame.latches.set n true } : Frame).raised .faultInput cls (some n) s.del.seconds
        (active = true → exec (.faultInput n level) s = .next { s with
          frame := if cls = .stop then { edge with holds := edge.holds.put (HoldCause.fault n) true } else edge }) ∧
        (active = false → b / 2 % 2 = 1 → exec (.faultInput n level) s = .next { s with frame := taken }) ∧
        (active = false → b / 2 % 2 = 0 → exec (.faultInput n level) s = .next { s with frame := { taken with
          latches := s.frame.latches.set n false
          holds := if cls = .stop then s.frame.holds.put (HoldCause.fault n) false else s.frame.holds } })))) ∧
  (∀ (f : Frame) (code : AlertCode) (cls : AlertClass) (subject : Option Nat) (now : Nat), f.listed →
    let g := f.raised code cls subject now
    let new : Alert := { code := code, cls := cls, subject := subject, raised := now, repeats := 1 }
    g.listed ∧ g = { f with
      alerts := g.alerts, overflow := g.overflow
      holds := { f.holds with alertStop := g.alerts.any (fun a => a.cls == .stop) } } ∧
    (∀ before a after, f.alerts = before ++ a :: after → a.code = code → a.subject = subject →
      g.alerts = before ++ { a with repeats := min 255 (a.repeats + 1) } :: after ∧ g.overflow = f.overflow) ∧
    ((∀ a ∈ f.alerts, ¬ (a.code = code ∧ a.subject = subject)) →
      (f.alerts.length < 32 → g.alerts = f.alerts ++ [new] ∧ g.overflow = f.overflow) ∧
      (∀ before a after, f.alerts.length = 32 → cls ≠ .note → f.alerts = before ++ a :: after → a.cls = .note →
        (∀ b ∈ after, b.cls ≠ .note) → g.alerts = before ++ after ++ [new] ∧ g.overflow = f.overflow) ∧
      (f.alerts.length = 32 → cls = .note ∨ (∀ a ∈ f.alerts, a.cls ≠ .note) →
        g.alerts = f.alerts ∧ g.overflow = min 65535 (f.overflow + 1))))

/-- R18, R40, R41, R60, R84, R98, R99, R114, R130, R143, R156, R157, R172, R176, R179, R183 and R190, in every part state: STATUS,
also with the command-fault latch set, and the read commands complete with DONE and change nothing but the response, and READ_LINE
the sticky QUIET flag. READ_SHIFT reports the open shift as if its run closed now, its open-run losses as they stand (assumption
log 5) and a segment's length by R149 (assumption log 14), and before CONFIGURE its fields as they stand with NO_DELIVERY
(assumption log 26); READ_PEERS says of each peer whether it counts as ahead, which one in RUNDOWN, DOFFING or UNKNOWN always does
(R138). A spindle record takes 36 bytes and a report 52 and 93 for each segment; an ABSENT report of 52 bytes, without a segment,
and the widths and codes of the other bodies are the model's (assumption log 5). -/
def Obligations.ReadsReportAndChangeNothing : Prop :=
  (∀ (s : State) (tag : Nat), s.frame.resetLow = false → s.port.executing = none →
    exec (.status tag) s = .next { s with port := s.port.completed 1 tag .done (statusBody s) }) ∧
  (∀ (s : State) (tag n : Nat), s.portOpen →
    let reads := fun (c : Instr) (kind : Nat) (body : List Byte) =>
      exec c s = .next { s with port := s.port.completed kind tag .done body }
    reads (.readSpindle tag n) 9 (if 1 ≤ n ∧ n ≤ s.mon.spindles.length then spindleBytes n (s.sp n) else ones 36) ∧
    reads (.readStrip tag n) 10 (stripBody n s) ∧ reads (.readQueue tag n) 11 (queueBody n s) ∧
    reads (.readEngagement tag n) 12 (engagementBody n s) ∧ reads (.readSection tag n) 13 (sectionBody n s) ∧
    reads (.readBookings tag) 14 (bookingsBody s) ∧ reads (.readDoff tag) 15 (doffBody s) ∧
    reads (.readPeers tag) 16 (peersBody s) ∧ reads (.readShift tag) 17 (shiftBody s) ∧
    reads (.readReport tag n) 18 ((s.shift.ring[n]?).elim (ones 52) reportBytes) ∧
    reads (.readAlert tag) 19
      ((match s.frame.alerts with
        | [] => List.replicate 10 255#8
        | a :: _ => [0#8] ++ beBytes 1 a.code.code ++ beBytes 1 (match a.cls with | .note => 0 | .action => 1 | .stop => 2) ++
            field 2 (a.subject.getD 65535) ++ field 4 a.raised ++ field 1 a.repeats) ++
        field 1 s.frame.alerts.length ++ field 2 s.frame.overflow) ∧
    reads (.readInputs tag) 22 (inputsBody s) ∧
    exec (.readLine tag) s = .next { s with
      line := { s.line with stickyQuiet := false }, port := s.port.completed 21 tag .done (lineBody s) }) ∧
  (∀ s : State, (s.port.config = none → s.openReport =
      { shift := { s.shift.opened with flags := { s.shift.opened.flags with noDelivery := true } }
        efficiency := 0, breakRate := 0 }) ∧
    ∀ (c : Configuration) (first : List Segment) (g : Segment), s.port.config = some c →
      s.shift.opened.segments = first ++ [g] →
      let live := first ++ [{ g.closeRun c s.del.count with runStart := g.runStart, openLosses := g.openLosses }]
      let gross := c.spindles * (live.map Segment.runPulses).sum
      s.openReport.shift.segments = live ∧ s.openReport.shift.number = s.shift.opened.number ∧
      s.openReport.efficiency = (if gross = 0 then 0 else 10000 * (live.map Segment.up).sum / gross)) ∧
  (∀ (s : State) (p : Peer), s.doff.state = .claimed ∨ s.doff.state = .fullWait ∨ s.doff.state = .granted →
    (p.phase = .rundown ∨ p.phase = .doffing ∨ p.phase = .unknown → (peerBytes s p).getLast? = some 1#8) ∧
    (p.phase = .claimed ∨ p.phase = .granted →
      (peerBytes s p).getLast? = some (if aheadAt s.cfg s.del.seconds s.doff p then 1#8 else 0#8))) ∧
  (∀ (n : Nat) (r : Spindle), (spindleBytes n r).length = 36) ∧
  (∀ r : Report, (reportBytes r).length = 52 + 93 * r.shift.segments.length)

/-- R184, R42, R61, R100 and R175: CONFIGURE is ALREADY_CONFIGURED past INIT and OUT_OF_RANGE, taking no field, where a field leaves
its range; else the configuration is held whole, the tables, queues and sections are created, each fault latch is re-sampled from its
level, and the part is READY. A fault setup byte with one of bits 4 to 7 set is in range by a free value (assumption log 2). -/
def Obligations.ConfigureTakesOrRefuses : Prop :=
  ∀ (s : State) (tag : Nat) (c : Configuration), s.portOpen →
    let inRange : Prop :=
      (1 ≤ c.station ∧ c.station ≤ 62) ∧ (96 ≤ c.spindles ∧ c.spindles ≤ 2016 ∧ 48 ∣ c.spindles) ∧ c.joined ≤ 1 ∧
      (60000 ≤ c.circumference ∧ c.circumference ≤ 150000) ∧ (50 ≤ c.ppr ∧ c.ppr ≤ 2000) ∧
      (500 ≤ c.scanPeriod ∧ c.scanPeriod ≤ 4000) ∧ (50 ≤ c.upPercent ∧ c.upPercent ≤ 95) ∧
      (5 ≤ c.downPercent ∧ c.downPercent ≤ 45 ∧ c.downPercent < c.upPercent) ∧ (1 ≤ c.slots ∧ c.slots ≤ 6) ∧
      (900 ≤ c.claimLevel ∧ c.claimLevel ≤ 995) ∧ (10 ≤ c.settleWindow ∧ c.settleWindow ≤ 120) ∧
      (1 ≤ c.attemptLimit ∧ c.attemptLimit ≤ 5) ∧ (4 ≤ c.rogueLimit ∧ c.rogueLimit ≤ 60) ∧
      (30 ≤ c.escalationAge ∧ c.escalationAge ≤ 900) ∧ (1 ≤ c.endsDownLimit ∧ c.endsDownLimit ≤ 200) ∧
      c.emptyMargin ≤ 50 ∧ c.lineDivisor ≤ 255 ∧
      (∀ b ∈ c.faults, b / 4 % 4 ≠ 3 ∧ (b < 16 ∨ Config.oddSetupByte b = true)) ∧
      (60 ≤ c.arrivalTime ∧ c.arrivalTime ≤ 600) ∧ (10 ≤ c.orderTime ∧ c.orderTime ≤ 120) ∧
      (300 ≤ c.exchangeTime ∧ c.exchangeTime ≤ 3600) ∧ (120 ≤ c.bookingGrace ∧ c.bookingGrace ≤ 1800) ∧
      (120 ≤ c.doffTime ∧ c.doffTime ≤ 1800) ∧ (10 ≤ c.horizon ∧ c.horizon ≤ 240)
    (s.port.part ≠ .init →
      exec (.configure tag c) s = .next { s with port := s.port.completed 2 tag .alreadyConfigured [] }) ∧
    (s.port.part = .init → ¬ inRange →
      exec (.configure tag c) s = .next { s with port := s.port.completed 2 tag .outOfRange [] }) ∧
    (s.port.part = .init → inRange → ∃ t, exec (.configure tag c) s = .next t ∧
      onlyIn [.mon, .pie, .creel, .frame, .port] s t ∧
      t.port = ({ s.port with config := some c, part := .ready } : Port).completed 2 tag .done [] ∧
      t.mon = { s.mon with
        spindles := List.replicate c.spindles { Spindle.blank with bookedTo := some s.del.count }
        strips := List.replicate (c.spindles / 24)
          { Strip.blank with reference := s.del.count, lastCounts := List.replicate 24 0 } } ∧
      t.pie = { s.pie with
        a := { s.pie.a with queue := [], waiting := [] }, b := { s.pie.b with queue := [], waiting := [] } } ∧
      t.creel = { s.creel with sections := List.replicate (c.spindles / 24) Section.blank } ∧
      t.frame.levels = s.frame.levels ∧ t.frame.holds.notStarted = s.frame.holds.notStarted ∧
      ∀ n b, n < 4 → c.faults[n]? = some b → s.frame.latches.length = 4 →
        let active := s.frame.levels.getD n false != (b % 2 == 1)
        t.frame.latches.getD n false = active ∧
        (active = true → s.frame.latches.getD n false = false → alerted .faultInput (some n) t) ∧
        (t.frame.holds.has (HoldCause.fault n) =
          if 2 ≤ b / 4 % 4 then active else s.frame.holds.has (HoldCause.fault n)))

/-- R185, R3, R43, R101, R160 and R171: START is NOT_RUNNING in INIT, BUSY in RUNNING and NO_ARTICLE in READY without an active
article; else the part is RUNNING without NOT_STARTED, the line has restarted with STATION_RESTART at the head of the queue, the rate
window, the strip rotation, the announcement count and the recompute have begun, and an interrupted sweep resumes at record 1. -/
def Obligations.StartRefusesOrRuns : Prop :=
  ∀ (s : State) (tag : Nat), s.portOpen →
    let refused := fun (r : Result) => exec (.start tag) s = .next { s with port := s.port.completed 5 tag r [] }
    let now := s.del.seconds
    (s.port.part = .init → refused .notRunning) ∧ (s.port.part = .running → refused .busy) ∧
    (s.port.part = .ready → s.del.active = none → refused .noArticle) ∧
    (s.port.part = .ready → s.del.active ≠ none → ∃ t, exec (.start tag) s = .next t ∧
      t.port = ({ s.port with part := .running } : Port).completed 5 tag .done [] ∧
      t.del = { s.del with buckets := [], openBucket := some 0, nextBucketAt := some (now + 10) } ∧
      t.frame.holds.notStarted = false ∧
      (∀ h, h ≠ .notStarted → h ≠ .alertStop → t.frame.holds.has h = s.frame.holds.has h) ∧
      t.mon.rotation = some { pass := 0, strip := 1 } ∧
      (∀ k, 1 ≤ k → k ≤ s.mon.strips.length →
        t.strip k = { s.strip k with reference := s.del.count, missed := 0, failed := false }) ∧
      t.creel.announceFrom = some now ∧ t.creel.nextRecompute = some (now + 60) ∧
      t.doff.view = [] ∧ t.doff.state = (if s.doff.state = .granted then
        (if s.doff.urgency = .full then .fullWait else .claimed) else s.doff.state) ∧
      t.line.out.head?.map (fun o => o.tel) =
        some { kind := .stationRestart, source := s.cfg.station, dest := 0, payload := [] } ∧
      t.line.rx = [] ∧ t.line.sending = none ∧ t.line.restartedAt = now ∧
      t.shift.closing.map (fun cl => (cl.shift.number, cl.sweep, cl.waiting)) =
        s.shift.closing.map (fun cl => (cl.shift.number, 1, cl.waiting)))

/-- R186 with R20, R44, R63, R85, R102, R115, R132, R144, R160, R173 and R175: WARM_RESET executes at once, whatever executes or
waits, and changes nothing in INIT. In READY and RUNNING the executing command completes, the waiting one is discarded and
counted, every block takes its warm-reset values, HOST_HOLD is lifted and NOT_STARTED put, the fault latches are re-sampled, and
the part is READY. The alert list and the overflow count are kept, and take the alerts of the reset: an exchange and a doff that
were under way, and the faults found newly active, in the order of assumption log 17. Of the model's own fields the reset keeps
the counter of free values (assumption log 2), the second of the last ROVING_DUE (7), the second of the latest line restart (8),
the bytes returned on SPI (9) and the stamp of joining (12), and clears the flag of a raised NO_ROBOT (6) and the station's own
telegram just sent (24). That lost-since-base is kept without a booking is assumption log 30. -/
def Obligations.WarmResetKeepsAndClears : Prop :=
  ∀ (s : State) (tag : Nat), s.frame.resetLow = false →
    (s.port.part = .init → exec (.warmReset tag) s = .next { s with port := s.port.completed 6 tag .done [] }) ∧
    (s.port.part ≠ .init → ∃ t, exec (.warmReset tag) s = .next t ∧ t.draws = s.draws ∧
      t.port = { s.port with
        part := .ready, executing := none, slot := none, unread := true
        discarded := if s.port.slot = none then s.port.discarded else min 65535 (s.port.discarded + 1)
        response := some { kind := 6, tag := tag, result := .done, alreadyOpen := false, body := []
                           overwritten := s.port.unread || s.port.executing.isSome } } ∧
      t.del = { s.del with buckets := [], openBucket := none, nextBucketAt := none } ∧
      t.mon.rotation = none ∧ t.mon.aboveLimit = false ∧ t.mon.lockout = s.mon.lockout ∧ t.mon.pin = s.mon.pin ∧
      t.mon.strips = s.mon.strips.map (fun k => { k with failed := false, missed := 0 }) ∧
      t.mon.spindles.length = s.mon.spindles.length ∧
      (∀ i, s.hasSpindle i = true →
        let r := s.sp i
        t.sp i = { r with
          bookedTo := some s.del.count, slowRun := 0, downRun := 0, confirmReads := 0, seenUp := false
          doffStart := false, piecedAt := none, lastClass := .none
          state := if r.state = .locked then .locked else if r.rogueMark then .rogue else .unseen
          cause := if r.state = .locked then r.cause else if r.rogueMark then some .rogue else none
          downSince := if r.state = .locked ∨ r.rogueMark = true ∧ r.state = .rogue then r.downSince
            else if r.rogueMark then some s.del.seconds else none }) ∧
      t.pie = { Piecing.powerOn with nextTag := s.pie.nextTag } ∧
      t.creel = { s.creel with
        sections := s.creel.sections.map (fun x => { x with
          state := if x.state = .exchanging then .unknown else x.state
          minutes := none, due := false, booking := none, timer := none, carrier := none })
        dueList := [], firstSix := [], announceFrom := none, nextRecompute := none, slot1 := none, slot2 := none
        stray := 0 } ∧
      (∀ k, s.hasSection k = true → (s.sec k).state = .exchanging → alerted .exchangeUnknown (some k) t) ∧
      (let underWay := s.doff.state ≠ .spinning ∧ s.doff.state ≠ .claimed ∧ s.doff.state ≠ .fullWait ∧
          s.doff.state ≠ .unknown
       t.doff = { Doff.powerOn with
         copMark := s.doff.copMark
         state := if s.doff.state = .spinning ∨ s.doff.state = .claimed ∨ s.doff.state = .fullWait then .spinning
           else .unknown } ∧
       t.frame.holds.doff = (decide underWay || s.frame.holds.doff) ∧ (underWay → alerted .doffUnknown none t)) ∧
      t.frame.holds.copFull = false ∧ t.frame.holds.hostHold = false ∧ t.frame.holds.notStarted = true ∧
      t.frame.run = s.frame.run ∧ t.frame.maint = s.frame.maint ∧ t.frame.levels = s.frame.levels ∧
      (∀ n b, n < 4 → s.port.config ≠ none → s.cfg.faults[n]? = some b → s.frame.latches.length = 4 →
        let active := s.frame.levels.getD n false != (b % 2 == 1)
        t.frame.latches.getD n false = active ∧
        t.frame.holds.has (HoldCause.fault n) =
          if 2 ≤ b / 4 % 4 then active else s.frame.holds.has (HoldCause.fault n)) ∧
      (s.port.config ≠ none →
        let exchanging := ((List.range s.creel.sections.length).map (· + 1)).filter
          (fun k => (s.sec k).state == .exchanging)
        let doff := s.doff.state = .granted ∨ s.doff.state = .rundown ∨ s.doff.state = .doffing ∨
          s.doff.state = .restart ∨ s.doff.state = .settling
        let fault := fun (n : Nat) => match s.cfg.faults[n]? with
          | some b => if (s.frame.levels.getD n false != (b % 2 == 1)) && !s.frame.latches.getD n false then
              [(AlertCode.faultInput, (if b / 4 % 4 = 0 then AlertClass.note else if b / 4 % 4 = 1 then .action else .stop),
                some n)] else []
          | none => []
        let raised := exchanging.map (fun k => (AlertCode.exchangeUnknown, AlertClass.action, some k)) ++
          (if doff then [(AlertCode.doffUnknown, AlertClass.action, none)] else []) ++
          (fault 0 ++ fault 1 ++ fault 2 ++ fault 3)
        let listed := raised.foldl (fun f a => Frame.raised a.1 a.2.1 a.2.2 s.del.seconds f) s.frame
        t.frame.alerts = listed.alerts ∧ t.frame.overflow = listed.overflow) ∧
      t.shift = { s.shift with
        opened := { s.shift.opened with flags := { s.shift.opened.flags with warmReset := true } }
        closing := s.shift.closing.map (fun cl => { cl with
          shift := { cl.shift with flags := { cl.shift.flags with warmReset := true } }, waiting := false }) } ∧
      t.line = { Line.powerOn with nextJoin := s.line.nextJoin, restartedAt := s.line.restartedAt })

/-- R166, R167, R177, R178, R184 and R185, as an invariant: a step keeps the part sound: an alert list of at most 32 entries, never two
of one code and subject, with repeat counts of 1..255; ALERT_STOP exactly while the list holds a STOP entry; at most eight telegrams
queued and four received; a configuration exactly past INIT; and NOT_STARTED exactly outside RUNNING. -/
def Obligations.SoundKeptByEveryStep : Prop :=
  ∀ s t : State, s.sound → step s = .next t → t.sound

/-- R181, R189 and 12.2: the record that spells a command with its fields in their widths, and a host tag, is read as that command
with that tag, for every command and every value of its fields; and a record with a byte more or a byte less is not read. -/
def Obligations.HostRecordReadsBack : Prop :=
  ∀ (c : Command) (tag : Nat), c.fits = true → tag < 256 →
    readRecord (recordOf c tag) = some (c, tag) ∧
    (∀ b : Byte, readRecord (recordOf c tag ++ [b]) = none) ∧ readRecord (recordOf c tag).dropLast = none
end

