-- ==== Sys2Proof/Laws/State.lean ====
section
/-! SUPPORT. The small lemmas of the state's accessors and updates: reading a table after writing it, the sides, the booking
slots, the hold-cause set; so that no proof unfolds an accessor or a record update. -/

namespace Sys2Proof.Machine

/-! ### Tables numbered from 1 -/

@[simp] theorem length_setNth {α : Type} (l : List α) (n : Nat) (a : α) : (setNth l n a).length = l.length := by
  cases n <;> simp [setNth]

theorem nth_setNth_self {α : Type} (d : α) (l : List α) (n : Nat) (a : α) (h1 : 1 ≤ n) (h2 : n ≤ l.length) :
    nth d (setNth l n a) n = a := by
  cases n with
  | zero => omega
  | succ n =>
    have h : n < l.length := by omega
    simp [nth, setNth, List.getD, h]

theorem nth_setNth_ne {α : Type} (d : α) (l : List α) (n m : Nat) (a : α) (h : n ≠ m) :
    nth d (setNth l n a) m = nth d l m := by
  cases n with
  | zero => rfl
  | succ n =>
    cases m with
    | zero => rfl
    | succ m =>
      have h' : n ≠ m := fun e => h (by rw [e])
      simp [nth, setNth, List.getD, h']

/-! ### Spindles, strips, sections -/

@[simp] theorem setSp_spindles_length (i : Nat) (r : Spindle) (s : State) :
    (setSp i r s).mon.spindles.length = s.mon.spindles.length := by simp [setSp]

theorem sp_setSp_self (i : Nat) (r : Spindle) (s : State) (h1 : 1 ≤ i) (h2 : i ≤ s.mon.spindles.length) :
    (setSp i r s).sp i = r := nth_setNth_self _ _ _ _ h1 h2

theorem sp_setSp_ne (i j : Nat) (r : Spindle) (s : State) (h : i ≠ j) : (setSp i r s).sp j = s.sp j :=
  nth_setNth_ne _ _ _ _ _ h

theorem strip_setStrip_self (k : Nat) (t : Strip) (s : State) (h1 : 1 ≤ k) (h2 : k ≤ s.mon.strips.length) :
    (setStrip k t s).strip k = t := nth_setNth_self _ _ _ _ h1 h2

theorem strip_setStrip_ne (k m : Nat) (t : Strip) (s : State) (h : k ≠ m) : (setStrip k t s).strip m = s.strip m :=
  nth_setNth_ne _ _ _ _ _ h

theorem sec_setSec_self (k : Nat) (x : Section) (s : State) (h1 : 1 ≤ k) (h2 : k ≤ s.creel.sections.length) :
    (setSec k x s).sec k = x := nth_setNth_self _ _ _ _ h1 h2

theorem sec_setSec_ne (k m : Nat) (x : Section) (s : State) (h : k ≠ m) : (setSec k x s).sec m = s.sec m :=
  nth_setNth_ne _ _ _ _ _ h

@[simp] theorem sp_setStrip (k i : Nat) (t : Strip) (s : State) : (setStrip k t s).sp i = s.sp i := rfl
@[simp] theorem sp_setSec (k i : Nat) (x : Section) (s : State) : (setSec k x s).sp i = s.sp i := rfl
@[simp] theorem sec_setSp (k i : Nat) (r : Spindle) (s : State) : (setSp i r s).sec k = s.sec k := rfl
@[simp] theorem strip_setSp (k i : Nat) (r : Spindle) (s : State) : (setSp i r s).strip k = s.strip k := rfl

/-- What is read of the blocks depends on the blocks alone. -/
theorem sp_of_mon {s t : State} (h : t.mon = s.mon) (i : Nat) : t.sp i = s.sp i := by simp [State.sp, h]
theorem strip_of_mon {s t : State} (h : t.mon = s.mon) (k : Nat) : t.strip k = s.strip k := by simp [State.strip, h]
theorem sec_of_creel {s t : State} (h : t.creel = s.creel) (k : Nat) : t.sec k = s.sec k := by simp [State.sec, h]
theorem cfg_of_port {s t : State} (h : t.port = s.port) : t.cfg = s.cfg := by simp [State.cfg, h]
theorem running_of_port {s t : State} (h : t.port = s.port) : t.running = s.running := by simp [State.running, h]
theorem now_of_del {s t : State} (h : t.del = s.del) : t.now = s.now := by simp [State.now, h]
theorem count_of_del {s t : State} (h : t.del = s.del) : t.count = s.count := by simp [State.count, h]

/-! ### Sides and engagements -/

@[simp] theorem side_setSide (x : Side) (p : SidePiecing) (s : State) : (setSide x p s).side x = p := by cases x <;> rfl
@[simp] theorem side_setSide_a (p : SidePiecing) (s : State) : (setSide .a p s).side .b = s.side .b := rfl
@[simp] theorem side_setSide_b (p : SidePiecing) (s : State) : (setSide .b p s).side .a = s.side .a := rfl

@[simp] theorem eng_setEng (x : Side) (e : Engagement) (s : State) : (setEng x e s).eng x = e := by
  simp [setEng, State.eng]
@[simp] theorem eng_setEng_a (e : Engagement) (s : State) : (setEng .a e s).eng .b = s.eng .b := rfl
@[simp] theorem eng_setEng_b (e : Engagement) (s : State) : (setEng .b e s).eng .a = s.eng .a := rfl
@[simp] theorem setEng_setEng (x : Side) (e f : Engagement) (s : State) : setEng x f (setEng x e s) = setEng x f s := by
  cases x <;> rfl

@[simp] theorem setEng_queue (x y : Side) (e : Engagement) (s : State) :
    ((setEng x e s).side y).queue = (s.side y).queue := by cases x <;> cases y <;> rfl
@[simp] theorem setEng_waiting (x y : Side) (e : Engagement) (s : State) :
    ((setEng x e s).side y).waiting = (s.side y).waiting := by cases x <;> cases y <;> rfl
@[simp] theorem setEng_bar (x y : Side) (e : Engagement) (s : State) :
    ((setEng x e s).side y).bar = (s.side y).bar := by cases x <;> cases y <;> rfl

/-! ### Booking slots -/

@[simp] theorem slot_setSlot (n : Nat) (b : Option Booking) (s : State) : (setSlot n b s).slot n = b := by
  by_cases h : n = 1 <;> simp [setSlot, State.slot, h]

/-! ### The hold-cause set (R177) -/

@[simp] theorem HoldSet.has_put (h : HoldSet) (c d : HoldCause) (v : Bool) :
    (h.put c v).has d = if d = c then v else h.has d := by cases c <;> cases d <;> rfl

@[simp] theorem addHold_has (c d : HoldCause) (s : State) :
    (addHold c s).frame.holds.has d = (decide (d = c) || s.frame.holds.has d) := by
  by_cases h : d = c <;> simp [addHold, h]

@[simp] theorem removeHold_has (c d : HoldCause) (s : State) :
    (removeHold c s).frame.holds.has d = (!decide (d = c) && s.frame.holds.has d) := by
  by_cases h : d = c <;> simp [removeHold, h]

/-- HOLD is driven exactly when the set has a member (R177). -/
theorem HoldSet.driven_iff (h : HoldSet) : h.driven = true ↔ ∃ c, h.has c = true := by
  constructor
  · intro hd
    obtain ⟨c, _, hc⟩ := List.any_eq_true.1 hd
    exact ⟨c, hc⟩
  · rintro ⟨c, hc⟩
    exact List.any_eq_true.2 ⟨c, by cases c <;> decide, hc⟩

/-! ### Reading after an update of one block -/

@[simp] theorem addHold_alerts (c : HoldCause) (s : State) : (addHold c s).frame.alerts = s.frame.alerts := rfl
@[simp] theorem removeHold_alerts (c : HoldCause) (s : State) : (removeHold c s).frame.alerts = s.frame.alerts := rfl
@[simp] theorem setDoffState_state (d : DoffState) (s : State) : (setDoffState d s).doff.state = d := rfl
@[simp] theorem announceAgain_nextAnn (s : State) :
    (announceAgain s).doff.nextAnn = some (s.now + Config.doffAnnounceSeconds) := rfl
@[simp] theorem settleSection_creel (k : Nat) (st : SectionState) (s : State) (h1 : 1 ≤ k) (h2 : k ≤ s.creel.sections.length) :
    ((settleSection k st s).sec k).state = st := by
  simp [settleSection, modifySec, sec_setSec_self _ _ _ h1 h2]

end Sys2Proof.Machine
end

