-- ==== Sys2Proof/Laws/Frames.lean ====
section
/-! SUPPORT. Which blocks of the part each shared operation leaves alone: one lemma per operation and block, so that no proof
unfolds an operation to learn what it does not touch. -/

namespace Sys2Proof.Machine

/-! ### Holds, alerts and fault latches -/

@[simp] theorem addHold_frame (c : HoldCause) (s : State) :
    (addHold c s).del = s.del ∧ (addHold c s).mon = s.mon ∧ (addHold c s).pie = s.pie ∧
    (addHold c s).creel = s.creel ∧ (addHold c s).doff = s.doff ∧ (addHold c s).shift = s.shift ∧
    (addHold c s).line = s.line ∧ (addHold c s).port = s.port ∧ (addHold c s).draws = s.draws ∧
    (addHold c s).pending = s.pending :=
  by simp [addHold]
@[simp] theorem removeHold_frame (c : HoldCause) (s : State) :
    (removeHold c s).del = s.del ∧ (removeHold c s).mon = s.mon ∧ (removeHold c s).pie = s.pie ∧
    (removeHold c s).creel = s.creel ∧ (removeHold c s).doff = s.doff ∧ (removeHold c s).shift = s.shift ∧
    (removeHold c s).line = s.line ∧ (removeHold c s).port = s.port ∧ (removeHold c s).draws = s.draws ∧
    (removeHold c s).pending = s.pending :=
  by simp [removeHold]
@[simp] theorem raiseAlert_frame (code : AlertCode) (cls : AlertClass) (subject : Option Nat) (s : State) :
    (raiseAlert code cls subject s).del = s.del ∧ (raiseAlert code cls subject s).mon = s.mon ∧
    (raiseAlert code cls subject s).pie = s.pie ∧ (raiseAlert code cls subject s).creel = s.creel ∧
    (raiseAlert code cls subject s).doff = s.doff ∧ (raiseAlert code cls subject s).shift = s.shift ∧
    (raiseAlert code cls subject s).line = s.line ∧ (raiseAlert code cls subject s).port = s.port ∧
    (raiseAlert code cls subject s).draws = s.draws ∧ (raiseAlert code cls subject s).pending = s.pending :=
  by simp [raiseAlert]
@[simp] theorem setLatch_frame (n : Nat) (v : Bool) (s : State) :
    (setLatch n v s).del = s.del ∧ (setLatch n v s).mon = s.mon ∧ (setLatch n v s).pie = s.pie ∧
    (setLatch n v s).creel = s.creel ∧ (setLatch n v s).doff = s.doff ∧ (setLatch n v s).shift = s.shift ∧
    (setLatch n v s).line = s.line ∧ (setLatch n v s).port = s.port ∧ (setLatch n v s).draws = s.draws ∧
    (setLatch n v s).pending = s.pending :=
  by simp [setLatch]
@[simp] theorem activeEdge_frame (n : Nat) (f : FaultSetup) (s : State) :
    (activeEdge n f s).del = s.del ∧ (activeEdge n f s).mon = s.mon ∧ (activeEdge n f s).pie = s.pie ∧
    (activeEdge n f s).creel = s.creel ∧ (activeEdge n f s).doff = s.doff ∧ (activeEdge n f s).shift = s.shift ∧
    (activeEdge n f s).line = s.line ∧ (activeEdge n f s).port = s.port ∧ (activeEdge n f s).draws = s.draws ∧
    (activeEdge n f s).pending = s.pending :=
  by
  unfold activeEdge
  dsimp only
  repeat' split
  all_goals simp
@[simp] theorem clearLatch_frame (n : Nat) (f : FaultSetup) (s : State) :
    (clearLatch n f s).del = s.del ∧ (clearLatch n f s).mon = s.mon ∧ (clearLatch n f s).pie = s.pie ∧
    (clearLatch n f s).creel = s.creel ∧ (clearLatch n f s).doff = s.doff ∧ (clearLatch n f s).shift = s.shift ∧
    (clearLatch n f s).line = s.line ∧ (clearLatch n f s).port = s.port ∧ (clearLatch n f s).draws = s.draws ∧
    (clearLatch n f s).pending = s.pending :=
  by
  unfold clearLatch
  dsimp only
  repeat' split
  all_goals simp
@[simp] theorem resampleOne_frame (n : Nat) (s : State) :
    (resampleOne n s).del = s.del ∧ (resampleOne n s).mon = s.mon ∧ (resampleOne n s).pie = s.pie ∧
    (resampleOne n s).creel = s.creel ∧ (resampleOne n s).doff = s.doff ∧ (resampleOne n s).shift = s.shift ∧
    (resampleOne n s).line = s.line ∧ (resampleOne n s).port = s.port ∧ (resampleOne n s).draws = s.draws ∧
    (resampleOne n s).pending = s.pending :=
  by
  unfold resampleOne
  repeat' split
  all_goals simp
@[simp] theorem resampleFaults_frame (s : State) :
    (resampleFaults s).del = s.del ∧ (resampleFaults s).mon = s.mon ∧ (resampleFaults s).pie = s.pie ∧
    (resampleFaults s).creel = s.creel ∧ (resampleFaults s).doff = s.doff ∧ (resampleFaults s).shift = s.shift ∧
    (resampleFaults s).line = s.line ∧ (resampleFaults s).port = s.port ∧ (resampleFaults s).draws = s.draws ∧
    (resampleFaults s).pending = s.pending :=
  by
  unfold resampleFaults
  all_goals simp

/-! ### The outgoing queue -/

@[simp] theorem telegramDropped_frame (s : State) :
    (telegramDropped s).del = s.del ∧ (telegramDropped s).mon = s.mon ∧ (telegramDropped s).pie = s.pie ∧
    (telegramDropped s).creel = s.creel ∧ (telegramDropped s).doff = s.doff ∧ (telegramDropped s).shift = s.shift ∧
    (telegramDropped s).port = s.port ∧ (telegramDropped s).draws = s.draws ∧
    (telegramDropped s).pending = s.pending :=
  by simp [telegramDropped]
@[simp] theorem joinLine_frame (t : Telegram) (s : State) :
    (joinLine t s).del = s.del ∧ (joinLine t s).mon = s.mon ∧ (joinLine t s).pie = s.pie ∧
    (joinLine t s).creel = s.creel ∧ (joinLine t s).doff = s.doff ∧ (joinLine t s).shift = s.shift ∧
    (joinLine t s).port = s.port ∧ (joinLine t s).draws = s.draws ∧ (joinLine t s).pending = s.pending :=
  by
  unfold joinLine
  dsimp only
  repeat' split
  all_goals simp
@[simp] theorem enqueue_frame (k : Kind) (d : Nat) (p : List Byte) (s : State) :
    (enqueue k d p s).del = s.del ∧ (enqueue k d p s).mon = s.mon ∧ (enqueue k d p s).pie = s.pie ∧
    (enqueue k d p s).creel = s.creel ∧ (enqueue k d p s).doff = s.doff ∧ (enqueue k d p s).shift = s.shift ∧
    (enqueue k d p s).port = s.port ∧ (enqueue k d p s).draws = s.draws ∧ (enqueue k d p s).pending = s.pending :=
  by
  unfold enqueue
  repeat' split
  all_goals simp
@[simp] theorem returnToQueue_frame (o : Outgoing) (s : State) :
    (returnToQueue o s).del = s.del ∧ (returnToQueue o s).mon = s.mon ∧ (returnToQueue o s).pie = s.pie ∧
    (returnToQueue o s).creel = s.creel ∧ (returnToQueue o s).doff = s.doff ∧ (returnToQueue o s).shift = s.shift ∧
    (returnToQueue o s).port = s.port ∧ (returnToQueue o s).draws = s.draws ∧
    (returnToQueue o s).pending = s.pending :=
  by
  unfold returnToQueue
  dsimp only
  repeat' split
  all_goals simp

/-! ### Tables -/

@[simp] theorem setSp_frame (i : Nat) (r : Spindle) (s : State) :
    (setSp i r s).del = s.del ∧ (setSp i r s).pie = s.pie ∧ (setSp i r s).creel = s.creel ∧
    (setSp i r s).doff = s.doff ∧ (setSp i r s).shift = s.shift ∧ (setSp i r s).line = s.line ∧
    (setSp i r s).frame = s.frame ∧ (setSp i r s).port = s.port ∧ (setSp i r s).draws = s.draws ∧
    (setSp i r s).pending = s.pending :=
  by simp [setSp]
@[simp] theorem modifySp_frame (i : Nat) (f : Spindle → Spindle) (s : State) :
    (modifySp i f s).del = s.del ∧ (modifySp i f s).pie = s.pie ∧ (modifySp i f s).creel = s.creel ∧
    (modifySp i f s).doff = s.doff ∧ (modifySp i f s).shift = s.shift ∧ (modifySp i f s).line = s.line ∧
    (modifySp i f s).frame = s.frame ∧ (modifySp i f s).port = s.port ∧ (modifySp i f s).draws = s.draws ∧
    (modifySp i f s).pending = s.pending :=
  by simp [modifySp]
@[simp] theorem setStrip_frame (k : Nat) (r : Strip) (s : State) :
    (setStrip k r s).del = s.del ∧ (setStrip k r s).pie = s.pie ∧ (setStrip k r s).creel = s.creel ∧
    (setStrip k r s).doff = s.doff ∧ (setStrip k r s).shift = s.shift ∧ (setStrip k r s).line = s.line ∧
    (setStrip k r s).frame = s.frame ∧ (setStrip k r s).port = s.port ∧ (setStrip k r s).draws = s.draws ∧
    (setStrip k r s).pending = s.pending :=
  by simp [setStrip]
@[simp] theorem setSec_frame (k : Nat) (r : Section) (s : State) :
    (setSec k r s).del = s.del ∧ (setSec k r s).mon = s.mon ∧ (setSec k r s).pie = s.pie ∧
    (setSec k r s).doff = s.doff ∧ (setSec k r s).shift = s.shift ∧ (setSec k r s).line = s.line ∧
    (setSec k r s).frame = s.frame ∧ (setSec k r s).port = s.port ∧ (setSec k r s).draws = s.draws ∧
    (setSec k r s).pending = s.pending :=
  by simp [setSec]
@[simp] theorem modifySec_frame (k : Nat) (f : Section → Section) (s : State) :
    (modifySec k f s).del = s.del ∧ (modifySec k f s).mon = s.mon ∧ (modifySec k f s).pie = s.pie ∧
    (modifySec k f s).doff = s.doff ∧ (modifySec k f s).shift = s.shift ∧ (modifySec k f s).line = s.line ∧
    (modifySec k f s).frame = s.frame ∧ (modifySec k f s).port = s.port ∧ (modifySec k f s).draws = s.draws ∧
    (modifySec k f s).pending = s.pending :=
  by simp [modifySec]
@[simp] theorem setSide_frame (x : Side) (p : SidePiecing) (s : State) :
    (setSide x p s).del = s.del ∧ (setSide x p s).mon = s.mon ∧ (setSide x p s).creel = s.creel ∧
    (setSide x p s).doff = s.doff ∧ (setSide x p s).shift = s.shift ∧ (setSide x p s).line = s.line ∧
    (setSide x p s).frame = s.frame ∧ (setSide x p s).port = s.port ∧ (setSide x p s).draws = s.draws ∧
    (setSide x p s).pending = s.pending :=
  by
  unfold setSide
  dsimp only
  repeat' split
  all_goals simp
@[simp] theorem setEng_frame (x : Side) (e : Engagement) (s : State) :
    (setEng x e s).del = s.del ∧ (setEng x e s).mon = s.mon ∧ (setEng x e s).creel = s.creel ∧
    (setEng x e s).doff = s.doff ∧ (setEng x e s).shift = s.shift ∧ (setEng x e s).line = s.line ∧
    (setEng x e s).frame = s.frame ∧ (setEng x e s).port = s.port ∧ (setEng x e s).draws = s.draws ∧
    (setEng x e s).pending = s.pending :=
  by
  unfold setEng
  dsimp only
  all_goals simp
@[simp] theorem countEvent_frame (k : Counted) (s : State) :
    (countEvent k s).del = s.del ∧ (countEvent k s).mon = s.mon ∧ (countEvent k s).pie = s.pie ∧
    (countEvent k s).creel = s.creel ∧ (countEvent k s).doff = s.doff ∧ (countEvent k s).line = s.line ∧
    (countEvent k s).frame = s.frame ∧ (countEvent k s).port = s.port ∧ (countEvent k s).draws = s.draws ∧
    (countEvent k s).pending = s.pending :=
  by simp [countEvent]
@[simp] theorem closeStep_frame (i : Nat) (cl : Closing) (s : State) :
    (closeStep i cl s).del = s.del ∧ (closeStep i cl s).pie = s.pie ∧ (closeStep i cl s).creel = s.creel ∧
    (closeStep i cl s).doff = s.doff ∧ (closeStep i cl s).line = s.line ∧ (closeStep i cl s).frame = s.frame ∧
    (closeStep i cl s).port = s.port ∧ (closeStep i cl s).draws = s.draws ∧
    (closeStep i cl s).pending = s.pending :=
  by simp [closeStep]
@[simp] theorem touch_frame (i : Nat) (s : State) :
    (touch i s).del = s.del ∧ (touch i s).pie = s.pie ∧ (touch i s).creel = s.creel ∧ (touch i s).doff = s.doff ∧
    (touch i s).line = s.line ∧ (touch i s).frame = s.frame ∧ (touch i s).port = s.port ∧
    (touch i s).draws = s.draws ∧ (touch i s).pending = s.pending :=
  by
  unfold touch
  repeat' split
  all_goals simp
@[simp] theorem bookOpen_frame (i : Nat) (s : State) :
    (bookOpen i s).del = s.del ∧ (bookOpen i s).pie = s.pie ∧ (bookOpen i s).creel = s.creel ∧
    (bookOpen i s).doff = s.doff ∧ (bookOpen i s).line = s.line ∧ (bookOpen i s).frame = s.frame ∧
    (bookOpen i s).port = s.port ∧ (bookOpen i s).draws = s.draws ∧ (bookOpen i s).pending = s.pending :=
  by
  unfold bookOpen
  dsimp only
  repeat' split
  all_goals simp
@[simp] theorem book_frame (i : Nat) (s : State) :
    (book i s).del = s.del ∧ (book i s).pie = s.pie ∧ (book i s).creel = s.creel ∧ (book i s).doff = s.doff ∧
    (book i s).line = s.line ∧ (book i s).frame = s.frame ∧ (book i s).port = s.port ∧ (book i s).draws = s.draws ∧
    (book i s).pending = s.pending :=
  by
  unfold book
  split <;> simp
@[simp] theorem requeue_frame (i : Nat) (a b : SpState) (s : State) :
    (requeue i a b s).del = s.del ∧ (requeue i a b s).mon = s.mon ∧ (requeue i a b s).creel = s.creel ∧
    (requeue i a b s).doff = s.doff ∧ (requeue i a b s).shift = s.shift ∧ (requeue i a b s).line = s.line ∧
    (requeue i a b s).frame = s.frame ∧ (requeue i a b s).port = s.port ∧ (requeue i a b s).draws = s.draws ∧
    (requeue i a b s).pending = s.pending :=
  by
  unfold requeue
  dsimp only
  repeat' split
  all_goals simp
@[simp] theorem endsDownCheck_frame (s : State) :
    (endsDownCheck s).del = s.del ∧ (endsDownCheck s).pie = s.pie ∧ (endsDownCheck s).creel = s.creel ∧
    (endsDownCheck s).doff = s.doff ∧ (endsDownCheck s).shift = s.shift ∧ (endsDownCheck s).line = s.line ∧
    (endsDownCheck s).port = s.port ∧ (endsDownCheck s).draws = s.draws ∧ (endsDownCheck s).pending = s.pending :=
  by
  unfold endsDownCheck
  dsimp only
  repeat' split
  all_goals simp
@[simp] theorem enter_frame (i : Nat) (st : SpState) (s : State) :
    (enter i st s).del = s.del ∧ (enter i st s).creel = s.creel ∧ (enter i st s).doff = s.doff ∧
    (enter i st s).line = s.line ∧ (enter i st s).port = s.port ∧ (enter i st s).draws = s.draws ∧
    (enter i st s).pending = s.pending :=
  by
  unfold enter
  dsimp only
  repeat' split
  all_goals simp
@[simp] theorem bookEnter_frame (i : Nat) (st : SpState) (s : State) :
    (bookEnter i st s).del = s.del ∧ (bookEnter i st s).creel = s.creel ∧ (bookEnter i st s).doff = s.doff ∧
    (bookEnter i st s).line = s.line ∧ (bookEnter i st s).port = s.port ∧ (bookEnter i st s).draws = s.draws ∧
    (bookEnter i st s).pending = s.pending :=
  by
  unfold bookEnter
  all_goals simp

/-! ### Folds -/

theorem each_keeps {α : Type} (g : State → α) (l : List Nat) (f : Nat → State → State)
    (h : ∀ i s, g (f i s) = g s) (s : State) : g (each l f s) = g s := by
  induction l generalizing s with
  | nil => rfl
  | cons i l ih => exact (ih (f i s)).trans (h i s)

theorem foldl_keeps {α β : Type} (g : State → α) (l : List β) (f : State → β → State)
    (h : ∀ s b, g (f s b) = g s) (s : State) : g (l.foldl f s) = g s := by
  induction l generalizing s with
  | nil => rfl
  | cons b l ih => exact (ih (f s b)).trans (h s b)

@[simp] theorem each_del (l : List Nat) (f : Nat → State → State) (h : ∀ i s, (f i s).del = s.del) (s : State) :
    (each l f s).del = s.del := each_keeps State.del l f h s
@[simp] theorem each_mon (l : List Nat) (f : Nat → State → State) (h : ∀ i s, (f i s).mon = s.mon) (s : State) :
    (each l f s).mon = s.mon := each_keeps State.mon l f h s
@[simp] theorem each_pie (l : List Nat) (f : Nat → State → State) (h : ∀ i s, (f i s).pie = s.pie) (s : State) :
    (each l f s).pie = s.pie := each_keeps State.pie l f h s
@[simp] theorem each_creel (l : List Nat) (f : Nat → State → State) (h : ∀ i s, (f i s).creel = s.creel) (s : State) :
    (each l f s).creel = s.creel := each_keeps State.creel l f h s
@[simp] theorem each_doff (l : List Nat) (f : Nat → State → State) (h : ∀ i s, (f i s).doff = s.doff) (s : State) :
    (each l f s).doff = s.doff := each_keeps State.doff l f h s
@[simp] theorem each_shift (l : List Nat) (f : Nat → State → State) (h : ∀ i s, (f i s).shift = s.shift) (s : State) :
    (each l f s).shift = s.shift := each_keeps State.shift l f h s
@[simp] theorem each_line (l : List Nat) (f : Nat → State → State) (h : ∀ i s, (f i s).line = s.line) (s : State) :
    (each l f s).line = s.line := each_keeps State.line l f h s
@[simp] theorem each_frame (l : List Nat) (f : Nat → State → State) (h : ∀ i s, (f i s).frame = s.frame) (s : State) :
    (each l f s).frame = s.frame := each_keeps State.frame l f h s
@[simp] theorem each_port (l : List Nat) (f : Nat → State → State) (h : ∀ i s, (f i s).port = s.port) (s : State) :
    (each l f s).port = s.port := each_keeps State.port l f h s
@[simp] theorem each_draws (l : List Nat) (f : Nat → State → State) (h : ∀ i s, (f i s).draws = s.draws) (s : State) :
    (each l f s).draws = s.draws := each_keeps State.draws l f h s
@[simp] theorem each_pending (l : List Nat) (f : Nat → State → State) (h : ∀ i s, (f i s).pending = s.pending) (s : State) :
    (each l f s).pending = s.pending := each_keeps State.pending l f h s
@[simp] theorem foldl_del {β : Type} (l : List β) (f : State → β → State) (h : ∀ s b, (f s b).del = s.del) (s : State) :
    (l.foldl f s).del = s.del := foldl_keeps State.del l f h s
@[simp] theorem foldl_mon {β : Type} (l : List β) (f : State → β → State) (h : ∀ s b, (f s b).mon = s.mon) (s : State) :
    (l.foldl f s).mon = s.mon := foldl_keeps State.mon l f h s
@[simp] theorem foldl_pie {β : Type} (l : List β) (f : State → β → State) (h : ∀ s b, (f s b).pie = s.pie) (s : State) :
    (l.foldl f s).pie = s.pie := foldl_keeps State.pie l f h s
@[simp] theorem foldl_creel {β : Type} (l : List β) (f : State → β → State) (h : ∀ s b, (f s b).creel = s.creel) (s : State) :
    (l.foldl f s).creel = s.creel := foldl_keeps State.creel l f h s
@[simp] theorem foldl_doff {β : Type} (l : List β) (f : State → β → State) (h : ∀ s b, (f s b).doff = s.doff) (s : State) :
    (l.foldl f s).doff = s.doff := foldl_keeps State.doff l f h s
@[simp] theorem foldl_shift {β : Type} (l : List β) (f : State → β → State) (h : ∀ s b, (f s b).shift = s.shift) (s : State) :
    (l.foldl f s).shift = s.shift := foldl_keeps State.shift l f h s
@[simp] theorem foldl_line {β : Type} (l : List β) (f : State → β → State) (h : ∀ s b, (f s b).line = s.line) (s : State) :
    (l.foldl f s).line = s.line := foldl_keeps State.line l f h s
@[simp] theorem foldl_frame {β : Type} (l : List β) (f : State → β → State) (h : ∀ s b, (f s b).frame = s.frame) (s : State) :
    (l.foldl f s).frame = s.frame := foldl_keeps State.frame l f h s
@[simp] theorem foldl_port {β : Type} (l : List β) (f : State → β → State) (h : ∀ s b, (f s b).port = s.port) (s : State) :
    (l.foldl f s).port = s.port := foldl_keeps State.port l f h s
@[simp] theorem foldl_draws {β : Type} (l : List β) (f : State → β → State) (h : ∀ s b, (f s b).draws = s.draws) (s : State) :
    (l.foldl f s).draws = s.draws := foldl_keeps State.draws l f h s
@[simp] theorem foldl_pending {β : Type} (l : List β) (f : State → β → State) (h : ∀ s b, (f s b).pending = s.pending) (s : State) :
    (l.foldl f s).pending = s.pending := foldl_keeps State.pending l f h s

/-! ### Piecing -/

@[simp] theorem joinQueue_frame (i : Nat) (s : State) :
    (joinQueue i s).del = s.del ∧ (joinQueue i s).creel = s.creel ∧ (joinQueue i s).doff = s.doff ∧
    (joinQueue i s).line = s.line ∧ (joinQueue i s).port = s.port ∧ (joinQueue i s).draws = s.draws ∧
    (joinQueue i s).pending = s.pending :=
  by
  unfold joinQueue
  repeat' split
  all_goals simp
@[simp] theorem refillSide_frame (n : Nat) (x : Side) (s : State) :
    (refillSide n x s).del = s.del ∧ (refillSide n x s).creel = s.creel ∧ (refillSide n x s).doff = s.doff ∧
    (refillSide n x s).line = s.line ∧ (refillSide n x s).port = s.port ∧ (refillSide n x s).draws = s.draws ∧
    (refillSide n x s).pending = s.pending :=
  by
  induction n generalizing s with
  | zero => simp [refillSide]
  | succ n ih =>
    unfold refillSide
    repeat' split
    all_goals simp [ih]
@[simp] theorem refill_frame (s : State) :
    (refill s).del = s.del ∧ (refill s).creel = s.creel ∧ (refill s).doff = s.doff ∧ (refill s).line = s.line ∧
    (refill s).port = s.port ∧ (refill s).draws = s.draws ∧ (refill s).pending = s.pending :=
  by
  unfold refill
  all_goals simp
@[simp] theorem makeRogue_frame (i : Nat) (s : State) :
    (makeRogue i s).del = s.del ∧ (makeRogue i s).creel = s.creel ∧ (makeRogue i s).doff = s.doff ∧
    (makeRogue i s).line = s.line ∧ (makeRogue i s).port = s.port ∧ (makeRogue i s).draws = s.draws ∧
    (makeRogue i s).pending = s.pending :=
  by
  unfold makeRogue
  dsimp only
  all_goals simp
@[simp] theorem place_frame (k : Placement) (i : Nat) (s : State) :
    (place k i s).del = s.del ∧ (place k i s).creel = s.creel ∧ (place k i s).doff = s.doff ∧
    (place k i s).line = s.line ∧ (place k i s).port = s.port ∧ (place k i s).draws = s.draws ∧
    (place k i s).pending = s.pending :=
  by
  unfold place
  dsimp only
  repeat' split
  all_goals simp
@[simp] theorem failedPiecing_frame (i : Nat) (s : State) :
    (failedPiecing i s).del = s.del ∧ (failedPiecing i s).creel = s.creel ∧ (failedPiecing i s).doff = s.doff ∧
    (failedPiecing i s).line = s.line ∧ (failedPiecing i s).port = s.port ∧ (failedPiecing i s).draws = s.draws ∧
    (failedPiecing i s).pending = s.pending :=
  by
  unfold failedPiecing
  dsimp only
  repeat' split
  all_goals simp
@[simp] theorem returnToPiecing_frame (i : Nat) (s : State) :
    (returnToPiecing i s).del = s.del ∧ (returnToPiecing i s).creel = s.creel ∧
    (returnToPiecing i s).doff = s.doff ∧ (returnToPiecing i s).line = s.line ∧
    (returnToPiecing i s).port = s.port ∧ (returnToPiecing i s).draws = s.draws ∧
    (returnToPiecing i s).pending = s.pending :=
  by
  unfold returnToPiecing
  repeat' split
  all_goals simp
@[simp] theorem pieceCall_frame (x : Side) (s : State) :
    (pieceCall x s).del = s.del ∧ (pieceCall x s).mon = s.mon ∧ (pieceCall x s).pie = s.pie ∧
    (pieceCall x s).creel = s.creel ∧ (pieceCall x s).doff = s.doff ∧ (pieceCall x s).shift = s.shift ∧
    (pieceCall x s).port = s.port ∧ (pieceCall x s).pending = s.pending :=
  by
  unfold pieceCall
  dsimp only
  repeat' split
  all_goals simp
@[simp] theorem enterCalling_frame (x : Side) (s : State) :
    (enterCalling x s).del = s.del ∧ (enterCalling x s).mon = s.mon ∧ (enterCalling x s).creel = s.creel ∧
    (enterCalling x s).doff = s.doff ∧ (enterCalling x s).shift = s.shift ∧ (enterCalling x s).port = s.port ∧
    (enterCalling x s).pending = s.pending :=
  by
  unfold enterCalling
  dsimp only
  all_goals simp
@[simp] theorem enterIdle_frame (x : Side) (s : State) :
    (enterIdle x s).del = s.del ∧ (enterIdle x s).mon = s.mon ∧ (enterIdle x s).creel = s.creel ∧
    (enterIdle x s).doff = s.doff ∧ (enterIdle x s).shift = s.shift ∧ (enterIdle x s).line = s.line ∧
    (enterIdle x s).frame = s.frame ∧ (enterIdle x s).port = s.port ∧ (enterIdle x s).draws = s.draws ∧
    (enterIdle x s).pending = s.pending :=
  by
  unfold enterIdle
  dsimp only
  all_goals simp
@[simp] theorem callOrIdle_frame (x : Side) (s : State) :
    (callOrIdle x s).del = s.del ∧ (callOrIdle x s).mon = s.mon ∧ (callOrIdle x s).creel = s.creel ∧
    (callOrIdle x s).doff = s.doff ∧ (callOrIdle x s).shift = s.shift ∧ (callOrIdle x s).port = s.port ∧
    (callOrIdle x s).pending = s.pending :=
  by
  unfold callOrIdle
  repeat' split
  all_goals simp
@[simp] theorem sendRelease_frame (x : Side) (s : State) :
    (sendRelease x s).del = s.del ∧ (sendRelease x s).mon = s.mon ∧ (sendRelease x s).pie = s.pie ∧
    (sendRelease x s).creel = s.creel ∧ (sendRelease x s).doff = s.doff ∧ (sendRelease x s).shift = s.shift ∧
    (sendRelease x s).port = s.port ∧ (sendRelease x s).draws = s.draws ∧ (sendRelease x s).pending = s.pending :=
  by
  unfold sendRelease
  repeat' split
  all_goals simp
@[simp] theorem sendCancel_frame (x : Side) (s : State) :
    (sendCancel x s).del = s.del ∧ (sendCancel x s).mon = s.mon ∧ (sendCancel x s).pie = s.pie ∧
    (sendCancel x s).creel = s.creel ∧ (sendCancel x s).doff = s.doff ∧ (sendCancel x s).shift = s.shift ∧
    (sendCancel x s).port = s.port ∧ (sendCancel x s).draws = s.draws ∧ (sendCancel x s).pending = s.pending :=
  by
  unfold sendCancel
  repeat' split
  all_goals simp
@[simp] theorem issueOrder_frame (x : Side) (i : Nat) (asc : Bool) (s : State) :
    (issueOrder x i asc s).del = s.del ∧ (issueOrder x i asc s).creel = s.creel ∧
    (issueOrder x i asc s).doff = s.doff ∧ (issueOrder x i asc s).port = s.port ∧
    (issueOrder x i asc s).pending = s.pending :=
  by
  unfold issueOrder
  dsimp only
  repeat' split
  all_goals simp
@[simp] theorem decideNext_frame (x : Side) (s : State) :
    (decideNext x s).del = s.del ∧ (decideNext x s).creel = s.creel ∧ (decideNext x s).doff = s.doff ∧
    (decideNext x s).port = s.port ∧ (decideNext x s).pending = s.pending :=
  by
  unfold decideNext
  repeat' split
  all_goals simp
@[simp] theorem notifyOne_frame (s0 : State) (x : Side) (s : State) :
    (notifyOne s0 x s).del = s.del ∧ (notifyOne s0 x s).creel = s.creel ∧ (notifyOne s0 x s).doff = s.doff ∧
    (notifyOne s0 x s).port = s.port ∧ (notifyOne s0 x s).pending = s.pending :=
  by
  unfold notifyOne
  dsimp only
  repeat' split
  all_goals simp
@[simp] theorem notify_frame (s0 s : State) :
    (notify s0 s).del = s.del ∧ (notify s0 s).creel = s.creel ∧ (notify s0 s).doff = s.doff ∧
    (notify s0 s).port = s.port ∧ (notify s0 s).pending = s.pending :=
  by unfold notify; simp
@[simp] theorem piecingEvent_del (f : State → State) (h : ∀ s, (f s).del = s.del) (s : State) :
    (piecingEvent f s).del = s.del := by simp [piecingEvent, h]
@[simp] theorem piecingEvent_creel (f : State → State) (h : ∀ s, (f s).creel = s.creel) (s : State) :
    (piecingEvent f s).creel = s.creel := by simp [piecingEvent, h]
@[simp] theorem piecingEvent_doff (f : State → State) (h : ∀ s, (f s).doff = s.doff) (s : State) :
    (piecingEvent f s).doff = s.doff := by simp [piecingEvent, h]
@[simp] theorem piecingEvent_port (f : State → State) (h : ∀ s, (f s).port = s.port) (s : State) :
    (piecingEvent f s).port = s.port := by simp [piecingEvent, h]
@[simp] theorem piecingEvent_pending (f : State → State) (h : ∀ s, (f s).pending = s.pending) (s : State) :
    (piecingEvent f s).pending = s.pending := by simp [piecingEvent, h]
@[simp] theorem withdrawOf_frame (x : Side) (i : Nat) (s : State) :
    (withdrawOf x i s).del = s.del ∧ (withdrawOf x i s).mon = s.mon ∧ (withdrawOf x i s).creel = s.creel ∧
    (withdrawOf x i s).doff = s.doff ∧ (withdrawOf x i s).shift = s.shift ∧ (withdrawOf x i s).port = s.port ∧
    (withdrawOf x i s).draws = s.draws ∧ (withdrawOf x i s).pending = s.pending :=
  by
  unfold withdrawOf
  dsimp only
  repeat' split
  all_goals simp
@[simp] theorem withdrawOrder_frame (i : Nat) (s : State) :
    (withdrawOrder i s).del = s.del ∧ (withdrawOrder i s).mon = s.mon ∧ (withdrawOrder i s).creel = s.creel ∧
    (withdrawOrder i s).doff = s.doff ∧ (withdrawOrder i s).shift = s.shift ∧ (withdrawOrder i s).port = s.port ∧
    (withdrawOrder i s).draws = s.draws ∧ (withdrawOrder i s).pending = s.pending :=
  by
  unfold withdrawOrder
  all_goals simp
@[simp] theorem returnOrdered_frame (x : Side) (s : State) :
    (returnOrdered x s).del = s.del ∧ (returnOrdered x s).creel = s.creel ∧ (returnOrdered x s).doff = s.doff ∧
    (returnOrdered x s).line = s.line ∧ (returnOrdered x s).port = s.port ∧ (returnOrdered x s).draws = s.draws ∧
    (returnOrdered x s).pending = s.pending :=
  by
  unfold returnOrdered
  repeat' split
  all_goals simp
@[simp] theorem suspendOne_frame (x : Side) (s : State) :
    (suspendOne x s).del = s.del ∧ (suspendOne x s).creel = s.creel ∧ (suspendOne x s).doff = s.doff ∧
    (suspendOne x s).port = s.port ∧ (suspendOne x s).pending = s.pending :=
  by
  unfold suspendOne
  dsimp only
  repeat' split
  all_goals simp
@[simp] theorem suspendEngagements_frame (s : State) :
    (suspendEngagements s).del = s.del ∧ (suspendEngagements s).creel = s.creel ∧
    (suspendEngagements s).doff = s.doff ∧ (suspendEngagements s).port = s.port ∧
    (suspendEngagements s).pending = s.pending :=
  by unfold suspendEngagements; simp
@[simp] theorem resumeEngagements_frame (s : State) :
    (resumeEngagements s).del = s.del ∧ (resumeEngagements s).creel = s.creel ∧
    (resumeEngagements s).doff = s.doff ∧ (resumeEngagements s).port = s.port ∧
    (resumeEngagements s).pending = s.pending :=
  by
  unfold resumeEngagements
  refine ⟨?_, ?_, ?_, ?_, ?_⟩ <;>
    exact foldl_keeps _ _ _ (fun s x => by split <;> simp) s
@[simp] theorem endEngagement_frame (x : Side) (s : State) :
    (endEngagement x s).del = s.del ∧ (endEngagement x s).creel = s.creel ∧ (endEngagement x s).doff = s.doff ∧
    (endEngagement x s).port = s.port ∧ (endEngagement x s).pending = s.pending :=
  by
  unfold endEngagement
  dsimp only
  all_goals simp
@[simp] theorem restartEngagement_frame (x : Side) (s : State) :
    (restartEngagement x s).del = s.del ∧ (restartEngagement x s).creel = s.creel ∧
    (restartEngagement x s).doff = s.doff ∧ (restartEngagement x s).port = s.port ∧
    (restartEngagement x s).pending = s.pending :=
  by
  unfold restartEngagement
  repeat' split
  all_goals simp
@[simp] theorem restartPiecing_frame (s : State) :
    (restartPiecing s).del = s.del ∧ (restartPiecing s).creel = s.creel ∧ (restartPiecing s).doff = s.doff ∧
    (restartPiecing s).port = s.port ∧ (restartPiecing s).pending = s.pending :=
  by unfold restartPiecing; simp

/-! ### The creel -/

@[simp] theorem announceDue_frame (s : State) :
    (announceDue s).del = s.del ∧ (announceDue s).mon = s.mon ∧ (announceDue s).pie = s.pie ∧
    (announceDue s).doff = s.doff ∧ (announceDue s).shift = s.shift ∧ (announceDue s).port = s.port ∧
    (announceDue s).draws = s.draws ∧ (announceDue s).pending = s.pending :=
  by
  unfold announceDue
  dsimp only
  all_goals simp
@[simp] theorem rebuildDue_frame (s : State) :
    (rebuildDue s).del = s.del ∧ (rebuildDue s).mon = s.mon ∧ (rebuildDue s).pie = s.pie ∧
    (rebuildDue s).doff = s.doff ∧ (rebuildDue s).shift = s.shift ∧ (rebuildDue s).port = s.port ∧
    (rebuildDue s).draws = s.draws ∧ (rebuildDue s).pending = s.pending :=
  by
  unfold rebuildDue
  dsimp only
  repeat' split
  all_goals simp
@[simp] theorem emptyAlert_frame (i : Nat) (s : State) :
    (emptyAlert i s).del = s.del ∧ (emptyAlert i s).mon = s.mon ∧ (emptyAlert i s).pie = s.pie ∧
    (emptyAlert i s).creel = s.creel ∧ (emptyAlert i s).doff = s.doff ∧ (emptyAlert i s).shift = s.shift ∧
    (emptyAlert i s).line = s.line ∧ (emptyAlert i s).port = s.port ∧ (emptyAlert i s).draws = s.draws ∧
    (emptyAlert i s).pending = s.pending :=
  by
  unfold emptyAlert
  repeat' split
  all_goals simp
@[simp] theorem marginOne_frame (i : Nat) (s : State) :
    (marginOne i s).del = s.del ∧ (marginOne i s).creel = s.creel ∧ (marginOne i s).doff = s.doff ∧
    (marginOne i s).line = s.line ∧ (marginOne i s).port = s.port ∧ (marginOne i s).draws = s.draws ∧
    (marginOne i s).pending = s.pending :=
  by
  unfold marginOne
  repeat' split
  all_goals simp
@[simp] theorem recomputeSection_frame (k : Nat) (s : State) :
    (recomputeSection k s).del = s.del ∧ (recomputeSection k s).doff = s.doff ∧
    (recomputeSection k s).port = s.port ∧ (recomputeSection k s).pending = s.pending :=
  by
  unfold recomputeSection
  dsimp only
  repeat' split
  all_goals simp
@[simp] theorem recomputeAll_frame (s : State) :
    (recomputeAll s).del = s.del ∧ (recomputeAll s).doff = s.doff ∧ (recomputeAll s).port = s.port ∧
    (recomputeAll s).pending = s.pending :=
  by
  unfold recomputeAll
  all_goals simp
@[simp] theorem recomputeOne_frame (k : Nat) (s : State) :
    (recomputeOne k s).del = s.del ∧ (recomputeOne k s).doff = s.doff ∧ (recomputeOne k s).port = s.port ∧
    (recomputeOne k s).pending = s.pending :=
  by
  unfold recomputeOne
  all_goals simp
@[simp] theorem goneEmpty_frame (i : Nat) (s : State) :
    (goneEmpty i s).del = s.del ∧ (goneEmpty i s).doff = s.doff ∧ (goneEmpty i s).port = s.port ∧
    (goneEmpty i s).pending = s.pending :=
  by
  unfold goneEmpty
  dsimp only
  repeat' split
  all_goals simp
@[simp] theorem countDown_frame (k : Placement) (i : Nat) (s : State) :
    (countDown k i s).del = s.del ∧ (countDown k i s).pie = s.pie ∧ (countDown k i s).creel = s.creel ∧
    (countDown k i s).doff = s.doff ∧ (countDown k i s).line = s.line ∧ (countDown k i s).frame = s.frame ∧
    (countDown k i s).port = s.port ∧ (countDown k i s).draws = s.draws ∧ (countDown k i s).pending = s.pending :=
  by
  unfold countDown
  repeat' split
  all_goals simp
@[simp] theorem goDown_frame (k : Placement) (i : Nat) (s : State) :
    (goDown k i s).del = s.del ∧ (goDown k i s).doff = s.doff ∧ (goDown k i s).port = s.port ∧
    (goDown k i s).pending = s.pending :=
  by
  unfold goDown
  dsimp only
  repeat' split
  all_goals simp
@[simp] theorem rebase_frame (k loaded : Nat) (rem : List Nat) (s : State) :
    (rebase k loaded rem s).del = s.del ∧ (rebase k loaded rem s).pie = s.pie ∧
    (rebase k loaded rem s).doff = s.doff ∧ (rebase k loaded rem s).shift = s.shift ∧
    (rebase k loaded rem s).line = s.line ∧ (rebase k loaded rem s).frame = s.frame ∧
    (rebase k loaded rem s).port = s.port ∧ (rebase k loaded rem s).draws = s.draws ∧
    (rebase k loaded rem s).pending = s.pending :=
  by
  unfold rebase
  dsimp only
  all_goals simp
@[simp] theorem loadRebase_frame (k : Nat) (s : State) :
    (loadRebase k s).del = s.del ∧ (loadRebase k s).pie = s.pie ∧ (loadRebase k s).doff = s.doff ∧
    (loadRebase k s).line = s.line ∧ (loadRebase k s).frame = s.frame ∧ (loadRebase k s).port = s.port ∧
    (loadRebase k s).draws = s.draws ∧ (loadRebase k s).pending = s.pending :=
  by
  unfold loadRebase
  dsimp only
  all_goals simp
@[simp] theorem carryRebase_frame (k : Nat) (s : State) :
    (carryRebase k s).del = s.del ∧ (carryRebase k s).pie = s.pie ∧ (carryRebase k s).doff = s.doff ∧
    (carryRebase k s).line = s.line ∧ (carryRebase k s).frame = s.frame ∧ (carryRebase k s).port = s.port ∧
    (carryRebase k s).draws = s.draws ∧ (carryRebase k s).pending = s.pending :=
  by
  unfold carryRebase
  dsimp only
  repeat' split
  all_goals simp
@[simp] theorem leaveNormal_frame (k : Nat) (s : State) :
    (leaveNormal k s).del = s.del ∧ (leaveNormal k s).mon = s.mon ∧ (leaveNormal k s).pie = s.pie ∧
    (leaveNormal k s).doff = s.doff ∧ (leaveNormal k s).shift = s.shift ∧ (leaveNormal k s).port = s.port ∧
    (leaveNormal k s).draws = s.draws ∧ (leaveNormal k s).pending = s.pending :=
  by
  unfold leaveNormal
  all_goals simp
@[simp] theorem enterNormal_frame (k : Nat) (s : State) :
    (enterNormal k s).del = s.del ∧ (enterNormal k s).doff = s.doff ∧ (enterNormal k s).port = s.port ∧
    (enterNormal k s).pending = s.pending :=
  by
  unfold enterNormal
  all_goals simp
@[simp] theorem setSlot_frame (n : Nat) (b : Option Booking) (s : State) :
    (setSlot n b s).del = s.del ∧ (setSlot n b s).mon = s.mon ∧ (setSlot n b s).pie = s.pie ∧
    (setSlot n b s).doff = s.doff ∧ (setSlot n b s).shift = s.shift ∧ (setSlot n b s).line = s.line ∧
    (setSlot n b s).frame = s.frame ∧ (setSlot n b s).port = s.port ∧ (setSlot n b s).draws = s.draws ∧
    (setSlot n b s).pending = s.pending :=
  by
  unfold setSlot
  dsimp only
  repeat' split
  all_goals simp
@[simp] theorem freeSlot_frame (n : Nat) (s : State) :
    (freeSlot n s).del = s.del ∧ (freeSlot n s).mon = s.mon ∧ (freeSlot n s).pie = s.pie ∧
    (freeSlot n s).doff = s.doff ∧ (freeSlot n s).shift = s.shift ∧ (freeSlot n s).line = s.line ∧
    (freeSlot n s).frame = s.frame ∧ (freeSlot n s).port = s.port ∧ (freeSlot n s).draws = s.draws ∧
    (freeSlot n s).pending = s.pending :=
  by
  unfold freeSlot
  repeat' split
  all_goals simp
@[simp] theorem unbook_frame (k : Nat) (s : State) :
    (unbook k s).del = s.del ∧ (unbook k s).mon = s.mon ∧ (unbook k s).pie = s.pie ∧ (unbook k s).doff = s.doff ∧
    (unbook k s).shift = s.shift ∧ (unbook k s).line = s.line ∧ (unbook k s).frame = s.frame ∧
    (unbook k s).port = s.port ∧ (unbook k s).draws = s.draws ∧ (unbook k s).pending = s.pending :=
  by
  unfold unbook
  dsimp only
  repeat' split
  all_goals simp
@[simp] theorem strayCarrier_frame (s : State) :
    (strayCarrier s).del = s.del ∧ (strayCarrier s).mon = s.mon ∧ (strayCarrier s).pie = s.pie ∧
    (strayCarrier s).doff = s.doff ∧ (strayCarrier s).shift = s.shift ∧ (strayCarrier s).line = s.line ∧
    (strayCarrier s).frame = s.frame ∧ (strayCarrier s).port = s.port ∧ (strayCarrier s).draws = s.draws ∧
    (strayCarrier s).pending = s.pending :=
  by simp [strayCarrier]
@[simp] theorem freshBreak_frame (i : Nat) (s : State) :
    (freshBreak i s).del = s.del ∧ (freshBreak i s).creel = s.creel ∧ (freshBreak i s).doff = s.doff ∧
    (freshBreak i s).line = s.line ∧ (freshBreak i s).port = s.port ∧ (freshBreak i s).draws = s.draws ∧
    (freshBreak i s).pending = s.pending :=
  by
  unfold freshBreak
  dsimp only
  all_goals simp
@[simp] theorem freshIf_frame (w : SpState → Bool) (i : Nat) (s : State) :
    (freshIf w i s).del = s.del ∧ (freshIf w i s).creel = s.creel ∧ (freshIf w i s).doff = s.doff ∧
    (freshIf w i s).port = s.port ∧ (freshIf w i s).pending = s.pending :=
  by
  unfold freshIf
  repeat' split
  all_goals simp
@[simp] theorem settleSection_frame (k : Nat) (st : SectionState) (s : State) :
    (settleSection k st s).del = s.del ∧ (settleSection k st s).mon = s.mon ∧ (settleSection k st s).pie = s.pie ∧
    (settleSection k st s).doff = s.doff ∧ (settleSection k st s).shift = s.shift ∧
    (settleSection k st s).line = s.line ∧ (settleSection k st s).frame = s.frame ∧
    (settleSection k st s).port = s.port ∧ (settleSection k st s).draws = s.draws ∧
    (settleSection k st s).pending = s.pending :=
  by simp [settleSection]
@[simp] theorem endLoaded_frame (k : Nat) (s : State) :
    (endLoaded k s).del = s.del ∧ (endLoaded k s).doff = s.doff ∧ (endLoaded k s).port = s.port ∧
    (endLoaded k s).pending = s.pending :=
  by
  unfold endLoaded
  dsimp only
  all_goals simp
@[simp] theorem endNotLoaded_frame (k : Nat) (s : State) :
    (endNotLoaded k s).del = s.del ∧ (endNotLoaded k s).doff = s.doff ∧ (endNotLoaded k s).port = s.port ∧
    (endNotLoaded k s).pending = s.pending :=
  by
  unfold endNotLoaded
  dsimp only
  all_goals simp
@[simp] theorem endUnknown_frame (k : Nat) (s : State) :
    (endUnknown k s).del = s.del ∧ (endUnknown k s).mon = s.mon ∧ (endUnknown k s).pie = s.pie ∧
    (endUnknown k s).doff = s.doff ∧ (endUnknown k s).shift = s.shift ∧ (endUnknown k s).port = s.port ∧
    (endUnknown k s).draws = s.draws ∧ (endUnknown k s).pending = s.pending :=
  by
  unfold endUnknown
  dsimp only
  all_goals simp

end Sys2Proof.Machine
end

