-- ==== Sys2Proof/Laws/EventFrames.lean ====
section
/-! SUPPORT. Which blocks of the part each event leaves alone, from the robots' telegrams to the resets and the command port. -/

namespace Sys2Proof.Machine

/-! ### Robots -/

@[simp] theorem strayRobot_frame (s : State) :
    (strayRobot s).del = s.del ∧ (strayRobot s).mon = s.mon ∧ (strayRobot s).creel = s.creel ∧
    (strayRobot s).doff = s.doff ∧ (strayRobot s).shift = s.shift ∧ (strayRobot s).line = s.line ∧
    (strayRobot s).frame = s.frame ∧ (strayRobot s).port = s.port ∧ (strayRobot s).draws = s.draws ∧
    (strayRobot s).pending = s.pending :=
  by simp [strayRobot]
@[simp] theorem lateResult_frame (s : State) :
    (lateResult s).del = s.del ∧ (lateResult s).mon = s.mon ∧ (lateResult s).creel = s.creel ∧
    (lateResult s).doff = s.doff ∧ (lateResult s).shift = s.shift ∧ (lateResult s).line = s.line ∧
    (lateResult s).frame = s.frame ∧ (lateResult s).port = s.port ∧ (lateResult s).draws = s.draws ∧
    (lateResult s).pending = s.pending :=
  by simp [lateResult]
@[simp] theorem takeOffer_frame (t : Telegram) (s : State) :
    (takeOffer t s).del = s.del ∧ (takeOffer t s).mon = s.mon ∧ (takeOffer t s).creel = s.creel ∧
    (takeOffer t s).doff = s.doff ∧ (takeOffer t s).shift = s.shift ∧ (takeOffer t s).port = s.port ∧
    (takeOffer t s).draws = s.draws ∧ (takeOffer t s).pending = s.pending :=
  by
  unfold takeOffer
  dsimp only
  repeat' split
  all_goals simp
@[simp] theorem takeArrival_frame (t : Telegram) (s : State) :
    (takeArrival t s).del = s.del ∧ (takeArrival t s).creel = s.creel ∧ (takeArrival t s).doff = s.doff ∧
    (takeArrival t s).port = s.port ∧ (takeArrival t s).pending = s.pending :=
  by
  unfold takeArrival
  dsimp only
  repeat' split
  all_goals simp
@[simp] theorem applyResult_frame (o : WorkOutcome) (i : Nat) (s : State) :
    (applyResult o i s).del = s.del ∧ (applyResult o i s).doff = s.doff ∧ (applyResult o i s).port = s.port ∧
    (applyResult o i s).pending = s.pending :=
  by
  unfold applyResult
  repeat' split
  all_goals simp
@[simp] theorem matchedResult_frame (x : Side) (o : Order) (w : WorkOutcome) (p : Nat) (s : State) :
    (matchedResult x o w p s).del = s.del ∧ (matchedResult x o w p s).doff = s.doff ∧
    (matchedResult x o w p s).port = s.port ∧ (matchedResult x o w p s).pending = s.pending :=
  by
  unfold matchedResult
  dsimp only
  all_goals simp
@[simp] theorem takeResult_frame (t : Telegram) (s : State) :
    (takeResult t s).del = s.del ∧ (takeResult t s).doff = s.doff ∧ (takeResult t s).port = s.port ∧
    (takeResult t s).pending = s.pending :=
  by
  unfold takeResult
  repeat' split
  all_goals simp
@[simp] theorem takeWithdraw_frame (t : Telegram) (s : State) :
    (takeWithdraw t s).del = s.del ∧ (takeWithdraw t s).creel = s.creel ∧ (takeWithdraw t s).doff = s.doff ∧
    (takeWithdraw t s).port = s.port ∧ (takeWithdraw t s).pending = s.pending :=
  by
  unfold takeWithdraw
  repeat' split
  all_goals simp
@[simp] theorem robotRestarted_frame (r : Nat) (s : State) :
    (robotRestarted r s).del = s.del ∧ (robotRestarted r s).creel = s.creel ∧ (robotRestarted r s).doff = s.doff ∧
    (robotRestarted r s).port = s.port ∧ (robotRestarted r s).pending = s.pending :=
  by
  unfold robotRestarted
  repeat' split
  all_goals simp
@[simp] theorem robotLost_frame (x : Side) (s : State) :
    (robotLost x s).del = s.del ∧ (robotLost x s).mon = s.mon ∧ (robotLost x s).creel = s.creel ∧
    (robotLost x s).doff = s.doff ∧ (robotLost x s).shift = s.shift ∧ (robotLost x s).port = s.port ∧
    (robotLost x s).pending = s.pending :=
  by
  unfold robotLost
  dsimp only
  all_goals simp
@[simp] theorem orderTimedOut_frame (x : Side) (o : Order) (s : State) :
    (orderTimedOut x o s).del = s.del ∧ (orderTimedOut x o s).creel = s.creel ∧
    (orderTimedOut x o s).doff = s.doff ∧ (orderTimedOut x o s).port = s.port ∧
    (orderTimedOut x o s).pending = s.pending :=
  by
  unfold orderTimedOut
  dsimp only
  repeat' split
  all_goals simp

/-! ### Strips -/

@[simp] theorem classifyUp_frame (i : Nat) (c : ReadClass) (s : State) :
    (classifyUp i c s).del = s.del ∧ (classifyUp i c s).doff = s.doff ∧ (classifyUp i c s).port = s.port ∧
    (classifyUp i c s).pending = s.pending :=
  by
  unfold classifyUp
  dsimp only
  repeat' split
  all_goals simp
@[simp] theorem classifyUnseen_frame (i : Nat) (c : ReadClass) (s : State) :
    (classifyUnseen i c s).del = s.del ∧ (classifyUnseen i c s).doff = s.doff ∧
    (classifyUnseen i c s).port = s.port ∧ (classifyUnseen i c s).pending = s.pending :=
  by
  unfold classifyUnseen
  repeat' split
  all_goals simp
@[simp] theorem classifyBroken_frame (i : Nat) (c : ReadClass) (s : State) :
    (classifyBroken i c s).del = s.del ∧ (classifyBroken i c s).creel = s.creel ∧
    (classifyBroken i c s).doff = s.doff ∧ (classifyBroken i c s).port = s.port ∧
    (classifyBroken i c s).pending = s.pending :=
  by
  unfold classifyBroken
  dsimp only
  repeat' split
  all_goals simp
@[simp] theorem classifyConfirming_frame (i : Nat) (c : ReadClass) (s : State) :
    (classifyConfirming i c s).del = s.del ∧ (classifyConfirming i c s).creel = s.creel ∧
    (classifyConfirming i c s).doff = s.doff ∧ (classifyConfirming i c s).port = s.port ∧
    (classifyConfirming i c s).pending = s.pending :=
  by
  unfold classifyConfirming
  dsimp only
  repeat' split
  all_goals simp
@[simp] theorem classify_frame (i : Nat) (s : State) :
    (classify i s).del = s.del ∧ (classify i s).doff = s.doff ∧ (classify i s).port = s.port ∧
    (classify i s).pending = s.pending :=
  by
  unfold classify
  dsimp only
  repeat' split
  all_goals simp
@[simp] theorem unobserve_frame (i : Nat) (s : State) :
    (unobserve i s).del = s.del ∧ (unobserve i s).creel = s.creel ∧ (unobserve i s).doff = s.doff ∧
    (unobserve i s).port = s.port ∧ (unobserve i s).pending = s.pending :=
  by
  unfold unobserve
  repeat' split
  all_goals simp
@[simp] theorem failStrip_frame (k : Nat) (s : State) :
    (failStrip k s).del = s.del ∧ (failStrip k s).creel = s.creel ∧ (failStrip k s).doff = s.doff ∧
    (failStrip k s).port = s.port ∧ (failStrip k s).pending = s.pending :=
  by
  unfold failStrip
  dsimp only
  all_goals simp
@[simp] theorem recoverRecord_frame (i : Nat) (s : State) :
    (recoverRecord i s).del = s.del ∧ (recoverRecord i s).creel = s.creel ∧ (recoverRecord i s).doff = s.doff ∧
    (recoverRecord i s).line = s.line ∧ (recoverRecord i s).port = s.port ∧ (recoverRecord i s).draws = s.draws ∧
    (recoverRecord i s).pending = s.pending :=
  by
  unfold recoverRecord
  dsimp only
  repeat' split
  all_goals simp
@[simp] theorem goodReply_frame (k : Nat) (l : List Nat) (s : State) :
    (goodReply k l s).del = s.del ∧ (goodReply k l s).doff = s.doff ∧ (goodReply k l s).port = s.port ∧
    (goodReply k l s).pending = s.pending :=
  by
  unfold goodReply
  dsimp only
  repeat' split
  all_goals simp
@[simp] theorem missedReply_frame (k : Nat) (s : State) :
    (missedReply k s).del = s.del ∧ (missedReply k s).creel = s.creel ∧ (missedReply k s).doff = s.doff ∧
    (missedReply k s).port = s.port ∧ (missedReply k s).pending = s.pending :=
  by
  unfold missedReply
  dsimp only
  repeat' split
  all_goals simp

/-! ### Responses -/

@[simp] theorem respond_frame (k tag : Nat) (r : Result) (o : Bool) (body : List Byte) (s : State) :
    (respond k tag r o body s).del = s.del ∧ (respond k tag r o body s).mon = s.mon ∧
    (respond k tag r o body s).pie = s.pie ∧ (respond k tag r o body s).creel = s.creel ∧
    (respond k tag r o body s).doff = s.doff ∧ (respond k tag r o body s).shift = s.shift ∧
    (respond k tag r o body s).line = s.line ∧ (respond k tag r o body s).frame = s.frame ∧
    (respond k tag r o body s).draws = s.draws ∧ (respond k tag r o body s).pending = s.pending :=
  by simp [respond]
@[simp] theorem completeClose_frame (n : Nat) (s : State) :
    (completeClose n s).del = s.del ∧ (completeClose n s).mon = s.mon ∧ (completeClose n s).pie = s.pie ∧
    (completeClose n s).creel = s.creel ∧ (completeClose n s).doff = s.doff ∧ (completeClose n s).shift = s.shift ∧
    (completeClose n s).line = s.line ∧ (completeClose n s).frame = s.frame ∧ (completeClose n s).draws = s.draws ∧
    (completeClose n s).pending = s.pending :=
  by
  unfold completeClose
  dsimp only
  repeat' split
  all_goals simp
@[simp] theorem completeRestart_frame (n : Nat) (s : State) :
    (completeRestart n s).del = s.del ∧ (completeRestart n s).mon = s.mon ∧ (completeRestart n s).pie = s.pie ∧
    (completeRestart n s).creel = s.creel ∧ (completeRestart n s).doff = s.doff ∧
    (completeRestart n s).shift = s.shift ∧ (completeRestart n s).line = s.line ∧
    (completeRestart n s).frame = s.frame ∧ (completeRestart n s).draws = s.draws ∧
    (completeRestart n s).pending = s.pending :=
  by
  unfold completeRestart
  dsimp only
  repeat' split
  all_goals simp

/-! ### Shifts -/

@[simp] theorem switchSegment_frame (a : Article) (s : State) :
    (switchSegment a s).del = s.del ∧ (switchSegment a s).mon = s.mon ∧ (switchSegment a s).pie = s.pie ∧
    (switchSegment a s).creel = s.creel ∧ (switchSegment a s).doff = s.doff ∧ (switchSegment a s).line = s.line ∧
    (switchSegment a s).port = s.port ∧ (switchSegment a s).draws = s.draws ∧
    (switchSegment a s).pending = s.pending :=
  by
  unfold switchSegment
  dsimp only
  repeat' split
  all_goals simp
@[simp] theorem articleSwitch_frame (s : State) :
    (articleSwitch s).pie = s.pie ∧ (articleSwitch s).doff = s.doff ∧ (articleSwitch s).line = s.line ∧
    (articleSwitch s).port = s.port ∧ (articleSwitch s).draws = s.draws ∧ (articleSwitch s).pending = s.pending :=
  by
  unfold articleSwitch
  dsimp only
  repeat' split
  all_goals simp
@[simp] theorem immediateSwitch_frame (a : Article) (s : State) :
    (immediateSwitch a s).mon = s.mon ∧ (immediateSwitch a s).pie = s.pie ∧ (immediateSwitch a s).creel = s.creel ∧
    (immediateSwitch a s).doff = s.doff ∧ (immediateSwitch a s).line = s.line ∧
    (immediateSwitch a s).frame = s.frame ∧ (immediateSwitch a s).port = s.port ∧
    (immediateSwitch a s).draws = s.draws ∧ (immediateSwitch a s).pending = s.pending :=
  by simp [immediateSwitch]
@[simp] theorem beginClose_frame (n : Nat) (w : Bool) (s : State) :
    (beginClose n w s).del = s.del ∧ (beginClose n w s).mon = s.mon ∧ (beginClose n w s).pie = s.pie ∧
    (beginClose n w s).creel = s.creel ∧ (beginClose n w s).doff = s.doff ∧ (beginClose n w s).line = s.line ∧
    (beginClose n w s).port = s.port ∧ (beginClose n w s).draws = s.draws ∧
    (beginClose n w s).pending = s.pending :=
  by
  unfold beginClose
  dsimp only
  repeat' split
  all_goals simp
@[simp] theorem takeShiftMark_frame (t : Telegram) (s : State) :
    (takeShiftMark t s).del = s.del ∧ (takeShiftMark t s).mon = s.mon ∧ (takeShiftMark t s).pie = s.pie ∧
    (takeShiftMark t s).creel = s.creel ∧ (takeShiftMark t s).doff = s.doff ∧ (takeShiftMark t s).line = s.line ∧
    (takeShiftMark t s).port = s.port ∧ (takeShiftMark t s).draws = s.draws ∧
    (takeShiftMark t s).pending = s.pending :=
  by
  unfold takeShiftMark
  dsimp only
  repeat' split
  all_goals simp
@[simp] theorem takeShiftTotals_frame (t : Telegram) (s : State) :
    (takeShiftTotals t s).del = s.del ∧ (takeShiftTotals t s).mon = s.mon ∧ (takeShiftTotals t s).pie = s.pie ∧
    (takeShiftTotals t s).creel = s.creel ∧ (takeShiftTotals t s).doff = s.doff ∧
    (takeShiftTotals t s).line = s.line ∧ (takeShiftTotals t s).frame = s.frame ∧
    (takeShiftTotals t s).port = s.port ∧ (takeShiftTotals t s).draws = s.draws ∧
    (takeShiftTotals t s).pending = s.pending :=
  by simp [takeShiftTotals]
@[simp] theorem sweepEnd_frame (cl : Closing) (s : State) :
    (sweepEnd cl s).del = s.del ∧ (sweepEnd cl s).mon = s.mon ∧ (sweepEnd cl s).pie = s.pie ∧
    (sweepEnd cl s).creel = s.creel ∧ (sweepEnd cl s).doff = s.doff ∧ (sweepEnd cl s).draws = s.draws ∧
    (sweepEnd cl s).pending = s.pending :=
  by
  unfold sweepEnd
  dsimp only
  repeat' split
  all_goals simp
@[simp] theorem sweepOne_frame (s : State) :
    (sweepOne s).del = s.del ∧ (sweepOne s).pie = s.pie ∧ (sweepOne s).creel = s.creel ∧
    (sweepOne s).doff = s.doff ∧ (sweepOne s).draws = s.draws ∧ (sweepOne s).pending = s.pending :=
  by
  unfold sweepOne
  dsimp only
  repeat' split
  all_goals simp

/-! ### Lockout -/

@[simp] theorem lockRecord_frame (i : Nat) (s : State) :
    (lockRecord i s).del = s.del ∧ (lockRecord i s).creel = s.creel ∧ (lockRecord i s).doff = s.doff ∧
    (lockRecord i s).port = s.port ∧ (lockRecord i s).pending = s.pending :=
  by
  unfold lockRecord
  repeat' split
  all_goals simp
@[simp] theorem unlockRecord_frame (i : Nat) (s : State) :
    (unlockRecord i s).del = s.del ∧ (unlockRecord i s).creel = s.creel ∧ (unlockRecord i s).doff = s.doff ∧
    (unlockRecord i s).line = s.line ∧ (unlockRecord i s).port = s.port ∧ (unlockRecord i s).draws = s.draws ∧
    (unlockRecord i s).pending = s.pending :=
  by
  unfold unlockRecord
  dsimp only
  repeat' split
  all_goals simp
@[simp] theorem rangeRecord_frame (o n : Option Lockout) (i : Nat) (s : State) :
    (rangeRecord o n i s).del = s.del ∧ (rangeRecord o n i s).creel = s.creel ∧
    (rangeRecord o n i s).doff = s.doff ∧ (rangeRecord o n i s).port = s.port ∧
    (rangeRecord o n i s).pending = s.pending :=
  by
  unfold rangeRecord
  repeat' split
  all_goals simp
@[simp] theorem applyRange_frame (n : Option Lockout) (s : State) :
    (applyRange n s).del = s.del ∧ (applyRange n s).creel = s.creel ∧ (applyRange n s).doff = s.doff ∧
    (applyRange n s).port = s.port ∧ (applyRange n s).pending = s.pending :=
  by
  unfold applyRange
  dsimp only
  all_goals simp
@[simp] theorem takeMaint_frame (l : Bool) (s : State) :
    (takeMaint l s).del = s.del ∧ (takeMaint l s).pie = s.pie ∧ (takeMaint l s).creel = s.creel ∧
    (takeMaint l s).doff = s.doff ∧ (takeMaint l s).shift = s.shift ∧ (takeMaint l s).line = s.line ∧
    (takeMaint l s).port = s.port ∧ (takeMaint l s).draws = s.draws ∧ (takeMaint l s).pending = s.pending :=
  by
  unfold takeMaint
  dsimp only
  repeat' split
  all_goals simp
@[simp] theorem unmarkRogue_frame (i : Nat) (s : State) :
    (unmarkRogue i s).del = s.del ∧ (unmarkRogue i s).creel = s.creel ∧ (unmarkRogue i s).doff = s.doff ∧
    (unmarkRogue i s).line = s.line ∧ (unmarkRogue i s).port = s.port ∧ (unmarkRogue i s).draws = s.draws ∧
    (unmarkRogue i s).pending = s.pending :=
  by
  unfold unmarkRogue
  dsimp only
  repeat' split
  all_goals simp

/-! ### Carriers -/

@[simp] theorem extendSlot_frame (n c e : Nat) (l : List Nat) (s : State) :
    (extendSlot n c e l s).del = s.del ∧ (extendSlot n c e l s).mon = s.mon ∧ (extendSlot n c e l s).pie = s.pie ∧
    (extendSlot n c e l s).doff = s.doff ∧ (extendSlot n c e l s).shift = s.shift ∧
    (extendSlot n c e l s).line = s.line ∧ (extendSlot n c e l s).frame = s.frame ∧
    (extendSlot n c e l s).port = s.port ∧ (extendSlot n c e l s).draws = s.draws ∧
    (extendSlot n c e l s).pending = s.pending :=
  by
  unfold extendSlot
  dsimp only
  repeat' split
  all_goals simp
@[simp] theorem takeBooking_frame (t : Telegram) (s : State) :
    (takeBooking t s).del = s.del ∧ (takeBooking t s).mon = s.mon ∧ (takeBooking t s).pie = s.pie ∧
    (takeBooking t s).doff = s.doff ∧ (takeBooking t s).shift = s.shift ∧ (takeBooking t s).port = s.port ∧
    (takeBooking t s).draws = s.draws ∧ (takeBooking t s).pending = s.pending :=
  by
  unfold takeBooking
  dsimp only
  repeat' split
  all_goals simp
@[simp] theorem takeBookingDone_frame (t : Telegram) (s : State) :
    (takeBookingDone t s).del = s.del ∧ (takeBookingDone t s).mon = s.mon ∧ (takeBookingDone t s).pie = s.pie ∧
    (takeBookingDone t s).doff = s.doff ∧ (takeBookingDone t s).shift = s.shift ∧
    (takeBookingDone t s).line = s.line ∧ (takeBookingDone t s).frame = s.frame ∧
    (takeBookingDone t s).port = s.port ∧ (takeBookingDone t s).draws = s.draws ∧
    (takeBookingDone t s).pending = s.pending :=
  by
  unfold takeBookingDone
  repeat' split
  all_goals simp
@[simp] theorem exchangeRecord_frame (i : Nat) (s : State) :
    (exchangeRecord i s).del = s.del ∧ (exchangeRecord i s).creel = s.creel ∧ (exchangeRecord i s).doff = s.doff ∧
    (exchangeRecord i s).port = s.port ∧ (exchangeRecord i s).pending = s.pending :=
  by
  unfold exchangeRecord
  repeat' split
  all_goals simp
@[simp] theorem pushLapse_frame (n t : Nat) (s : State) :
    (pushLapse n t s).del = s.del ∧ (pushLapse n t s).mon = s.mon ∧ (pushLapse n t s).pie = s.pie ∧
    (pushLapse n t s).doff = s.doff ∧ (pushLapse n t s).shift = s.shift ∧ (pushLapse n t s).line = s.line ∧
    (pushLapse n t s).frame = s.frame ∧ (pushLapse n t s).port = s.port ∧ (pushLapse n t s).draws = s.draws ∧
    (pushLapse n t s).pending = s.pending :=
  by
  unfold pushLapse
  repeat' split
  all_goals simp
@[simp] theorem beginExchange_frame (k n c : Nat) (s : State) :
    (beginExchange k n c s).del = s.del ∧ (beginExchange k n c s).doff = s.doff ∧
    (beginExchange k n c s).port = s.port ∧ (beginExchange k n c s).pending = s.pending :=
  by
  unfold beginExchange
  dsimp only
  all_goals simp
@[simp] theorem takeExchangeBegin_frame (t : Telegram) (s : State) :
    (takeExchangeBegin t s).del = s.del ∧ (takeExchangeBegin t s).doff = s.doff ∧
    (takeExchangeBegin t s).port = s.port ∧ (takeExchangeBegin t s).pending = s.pending :=
  by
  unfold takeExchangeBegin
  repeat' split
  all_goals simp
@[simp] theorem takeExchangeEnd_frame (t : Telegram) (s : State) :
    (takeExchangeEnd t s).del = s.del ∧ (takeExchangeEnd t s).doff = s.doff ∧ (takeExchangeEnd t s).port = s.port ∧
    (takeExchangeEnd t s).pending = s.pending :=
  by
  unfold takeExchangeEnd
  repeat' split
  all_goals simp
@[simp] theorem abandonOf_frame (c k : Nat) (s : State) :
    (abandonOf c k s).del = s.del ∧ (abandonOf c k s).mon = s.mon ∧ (abandonOf c k s).pie = s.pie ∧
    (abandonOf c k s).doff = s.doff ∧ (abandonOf c k s).shift = s.shift ∧ (abandonOf c k s).port = s.port ∧
    (abandonOf c k s).draws = s.draws ∧ (abandonOf c k s).pending = s.pending :=
  by
  unfold abandonOf
  repeat' split
  all_goals simp
@[simp] theorem carrierRestarted_frame (c : Nat) (s : State) :
    (carrierRestarted c s).del = s.del ∧ (carrierRestarted c s).mon = s.mon ∧ (carrierRestarted c s).pie = s.pie ∧
    (carrierRestarted c s).doff = s.doff ∧ (carrierRestarted c s).shift = s.shift ∧
    (carrierRestarted c s).port = s.port ∧ (carrierRestarted c s).draws = s.draws ∧
    (carrierRestarted c s).pending = s.pending :=
  by
  unfold carrierRestarted
  dsimp only
  repeat' split
  all_goals simp
@[simp] theorem lapse_frame (n : Nat) (s : State) :
    (lapse n s).del = s.del ∧ (lapse n s).mon = s.mon ∧ (lapse n s).pie = s.pie ∧ (lapse n s).doff = s.doff ∧
    (lapse n s).shift = s.shift ∧ (lapse n s).line = s.line ∧ (lapse n s).port = s.port ∧
    (lapse n s).draws = s.draws ∧ (lapse n s).pending = s.pending :=
  by
  unfold lapse
  repeat' split
  all_goals simp

/-! ### The doff sequencer -/

@[simp] theorem sendClaim_frame (s : State) :
    (sendClaim s).del = s.del ∧ (sendClaim s).mon = s.mon ∧ (sendClaim s).pie = s.pie ∧
    (sendClaim s).creel = s.creel ∧ (sendClaim s).doff = s.doff ∧ (sendClaim s).shift = s.shift ∧
    (sendClaim s).port = s.port ∧ (sendClaim s).draws = s.draws ∧ (sendClaim s).pending = s.pending :=
  by
  unfold sendClaim
  all_goals simp
@[simp] theorem sendDoffState_frame (s : State) :
    (sendDoffState s).del = s.del ∧ (sendDoffState s).mon = s.mon ∧ (sendDoffState s).pie = s.pie ∧
    (sendDoffState s).creel = s.creel ∧ (sendDoffState s).doff = s.doff ∧ (sendDoffState s).shift = s.shift ∧
    (sendDoffState s).port = s.port ∧ (sendDoffState s).draws = s.draws ∧ (sendDoffState s).pending = s.pending :=
  by
  unfold sendDoffState
  all_goals simp
@[simp] theorem announceAgain_frame (s : State) :
    (announceAgain s).del = s.del ∧ (announceAgain s).mon = s.mon ∧ (announceAgain s).pie = s.pie ∧
    (announceAgain s).creel = s.creel ∧ (announceAgain s).shift = s.shift ∧ (announceAgain s).line = s.line ∧
    (announceAgain s).frame = s.frame ∧ (announceAgain s).port = s.port ∧ (announceAgain s).draws = s.draws ∧
    (announceAgain s).pending = s.pending :=
  by simp [announceAgain]
@[simp] theorem setDoffState_frame (d : DoffState) (s : State) :
    (setDoffState d s).del = s.del ∧ (setDoffState d s).mon = s.mon ∧ (setDoffState d s).pie = s.pie ∧
    (setDoffState d s).creel = s.creel ∧ (setDoffState d s).shift = s.shift ∧ (setDoffState d s).line = s.line ∧
    (setDoffState d s).frame = s.frame ∧ (setDoffState d s).port = s.port ∧ (setDoffState d s).draws = s.draws ∧
    (setDoffState d s).pending = s.pending :=
  by simp [setDoffState]
@[simp] theorem claimFull_frame (s : State) :
    (claimFull s).del = s.del ∧ (claimFull s).mon = s.mon ∧ (claimFull s).pie = s.pie ∧
    (claimFull s).creel = s.creel ∧ (claimFull s).shift = s.shift ∧ (claimFull s).port = s.port ∧
    (claimFull s).draws = s.draws ∧ (claimFull s).pending = s.pending :=
  by
  unfold claimFull
  dsimp only
  all_goals simp
@[simp] theorem claim_frame (m : Bool) (s : State) :
    (claim m s).del = s.del ∧ (claim m s).mon = s.mon ∧ (claim m s).pie = s.pie ∧ (claim m s).creel = s.creel ∧
    (claim m s).shift = s.shift ∧ (claim m s).port = s.port ∧ (claim m s).draws = s.draws ∧
    (claim m s).pending = s.pending :=
  by
  unfold claim
  dsimp only
  repeat' split
  all_goals simp
@[simp] theorem fillCheck_frame (s : State) :
    (fillCheck s).del = s.del ∧ (fillCheck s).mon = s.mon ∧ (fillCheck s).pie = s.pie ∧
    (fillCheck s).creel = s.creel ∧ (fillCheck s).shift = s.shift ∧ (fillCheck s).port = s.port ∧
    (fillCheck s).draws = s.draws ∧ (fillCheck s).pending = s.pending :=
  by
  unfold fillCheck
  dsimp only
  repeat' split
  all_goals simp
@[simp] theorem grant_frame (s : State) :
    (grant s).del = s.del ∧ (grant s).mon = s.mon ∧ (grant s).pie = s.pie ∧ (grant s).creel = s.creel ∧
    (grant s).shift = s.shift ∧ (grant s).port = s.port ∧ (grant s).draws = s.draws ∧
    (grant s).pending = s.pending :=
  by
  unfold grant
  dsimp only
  all_goals simp
@[simp] theorem grantCheck_frame (s : State) :
    (grantCheck s).del = s.del ∧ (grantCheck s).mon = s.mon ∧ (grantCheck s).pie = s.pie ∧
    (grantCheck s).creel = s.creel ∧ (grantCheck s).shift = s.shift ∧ (grantCheck s).port = s.port ∧
    (grantCheck s).draws = s.draws ∧ (grantCheck s).pending = s.pending :=
  by
  unfold grantCheck
  repeat' split
  all_goals simp
@[simp] theorem withdrawGrant_frame (s : State) :
    (withdrawGrant s).del = s.del ∧ (withdrawGrant s).mon = s.mon ∧ (withdrawGrant s).pie = s.pie ∧
    (withdrawGrant s).creel = s.creel ∧ (withdrawGrant s).shift = s.shift ∧ (withdrawGrant s).port = s.port ∧
    (withdrawGrant s).draws = s.draws ∧ (withdrawGrant s).pending = s.pending :=
  by
  unfold withdrawGrant
  dsimp only
  all_goals simp
@[simp] theorem backOffCheck_frame (s : State) :
    (backOffCheck s).del = s.del ∧ (backOffCheck s).mon = s.mon ∧ (backOffCheck s).pie = s.pie ∧
    (backOffCheck s).creel = s.creel ∧ (backOffCheck s).shift = s.shift ∧ (backOffCheck s).port = s.port ∧
    (backOffCheck s).draws = s.draws ∧ (backOffCheck s).pending = s.pending :=
  by
  unfold backOffCheck
  dsimp only
  repeat' split
  all_goals simp
@[simp] theorem viewChanged_frame (s : State) :
    (viewChanged s).del = s.del ∧ (viewChanged s).mon = s.mon ∧ (viewChanged s).pie = s.pie ∧
    (viewChanged s).creel = s.creel ∧ (viewChanged s).shift = s.shift ∧ (viewChanged s).port = s.port ∧
    (viewChanged s).draws = s.draws ∧ (viewChanged s).pending = s.pending :=
  by
  unfold viewChanged
  repeat' split
  all_goals simp
@[simp] theorem dropDoff_frame (s : State) :
    (dropDoff s).del = s.del ∧ (dropDoff s).mon = s.mon ∧ (dropDoff s).pie = s.pie ∧ (dropDoff s).creel = s.creel ∧
    (dropDoff s).shift = s.shift ∧ (dropDoff s).line = s.line ∧ (dropDoff s).frame = s.frame ∧
    (dropDoff s).port = s.port ∧ (dropDoff s).draws = s.draws ∧ (dropDoff s).pending = s.pending :=
  by simp [dropDoff]
@[simp] theorem takePeer_frame (p : Peer) (s : State) :
    (takePeer p s).del = s.del ∧ (takePeer p s).mon = s.mon ∧ (takePeer p s).pie = s.pie ∧
    (takePeer p s).creel = s.creel ∧ (takePeer p s).shift = s.shift ∧ (takePeer p s).port = s.port ∧
    (takePeer p s).draws = s.draws ∧ (takePeer p s).pending = s.pending :=
  by
  unfold takePeer
  dsimp only
  repeat' split
  all_goals simp
@[simp] theorem takeClaim_frame (t : Telegram) (s : State) :
    (takeClaim t s).del = s.del ∧ (takeClaim t s).mon = s.mon ∧ (takeClaim t s).pie = s.pie ∧
    (takeClaim t s).creel = s.creel ∧ (takeClaim t s).shift = s.shift ∧ (takeClaim t s).port = s.port ∧
    (takeClaim t s).draws = s.draws ∧ (takeClaim t s).pending = s.pending :=
  by
  unfold takeClaim
  repeat' split
  all_goals simp
@[simp] theorem takeDoffState_frame (t : Telegram) (s : State) :
    (takeDoffState t s).del = s.del ∧ (takeDoffState t s).mon = s.mon ∧ (takeDoffState t s).pie = s.pie ∧
    (takeDoffState t s).creel = s.creel ∧ (takeDoffState t s).shift = s.shift ∧ (takeDoffState t s).port = s.port ∧
    (takeDoffState t s).draws = s.draws ∧ (takeDoffState t s).pending = s.pending :=
  by
  unfold takeDoffState
  repeat' split
  all_goals simp
@[simp] theorem keepPeers_frame (k : Peer → Bool) (s : State) :
    (keepPeers k s).del = s.del ∧ (keepPeers k s).mon = s.mon ∧ (keepPeers k s).pie = s.pie ∧
    (keepPeers k s).creel = s.creel ∧ (keepPeers k s).shift = s.shift ∧ (keepPeers k s).port = s.port ∧
    (keepPeers k s).draws = s.draws ∧ (keepPeers k s).pending = s.pending :=
  by
  unfold keepPeers
  dsimp only
  repeat' split
  all_goals simp
@[simp] theorem peerGone_frame (k : Nat) (s : State) :
    (peerGone k s).del = s.del ∧ (peerGone k s).mon = s.mon ∧ (peerGone k s).pie = s.pie ∧
    (peerGone k s).creel = s.creel ∧ (peerGone k s).shift = s.shift ∧ (peerGone k s).port = s.port ∧
    (peerGone k s).draws = s.draws ∧ (peerGone k s).pending = s.pending :=
  by
  unfold peerGone
  all_goals simp
@[simp] theorem stopTest_frame (s : State) :
    (stopTest s).del = s.del ∧ (stopTest s).mon = s.mon ∧ (stopTest s).pie = s.pie ∧ (stopTest s).creel = s.creel ∧
    (stopTest s).shift = s.shift ∧ (stopTest s).port = s.port ∧ (stopTest s).draws = s.draws ∧
    (stopTest s).pending = s.pending :=
  by
  unfold stopTest
  dsimp only
  repeat' split
  all_goals simp
@[simp] theorem enterRundown_frame (s : State) :
    (enterRundown s).del = s.del ∧ (enterRundown s).creel = s.creel ∧ (enterRundown s).port = s.port ∧
    (enterRundown s).pending = s.pending :=
  by
  unfold enterRundown
  dsimp only
  all_goals simp
@[simp] theorem announceDoff_frame (s : State) :
    (announceDoff s).del = s.del ∧ (announceDoff s).mon = s.mon ∧ (announceDoff s).pie = s.pie ∧
    (announceDoff s).creel = s.creel ∧ (announceDoff s).shift = s.shift ∧ (announceDoff s).port = s.port ∧
    (announceDoff s).draws = s.draws ∧ (announceDoff s).pending = s.pending :=
  by
  unfold announceDoff
  dsimp only
  repeat' split
  all_goals simp
@[simp] theorem countDoff_frame (s : State) :
    (countDoff s).del = s.del ∧ (countDoff s).mon = s.mon ∧ (countDoff s).pie = s.pie ∧
    (countDoff s).creel = s.creel ∧ (countDoff s).doff = s.doff ∧ (countDoff s).line = s.line ∧
    (countDoff s).frame = s.frame ∧ (countDoff s).port = s.port ∧ (countDoff s).draws = s.draws ∧
    (countDoff s).pending = s.pending :=
  by simp [countDoff]
@[simp] theorem completeDoff_frame (s : State) :
    (completeDoff s).port = s.port ∧ (completeDoff s).pending = s.pending :=
  by
  unfold completeDoff
  dsimp only
  repeat' split
  all_goals simp
@[simp] theorem judge_frame (n i : Nat) (s : State) :
    (judge n i s).del = s.del ∧ (judge n i s).doff = s.doff ∧ (judge n i s).port = s.port ∧
    (judge n i s).pending = s.pending :=
  by
  unfold judge
  repeat' split
  all_goals simp
@[simp] theorem settleEnd_frame (s : State) :
    (settleEnd s).del = s.del ∧ (settleEnd s).port = s.port ∧ (settleEnd s).pending = s.pending :=
  by
  unfold settleEnd
  dsimp only
  all_goals simp
@[simp] theorem abandon_frame (s : State) :
    (abandon s).del = s.del ∧ (abandon s).mon = s.mon ∧ (abandon s).pie = s.pie ∧ (abandon s).creel = s.creel ∧
    (abandon s).shift = s.shift ∧ (abandon s).port = s.port ∧ (abandon s).draws = s.draws ∧
    (abandon s).pending = s.pending :=
  by
  unfold abandon
  dsimp only
  all_goals simp
@[simp] theorem restartDoff_frame (s : State) :
    (restartDoff s).del = s.del ∧ (restartDoff s).mon = s.mon ∧ (restartDoff s).pie = s.pie ∧
    (restartDoff s).creel = s.creel ∧ (restartDoff s).shift = s.shift ∧ (restartDoff s).port = s.port ∧
    (restartDoff s).draws = s.draws ∧ (restartDoff s).pending = s.pending :=
  by
  unfold restartDoff
  dsimp only
  repeat' split
  all_goals simp

/-! ### The hall line -/

@[simp] theorem countLine_frame (f : LineCounters → LineCounters) (s : State) :
    (countLine f s).del = s.del ∧ (countLine f s).mon = s.mon ∧ (countLine f s).pie = s.pie ∧
    (countLine f s).creel = s.creel ∧ (countLine f s).doff = s.doff ∧ (countLine f s).shift = s.shift ∧
    (countLine f s).frame = s.frame ∧ (countLine f s).port = s.port ∧ (countLine f s).draws = s.draws ∧
    (countLine f s).pending = s.pending :=
  by simp [countLine]
@[simp] theorem duplicateStation_frame (bs : List Byte) (s : State) :
    (duplicateStation bs s).del = s.del ∧ (duplicateStation bs s).mon = s.mon ∧
    (duplicateStation bs s).pie = s.pie ∧ (duplicateStation bs s).creel = s.creel ∧
    (duplicateStation bs s).shift = s.shift ∧ (duplicateStation bs s).line = s.line ∧
    (duplicateStation bs s).port = s.port ∧ (duplicateStation bs s).draws = s.draws ∧
    (duplicateStation bs s).pending = s.pending :=
  by
  unfold duplicateStation
  dsimp only
  repeat' split
  all_goals simp
@[simp] theorem keep_frame (bs : List Byte) (s : State) :
    (keep bs s).del = s.del ∧ (keep bs s).mon = s.mon ∧ (keep bs s).pie = s.pie ∧ (keep bs s).creel = s.creel ∧
    (keep bs s).shift = s.shift ∧ (keep bs s).port = s.port ∧ (keep bs s).draws = s.draws ∧
    (keep bs s).pending = s.pending :=
  by
  unfold keep
  dsimp only
  repeat' split
  all_goals simp
@[simp] theorem heard_frame (s : State) :
    (heard s).del = s.del ∧ (heard s).mon = s.mon ∧ (heard s).pie = s.pie ∧ (heard s).creel = s.creel ∧
    (heard s).doff = s.doff ∧ (heard s).shift = s.shift ∧ (heard s).frame = s.frame ∧ (heard s).port = s.port ∧
    (heard s).draws = s.draws ∧ (heard s).pending = s.pending :=
  by simp [heard]
@[simp] theorem received_frame (bs : List Byte) (b o : Bool) (s : State) :
    (received bs b o s).del = s.del ∧ (received bs b o s).mon = s.mon ∧ (received bs b o s).pie = s.pie ∧
    (received bs b o s).creel = s.creel ∧ (received bs b o s).shift = s.shift ∧ (received bs b o s).port = s.port ∧
    (received bs b o s).draws = s.draws ∧ (received bs b o s).pending = s.pending :=
  by
  unfold received
  dsimp only
  repeat' split
  all_goals simp
@[simp] theorem gainLine_frame (s : State) :
    (gainLine s).del = s.del ∧ (gainLine s).mon = s.mon ∧ (gainLine s).pie = s.pie ∧ (gainLine s).creel = s.creel ∧
    (gainLine s).doff = s.doff ∧ (gainLine s).shift = s.shift ∧ (gainLine s).frame = s.frame ∧
    (gainLine s).port = s.port ∧ (gainLine s).draws = s.draws ∧ (gainLine s).pending = s.pending :=
  by
  unfold gainLine
  dsimp only
  repeat' split
  all_goals simp
@[simp] theorem endOfRestart_frame (o : Outgoing) (n : Nat) (s : State) :
    (endOfRestart o n s).del = s.del ∧ (endOfRestart o n s).mon = s.mon ∧ (endOfRestart o n s).pie = s.pie ∧
    (endOfRestart o n s).creel = s.creel ∧ (endOfRestart o n s).doff = s.doff ∧
    (endOfRestart o n s).shift = s.shift ∧ (endOfRestart o n s).line = s.line ∧
    (endOfRestart o n s).frame = s.frame ∧ (endOfRestart o n s).draws = s.draws ∧
    (endOfRestart o n s).pending = s.pending :=
  by
  unfold endOfRestart
  repeat' split
  all_goals simp
@[simp] theorem collide_frame (o : Outgoing) (s : State) :
    (collide o s).del = s.del ∧ (collide o s).mon = s.mon ∧ (collide o s).pie = s.pie ∧
    (collide o s).creel = s.creel ∧ (collide o s).doff = s.doff ∧ (collide o s).shift = s.shift ∧
    (collide o s).draws = s.draws ∧ (collide o s).pending = s.pending :=
  by
  unfold collide
  dsimp only
  repeat' split
  all_goals simp
@[simp] theorem sentWhole_frame (o : Outgoing) (s : State) :
    (sentWhole o s).del = s.del ∧ (sentWhole o s).mon = s.mon ∧ (sentWhole o s).pie = s.pie ∧
    (sentWhole o s).creel = s.creel ∧ (sentWhole o s).doff = s.doff ∧ (sentWhole o s).shift = s.shift ∧
    (sentWhole o s).frame = s.frame ∧ (sentWhole o s).draws = s.draws ∧ (sentWhole o s).pending = s.pending :=
  by
  unfold sentWhole
  dsimp only
  all_goals simp
@[simp] theorem popReceived_frame (s : State) :
    (popReceived s).del = s.del ∧ (popReceived s).mon = s.mon ∧ (popReceived s).pie = s.pie ∧
    (popReceived s).creel = s.creel ∧ (popReceived s).doff = s.doff ∧ (popReceived s).shift = s.shift ∧
    (popReceived s).frame = s.frame ∧ (popReceived s).port = s.port ∧ (popReceived s).draws = s.draws ∧
    (popReceived s).pending = s.pending :=
  by simp [popReceived]
@[simp] theorem passOver_frame (s : State) :
    (passOver s).del = s.del ∧ (passOver s).mon = s.mon ∧ (passOver s).pie = s.pie ∧ (passOver s).creel = s.creel ∧
    (passOver s).doff = s.doff ∧ (passOver s).shift = s.shift ∧ (passOver s).frame = s.frame ∧
    (passOver s).port = s.port ∧ (passOver s).draws = s.draws ∧ (passOver s).pending = s.pending :=
  by
  unfold passOver
  repeat' split
  all_goals simp
@[simp] theorem handOver_del (k : Kind) (f : Telegram → State → State) (h : ∀ t s, (f t s).del = s.del) (s : State) :
    (handOver k f s).del = s.del := by
  unfold handOver
  repeat' split
  all_goals simp [h]
@[simp] theorem handOver_mon (k : Kind) (f : Telegram → State → State) (h : ∀ t s, (f t s).mon = s.mon) (s : State) :
    (handOver k f s).mon = s.mon := by
  unfold handOver
  repeat' split
  all_goals simp [h]
@[simp] theorem handOver_pie (k : Kind) (f : Telegram → State → State) (h : ∀ t s, (f t s).pie = s.pie) (s : State) :
    (handOver k f s).pie = s.pie := by
  unfold handOver
  repeat' split
  all_goals simp [h]
@[simp] theorem handOver_creel (k : Kind) (f : Telegram → State → State) (h : ∀ t s, (f t s).creel = s.creel) (s : State) :
    (handOver k f s).creel = s.creel := by
  unfold handOver
  repeat' split
  all_goals simp [h]
@[simp] theorem handOver_doff (k : Kind) (f : Telegram → State → State) (h : ∀ t s, (f t s).doff = s.doff) (s : State) :
    (handOver k f s).doff = s.doff := by
  unfold handOver
  repeat' split
  all_goals simp [h]
@[simp] theorem handOver_shift (k : Kind) (f : Telegram → State → State) (h : ∀ t s, (f t s).shift = s.shift) (s : State) :
    (handOver k f s).shift = s.shift := by
  unfold handOver
  repeat' split
  all_goals simp [h]
@[simp] theorem handOver_frame (k : Kind) (f : Telegram → State → State) (h : ∀ t s, (f t s).frame = s.frame) (s : State) :
    (handOver k f s).frame = s.frame := by
  unfold handOver
  repeat' split
  all_goals simp [h]
@[simp] theorem handOver_port (k : Kind) (f : Telegram → State → State) (h : ∀ t s, (f t s).port = s.port) (s : State) :
    (handOver k f s).port = s.port := by
  unfold handOver
  repeat' split
  all_goals simp [h]
@[simp] theorem handOver_draws (k : Kind) (f : Telegram → State → State) (h : ∀ t s, (f t s).draws = s.draws) (s : State) :
    (handOver k f s).draws = s.draws := by
  unfold handOver
  repeat' split
  all_goals simp [h]
@[simp] theorem handOver_pending (k : Kind) (f : Telegram → State → State) (h : ∀ t s, (f t s).pending = s.pending) (s : State) :
    (handOver k f s).pending = s.pending := by
  unfold handOver
  repeat' split
  all_goals simp [h]
@[simp] theorem takeRestart_del (a : Received → Bool) (m : Received → Received) (f : Nat → State → State)
    (h : ∀ n s, (f n s).del = s.del) (s : State) :
    (takeRestart a m f s).del = s.del := by
  unfold takeRestart
  dsimp only
  repeat' split
  all_goals simp [h]
@[simp] theorem takeRestart_mon (a : Received → Bool) (m : Received → Received) (f : Nat → State → State)
    (h : ∀ n s, (f n s).mon = s.mon) (s : State) :
    (takeRestart a m f s).mon = s.mon := by
  unfold takeRestart
  dsimp only
  repeat' split
  all_goals simp [h]
@[simp] theorem takeRestart_pie (a : Received → Bool) (m : Received → Received) (f : Nat → State → State)
    (h : ∀ n s, (f n s).pie = s.pie) (s : State) :
    (takeRestart a m f s).pie = s.pie := by
  unfold takeRestart
  dsimp only
  repeat' split
  all_goals simp [h]
@[simp] theorem takeRestart_creel (a : Received → Bool) (m : Received → Received) (f : Nat → State → State)
    (h : ∀ n s, (f n s).creel = s.creel) (s : State) :
    (takeRestart a m f s).creel = s.creel := by
  unfold takeRestart
  dsimp only
  repeat' split
  all_goals simp [h]
@[simp] theorem takeRestart_doff (a : Received → Bool) (m : Received → Received) (f : Nat → State → State)
    (h : ∀ n s, (f n s).doff = s.doff) (s : State) :
    (takeRestart a m f s).doff = s.doff := by
  unfold takeRestart
  dsimp only
  repeat' split
  all_goals simp [h]
@[simp] theorem takeRestart_shift (a : Received → Bool) (m : Received → Received) (f : Nat → State → State)
    (h : ∀ n s, (f n s).shift = s.shift) (s : State) :
    (takeRestart a m f s).shift = s.shift := by
  unfold takeRestart
  dsimp only
  repeat' split
  all_goals simp [h]
@[simp] theorem takeRestart_frame (a : Received → Bool) (m : Received → Received) (f : Nat → State → State)
    (h : ∀ n s, (f n s).frame = s.frame) (s : State) :
    (takeRestart a m f s).frame = s.frame := by
  unfold takeRestart
  dsimp only
  repeat' split
  all_goals simp [h]
@[simp] theorem takeRestart_port (a : Received → Bool) (m : Received → Received) (f : Nat → State → State)
    (h : ∀ n s, (f n s).port = s.port) (s : State) :
    (takeRestart a m f s).port = s.port := by
  unfold takeRestart
  dsimp only
  repeat' split
  all_goals simp [h]
@[simp] theorem takeRestart_draws (a : Received → Bool) (m : Received → Received) (f : Nat → State → State)
    (h : ∀ n s, (f n s).draws = s.draws) (s : State) :
    (takeRestart a m f s).draws = s.draws := by
  unfold takeRestart
  dsimp only
  repeat' split
  all_goals simp [h]
@[simp] theorem takeRestart_pending (a : Received → Bool) (m : Received → Received) (f : Nat → State → State)
    (h : ∀ n s, (f n s).pending = s.pending) (s : State) :
    (takeRestart a m f s).pending = s.pending := by
  unfold takeRestart
  dsimp only
  repeat' split
  all_goals simp [h]
@[simp] theorem restartCreel_frame (s : State) :
    (restartCreel s).del = s.del ∧ (restartCreel s).mon = s.mon ∧ (restartCreel s).pie = s.pie ∧
    (restartCreel s).doff = s.doff ∧ (restartCreel s).shift = s.shift ∧ (restartCreel s).port = s.port ∧
    (restartCreel s).draws = s.draws ∧ (restartCreel s).pending = s.pending :=
  by
  unfold restartCreel
  dsimp only
  repeat' split
  all_goals simp
@[simp] theorem lineRestart_frame (s : State) :
    (lineRestart s).del = s.del ∧ (lineRestart s).port = s.port ∧ (lineRestart s).pending = s.pending :=
  by
  unfold lineRestart
  dsimp only
  all_goals simp

/-! ### The clock -/

@[simp] theorem settleEntry_frame (s : State) :
    (settleEntry s).del = s.del ∧ (settleEntry s).mon = s.mon ∧ (settleEntry s).pie = s.pie ∧
    (settleEntry s).creel = s.creel ∧ (settleEntry s).shift = s.shift ∧ (settleEntry s).line = s.line ∧
    (settleEntry s).frame = s.frame ∧ (settleEntry s).port = s.port ∧ (settleEntry s).draws = s.draws ∧
    (settleEntry s).pending = s.pending :=
  by
  unfold settleEntry
  dsimp only
  all_goals simp
@[simp] theorem takePulse_frame (s : State) :
    (takePulse s).mon = s.mon ∧ (takePulse s).pie = s.pie ∧ (takePulse s).creel = s.creel ∧
    (takePulse s).shift = s.shift ∧ (takePulse s).line = s.line ∧ (takePulse s).frame = s.frame ∧
    (takePulse s).port = s.port ∧ (takePulse s).draws = s.draws ∧ (takePulse s).pending = s.pending :=
  by
  unfold takePulse
  dsimp only
  repeat' split
  all_goals simp
@[simp] theorem runningSecond_frame (s : State) :
    (runningSecond s).del = s.del ∧ (runningSecond s).mon = s.mon ∧ (runningSecond s).creel = s.creel ∧
    (runningSecond s).port = s.port ∧ (runningSecond s).draws = s.draws ∧ (runningSecond s).pending = s.pending :=
  by
  unfold runningSecond
  dsimp only
  all_goals simp
@[simp] theorem takeSecond_frame (s : State) :
    (takeSecond s).mon = s.mon ∧ (takeSecond s).creel = s.creel ∧ (takeSecond s).port = s.port ∧
    (takeSecond s).draws = s.draws ∧ (takeSecond s).pending = s.pending :=
  by
  unfold takeSecond
  dsimp only
  repeat' split
  all_goals simp

/-! ### Resets -/

@[simp] theorem createTables_frame (c : Configuration) (s : State) :
    (createTables c s).del = s.del ∧ (createTables c s).doff = s.doff ∧ (createTables c s).shift = s.shift ∧
    (createTables c s).line = s.line ∧ (createTables c s).frame = s.frame ∧ (createTables c s).port = s.port ∧
    (createTables c s).draws = s.draws ∧ (createTables c s).pending = s.pending :=
  by simp [createTables]
@[simp] theorem configured_frame (c : Configuration) (s : State) :
    (configured c s).del = s.del ∧ (configured c s).doff = s.doff ∧ (configured c s).shift = s.shift ∧
    (configured c s).line = s.line ∧ (configured c s).draws = s.draws ∧ (configured c s).pending = s.pending :=
  by
  unfold configured
  dsimp only
  all_goals simp
@[simp] theorem startBlocks_frame (s : State) :
    (startBlocks s).doff = s.doff ∧ (startBlocks s).port = s.port ∧ (startBlocks s).pending = s.pending :=
  by
  unfold startBlocks
  dsimp only
  all_goals simp
@[simp] theorem resumeSweep_frame (s : State) :
    (resumeSweep s).del = s.del ∧ (resumeSweep s).mon = s.mon ∧ (resumeSweep s).pie = s.pie ∧
    (resumeSweep s).creel = s.creel ∧ (resumeSweep s).doff = s.doff ∧ (resumeSweep s).line = s.line ∧
    (resumeSweep s).frame = s.frame ∧ (resumeSweep s).port = s.port ∧ (resumeSweep s).draws = s.draws ∧
    (resumeSweep s).pending = s.pending :=
  by simp [resumeSweep]
@[simp] theorem started_frame (s : State) :
    (started s).pending = s.pending :=
  by
  unfold started
  dsimp only
  all_goals simp
@[simp] theorem warmCreel_frame (s : State) :
    (warmCreel s).del = s.del ∧ (warmCreel s).mon = s.mon ∧ (warmCreel s).pie = s.pie ∧
    (warmCreel s).doff = s.doff ∧ (warmCreel s).shift = s.shift ∧ (warmCreel s).line = s.line ∧
    (warmCreel s).port = s.port ∧ (warmCreel s).draws = s.draws ∧ (warmCreel s).pending = s.pending :=
  by
  unfold warmCreel
  dsimp only
  all_goals simp
@[simp] theorem warmDoff_frame (s : State) :
    (warmDoff s).del = s.del ∧ (warmDoff s).mon = s.mon ∧ (warmDoff s).pie = s.pie ∧ (warmDoff s).creel = s.creel ∧
    (warmDoff s).shift = s.shift ∧ (warmDoff s).line = s.line ∧ (warmDoff s).port = s.port ∧
    (warmDoff s).draws = s.draws ∧ (warmDoff s).pending = s.pending :=
  by
  unfold warmDoff
  dsimp only
  repeat' split
  all_goals simp
@[simp] theorem completeExecuting_frame (s : State) :
    (completeExecuting s).del = s.del ∧ (completeExecuting s).mon = s.mon ∧ (completeExecuting s).pie = s.pie ∧
    (completeExecuting s).creel = s.creel ∧ (completeExecuting s).doff = s.doff ∧
    (completeExecuting s).shift = s.shift ∧ (completeExecuting s).line = s.line ∧
    (completeExecuting s).frame = s.frame ∧ (completeExecuting s).draws = s.draws ∧
    (completeExecuting s).pending = s.pending :=
  by
  unfold completeExecuting
  repeat' split
  all_goals simp
@[simp] theorem discardSlot_frame (s : State) :
    (discardSlot s).del = s.del ∧ (discardSlot s).mon = s.mon ∧ (discardSlot s).pie = s.pie ∧
    (discardSlot s).creel = s.creel ∧ (discardSlot s).doff = s.doff ∧ (discardSlot s).shift = s.shift ∧
    (discardSlot s).line = s.line ∧ (discardSlot s).frame = s.frame ∧ (discardSlot s).draws = s.draws ∧
    (discardSlot s).pending = s.pending :=
  by
  unfold discardSlot
  dsimp only
  repeat' split
  all_goals simp
@[simp] theorem warmBlocks_frame (s : State) :
    (warmBlocks s).port = s.port ∧ (warmBlocks s).draws = s.draws ∧ (warmBlocks s).pending = s.pending :=
  by
  unfold warmBlocks
  dsimp only
  all_goals simp
@[simp] theorem warmReset_frame (s : State) :
    (warmReset s).draws = s.draws ∧ (warmReset s).pending = s.pending :=
  by
  unfold warmReset
  dsimp only
  all_goals simp

/-! ### Inputs and port -/

@[simp] theorem runActive_frame (s : State) :
    (runActive s).del = s.del ∧ (runActive s).creel = s.creel ∧ (runActive s).doff = s.doff ∧
    (runActive s).port = s.port ∧ (runActive s).pending = s.pending :=
  by
  unfold runActive
  refine ⟨?_, ?_, ?_, ?_, ?_⟩ <;>
    exact foldl_keeps _ _ _ (fun s x => by split <;> simp) s
@[simp] theorem takeRun_frame (a : Bool) (s : State) :
    (takeRun a s).del = s.del ∧ (takeRun a s).creel = s.creel ∧ (takeRun a s).port = s.port ∧
    (takeRun a s).pending = s.pending :=
  by
  unfold takeRun
  dsimp only
  repeat' split
  all_goals simp
@[simp] theorem setLevel_frame (n : Nat) (h : Bool) (s : State) :
    (setLevel n h s).del = s.del ∧ (setLevel n h s).mon = s.mon ∧ (setLevel n h s).pie = s.pie ∧
    (setLevel n h s).creel = s.creel ∧ (setLevel n h s).doff = s.doff ∧ (setLevel n h s).shift = s.shift ∧
    (setLevel n h s).line = s.line ∧ (setLevel n h s).port = s.port ∧ (setLevel n h s).draws = s.draws ∧
    (setLevel n h s).pending = s.pending :=
  by simp [setLevel]
@[simp] theorem takeFault_frame (n : Nat) (h : Bool) (s : State) :
    (takeFault n h s).del = s.del ∧ (takeFault n h s).mon = s.mon ∧ (takeFault n h s).pie = s.pie ∧
    (takeFault n h s).creel = s.creel ∧ (takeFault n h s).doff = s.doff ∧ (takeFault n h s).shift = s.shift ∧
    (takeFault n h s).line = s.line ∧ (takeFault n h s).port = s.port ∧ (takeFault n h s).draws = s.draws ∧
    (takeFault n h s).pending = s.pending :=
  by
  unfold takeFault
  dsimp only
  repeat' split
  all_goals simp
@[simp] theorem latchFault_frame (c : FaultCause) (s : State) :
    (latchFault c s).del = s.del ∧ (latchFault c s).mon = s.mon ∧ (latchFault c s).pie = s.pie ∧
    (latchFault c s).creel = s.creel ∧ (latchFault c s).doff = s.doff ∧ (latchFault c s).shift = s.shift ∧
    (latchFault c s).line = s.line ∧ (latchFault c s).frame = s.frame ∧ (latchFault c s).draws = s.draws ∧
    (latchFault c s).pending = s.pending :=
  by
  unfold latchFault
  dsimp only
  repeat' split
  all_goals simp
@[simp] theorem readResponse_frame (n : Nat) (s : State) :
    (readResponse n s).del = s.del ∧ (readResponse n s).mon = s.mon ∧ (readResponse n s).pie = s.pie ∧
    (readResponse n s).creel = s.creel ∧ (readResponse n s).doff = s.doff ∧ (readResponse n s).shift = s.shift ∧
    (readResponse n s).line = s.line ∧ (readResponse n s).frame = s.frame ∧ (readResponse n s).draws = s.draws ∧
    (readResponse n s).pending = s.pending :=
  by simp [readResponse]
@[simp] theorem readStatus_frame (n : Nat) (s : State) :
    (readStatus n s).del = s.del ∧ (readStatus n s).mon = s.mon ∧ (readStatus n s).pie = s.pie ∧
    (readStatus n s).creel = s.creel ∧ (readStatus n s).doff = s.doff ∧ (readStatus n s).shift = s.shift ∧
    (readStatus n s).line = s.line ∧ (readStatus n s).frame = s.frame ∧ (readStatus n s).draws = s.draws + n ∧
    (readStatus n s).pending = s.pending :=
  by simp [readStatus]

end Sys2Proof.Machine
end

