-- ==== Sys2Proof/Laws/Ops.lean ====
section
/-! SUPPORT. One lemma per shared operation that says once what it can do: the shape of an answer, the host rows and responses,
alerts, the outgoing queue, the hand-over of a telegram, booking and moving a record. -/

namespace Sys2Proof.Machine

/-! ### The shape of an answer -/

/-- A powered event answers its next state. -/
theorem powered_high {s : State} (h : s.frame.resetLow = false) (s' : State) : powered s s' = .next s' := by
  simp [powered, h]

/-- While RESET_N is low nothing happens. -/
theorem powered_low {s : State} (h : s.frame.resetLow = true) (s' : State) : powered s s' = .next s := by
  simp [powered, h]

/-- An event of a part at work occurs. -/
theorem inRunning_works {s : State} (h : s.works) (s' : State) : inRunning s s' = .next s' := by
  simp [inRunning, powered, h.1, State.running, h.2]

/-- An event of RUNNING does not occur in INIT or READY. -/
theorem inRunning_idle {s : State} (h : s.port.part ≠ .running) (s' : State) : inRunning s s' = .next s := by
  simp [inRunning, powered, State.running, h]

theorem State.works.running {s : State} (h : s.works) : s.running = true := by simp [State.running, h.2]

/-! ### Responses and host rows (R181, R182) -/

theorem respond_eq (k tag : Nat) (r : Result) (body : List Byte) (s : State) :
    respond k tag r false body s = { s with port := s.port.completed k tag r body } := rfl

@[simp] theorem finish_done (k tag : Nat) (s : State) :
    finish k tag (Effect.done s) = { s with port := s.port.completed k tag .done [] } := rfl

@[simp] theorem finish_refuse (k tag : Nat) (r : Result) (s : State) :
    finish k tag (Effect.refuse r s) = { s with port := s.port.completed k tag r [] } := rfl

@[simp] theorem finish_report (k tag : Nat) (body : List Byte) (s : State) :
    finish k tag (Effect.report body s) = { s with port := s.port.completed k tag .done body } := rfl

/-- With the port open a host row executes its command. -/
theorem hostRow_open {s : State} (h : s.portOpen) (c : Command) (tag : Nat) :
    hostRow c tag s = .next (finish (commandKind c) tag (perform c tag s)) := by
  simp [hostRow, powered, h.1, h.2.1, leaveSlot, h.2.2, runCommand]

/-- While a command executes a host row does nothing. -/
theorem hostRow_executing {s : State} (h : s.port.executing.isSome = true) (c : Command) (tag : Nat) :
    hostRow c tag s = .next s := by
  simp [hostRow, powered, h]

theorem whileRunning_works {s : State} (h : s.running = true) (e : Effect) : whileRunning s e = e := by
  simp [whileRunning, h]

theorem whileRunning_idle {s : State} (h : s.running = false) (e : Effect) :
    whileRunning s e = Effect.refuse .notRunning s := by
  simp [whileRunning, h]

/-! ### Transactions (R189) -/

@[simp] theorem transactionOf_one : transactionOf 1#8 = .commandWrite := rfl
@[simp] theorem transactionOf_two : transactionOf 2#8 = .responseRead := rfl
theorem transactionOf_other {b : Byte} (h1 : b ≠ 1#8) (h2 : b ≠ 2#8) : transactionOf b = .statusRead := by
  simp [transactionOf, h1, h2]

/-- A status read changes what was returned and nothing else of the port. -/
theorem readStatus_port (n : Nat) (s : State) :
    (readStatus n s).port = { s.port with returned := (readStatus n s).port.returned } ∧
    (readStatus n s).port.returned.head? = some (statusByte s) ∧ (readStatus n s).port.returned.length = n + 1 := by
  simp [readStatus]

/-! ### The bits of a transmission (R161, R165) -/

@[simp] theorem byteBits_length (b : Byte) : (byteBits b).length = 10 := by simp [byteBits]

@[simp] theorem wireBits_length (bs : List Byte) : (wireBits bs).length = 10 * bs.length := by
  induction bs with
  | nil => rfl
  | cons b bs ih =>
    rw [show wireBits (b :: bs) = byteBits b ++ wireBits bs from rfl, List.length_append, ih, byteBits_length,
      List.length_cons]
    omega

/-- The idle count at a lost bit: 0 where it is read back dominant, and one more recessive sample where it is read back
recessive. -/
theorem idleAtLoss_eq (idle : Nat) (bits : List Bool) (n : Nat) (driven : Bool) :
    idleAtLoss idle bits n driven = if driven then 0 else addCapped Config.max8 (countIdle idle (bits.take n)) 1 := by
  cases driven <;> simp [idleAtLoss, countIdle]

/-! ### Lists -/

@[simp] theorem modifyLast_append {α : Type} (f : α → α) (l : List α) (x : α) : modifyLast f (l ++ [x]) = l ++ [f x] := by
  induction l with
  | nil => rfl
  | cons y l ih =>
    cases l with
    | nil => rfl
    | cons z l => simpa [modifyLast] using ih

@[simp] theorem length_modifyLast {α : Type} (f : α → α) (l : List α) : (modifyLast f l).length = l.length := by
  induction l with
  | nil => rfl
  | cons y l ih =>
    cases l with
    | nil => rfl
    | cons z l => simpa [modifyLast] using ih

end Sys2Proof.Machine
end

