-- ==== Sys2Proof/Laws/Tables.lean ====
section
/-! SUPPORT. Sound tables are kept: one lemma per operation over the spindle table, the queues and the tables' sizes. -/

namespace Sys2Proof.Machine

/-! ### Records -/

theorem sp_eq_blank {s : State} {i : Nat} (h : s.hasSpindle i = false) : s.sp i = Spindle.blank := by
  cases i with
  | zero => rfl
  | succ i =>
    have : s.mon.spindles.length ≤ i := by simpa [State.hasSpindle] using h
    simp [State.sp, nth, List.getD, this]

theorem hasSpindle_of_state {s : State} {i : Nat} (h : (s.sp i).state ≠ .unseen) : s.hasSpindle i = true := by
  by_contra hc
  exact h (by rw [sp_eq_blank (by simpa using hc)]; rfl)

theorem hasSpindle_of_class {s : State} {i : Nat} (h : (s.sp i).lastClass ≠ .none) : s.hasSpindle i = true := by
  by_contra hc
  exact h (by rw [sp_eq_blank (by simpa using hc)]; rfl)

theorem sp_mem {s : State} {i : Nat} (h : s.hasSpindle i = true) : s.sp i ∈ s.mon.spindles := by
  cases i with
  | zero => simp [State.hasSpindle] at h
  | succ i =>
    have : i < s.mon.spindles.length := by
      have := h
      simp [State.hasSpindle] at this
      omega
    simp [State.sp, nth, List.getD, this]

theorem setSp_of_not {s : State} {i : Nat} (h : s.hasSpindle i = false) (r : Spindle) : setSp i r s = s := by
  cases i with
  | zero => rfl
  | succ i =>
    have : s.mon.spindles.length ≤ i := by simpa [State.hasSpindle] using h
    simp [setSp, setNth, List.set_eq_of_length_le this]

/-- What sound tables depend on. -/
structure SameTables (s t : State) : Prop where
  spindles : t.mon.spindles = s.mon.spindles
  strips   : t.mon.strips.length = s.mon.strips.length
  flag     : t.mon.aboveLimit = s.mon.aboveLimit
  sections : t.creel.sections.length = s.creel.sections.length
  queue    : ∀ x, (t.side x).queue.map QueueEntry.index = (s.side x).queue.map QueueEntry.index
  waiting  : ∀ x, (t.side x).waiting = (s.side x).waiting
  config   : t.port.config = s.port.config

theorem SameTables.cfg {s t : State} (h : SameTables s t) : t.cfg = s.cfg := by simp [State.cfg, h.config]
theorem SameTables.sp {s t : State} (h : SameTables s t) (i : Nat) : t.sp i = s.sp i := by simp [State.sp, h.spindles]
theorem SameTables.has {s t : State} (h : SameTables s t) (i : Nat) : t.hasSpindle i = s.hasSpindle i := by
  simp [State.hasSpindle, h.spindles]
theorem SameTables.sideOf {s t : State} (h : SameTables s t) (i : Nat) : t.sideOf i = s.sideOf i := by
  simp [State.sideOf, h.cfg]

theorem SameTables.tabled {s t : State} (h : SameTables s t) (hs : s.tabled) : t.tabled := by
  obtain ⟨h1, h2, h3, h4⟩ := hs
  refine ⟨?_, ?_, ?_, ?_⟩
  · unfold State.sized at h1 ⊢
    have hl := congrArg List.length h.spindles
    rw [h.config]
    cases hc : s.port.config with
    | none =>
      rw [hc] at h1
      refine ⟨by rw [h.spindles]; exact h1.1, ?_, ?_⟩
      · exact List.length_eq_zero_iff.1 (by rw [h.strips, h1.2.1]; rfl)
      · exact List.length_eq_zero_iff.1 (by rw [h.sections, h1.2.2]; rfl)
    | some c => rw [hc] at h1; exact ⟨by rw [hl]; exact h1.1, by rw [h.strips]; exact h1.2.1, by rw [h.sections]; exact h1.2.2⟩
  · rw [h.spindles]; exact h2
  · intro x
    obtain ⟨a, b, c, d, e⟩ := h3 x
    have hq := congrArg List.length (h.queue x)
    simp only [List.length_map] at hq
    refine ⟨by rw [h.queue]; exact a, by rw [hq]; exact b, by rw [h.waiting]; exact c, ?_, ?_⟩
    · intro i; rw [h.queue, h.has, h.sideOf, h.sp]; exact d i
    · intro i; rw [h.waiting, h.has, h.sideOf, h.sp]; exact e i
  · simp only [State.endsDown, h.flag, h.cfg, h.spindles]; exact h4

/-- Equal blocks give equal tables. -/
theorem tabled_of_blocks {s t : State} (hm : t.mon = s.mon) (hp : t.pie = s.pie) (hc : t.creel = s.creel)
    (ho : t.port = s.port) (hs : s.tabled) : t.tabled :=
  SameTables.tabled
    { spindles := by rw [hm], strips := by rw [hm], flag := by rw [hm], sections := by rw [hc]
      queue := by intro x; cases x <;> simp [State.side, hp]
      waiting := by intro x; cases x <;> simp [State.side, hp]
      config := by rw [ho] } hs

/-! ### Writing a record without changing its state -/

theorem countP_setNth {p : Spindle → Bool} (l : List Spindle) (i : Nat) (r : Spindle)
    (h : p r = p (nth Spindle.blank l i)) : (setNth l i r).countP p = l.countP p := by
  cases i with
  | zero => rfl
  | succ i =>
    induction l generalizing i with
    | nil => simp [setNth]
    | cons a l ih =>
      cases i with
      | zero => simp [setNth, nth] at h ⊢; simp [List.countP_cons, h]
      | succ i =>
        have := ih i (by simpa [nth] using h)
        simp [setNth, List.countP_cons] at this ⊢
        omega

theorem tabled_setSp {s : State} (hs : s.tabled) (i : Nat) (r : Spindle) (h1 : r.state = (s.sp i).state)
    (h2 : s.hasSpindle i = true → r.sound) : (setSp i r s).tabled := by
  cases hi : s.hasSpindle i with
  | false => rw [setSp_of_not hi]; exact hs
  | true =>
    have hr := h2 hi
    have hi' : 1 ≤ i ∧ i ≤ s.mon.spindles.length := by simpa [State.hasSpindle] using hi
    have hst : ∀ j, ((setSp i r s).sp j).state = (s.sp j).state := by
      intro j
      by_cases hj : i = j
      · subst hj; rw [sp_setSp_self _ _ _ hi'.1 hi'.2, h1]
      · rw [sp_setSp_ne _ _ _ _ hj]
    obtain ⟨a1, a2, a3, a4⟩ := hs
    refine ⟨?_, ?_, ?_, ?_⟩
    · unfold State.sized at a1 ⊢
      cases hc : s.port.config with
      | none => rw [hc] at a1; rw [a1.1] at hi'; simp at hi'; omega
      | some c => simp [hc] at a1 ⊢; exact a1
    · intro q hq
      obtain ⟨n, rfl⟩ : ∃ n, i = n + 1 := ⟨i - 1, by omega⟩
      have : q ∈ s.mon.spindles.set n r := hq
      rcases List.mem_or_eq_of_mem_set this with h | h
      · exact a2 q h
      · rw [h]; exact hr
    · intro x
      obtain ⟨b1, b2, b3, b4, b5⟩ := a3 x
      have e : (setSp i r s).side x = s.side x := by cases x <;> rfl
      have hh : ∀ j, (setSp i r s).hasSpindle j = s.hasSpindle j := by intro j; simp [State.hasSpindle]
      refine ⟨by rw [e]; exact b1, by rw [e]; exact b2, by rw [e]; exact b3, ?_, ?_⟩
      · intro j; rw [e, hh, hst]; exact b4 j
      · intro j; rw [e, hh, hst]; exact b5 j
    · have : (setSp i r s).endsDown = s.endsDown :=
        countP_setNth (p := fun r => r.state.counts) _ _ _ (by simp [h1, State.sp])
      rw [this]; exact a4

theorem tabled_modifySp {s : State} (hs : s.tabled) (i : Nat) (f : Spindle → Spindle)
    (h : ∀ r, (f r).state = r.state ∧ (f r).cause = r.cause ∧ (f r).bookedTo.isNone = r.bookedTo.isNone ∧
      (f r).downSince.isSome = r.downSince.isSome) : (modifySp i f s).tabled := by
  refine tabled_setSp hs i _ (h _).1 fun hi => ?_
  obtain ⟨a, b, c⟩ := hs.2.1 _ (sp_mem hi)
  obtain ⟨w, x, y, z⟩ := h (s.sp i)
  exact ⟨by rw [x, w]; exact a, by rw [y, w]; exact b, by rw [z, w]; exact c⟩

/-! ### Booking and moving a record -/

theorem lose_fields (c : Option Cause) (n : Nat) (r : Spindle) :
    (r.lose c n).state = r.state ∧ (r.lose c n).cause = r.cause ∧ (r.lose c n).bookedTo = r.bookedTo ∧
    (r.lose c n).downSince = r.downSince := by
  unfold Spindle.lose
  split <;> simp

theorem tabled_closeStep {s : State} (hs : s.tabled) (i : Nat) (cl : Closing) : (closeStep i cl s).tabled := by
  have key : ∀ p tag, (setSp i ((s.sp i).closed p tag).2 s).tabled := by
    intro p tag
    refine tabled_setSp hs i _ ?_ fun hi => ?_
    · unfold Spindle.closed; repeat' split
      all_goals simp [lose_fields]
    · obtain ⟨a, b, c⟩ := hs.2.1 _ (sp_mem hi)
      unfold Spindle.closed
      repeat' split
      all_goals refine ⟨?_, ?_, ?_⟩ <;> simp_all [lose_fields]
  exact tabled_of_blocks (s := setSp i _ s) rfl rfl rfl rfl (key _ _)

theorem tabled_touch {s : State} (hs : s.tabled) (i : Nat) : (touch i s).tabled := by
  unfold touch
  split
  · split
    · exact hs
    · exact tabled_closeStep hs i _
  · exact hs

theorem tabled_bookOpen {s : State} (hs : s.tabled) (i : Nat) : (bookOpen i s).tabled := by
  unfold bookOpen
  dsimp only
  split
  · exact hs
  · rename_i b hb
    refine tabled_of_blocks (s := setSp i _ s) rfl rfl rfl rfl (tabled_setSp hs i _ (by simp [lose_fields]) fun hi => ?_)
    obtain ⟨a, b', c⟩ := hs.2.1 _ (sp_mem hi)
    refine ⟨?_, ?_, ?_⟩
    · simp [lose_fields, a]
    · simp [lose_fields, ← b', hb]
    · simp [lose_fields, c]

theorem tabled_book {s : State} (hs : s.tabled) (i : Nat) : (book i s).tabled := by
  unfold book
  split
  · exact tabled_bookOpen (tabled_touch hs i) i
  · exact hs

theorem moved_state (st : SpState) (now p : Nat) (r : Spindle) : (r.moved st now p).state = st := by
  unfold Spindle.moved
  cases st <;> simp <;> split <;> rfl

theorem moved_cause (st : SpState) (now p : Nat) (r : Spindle) : (r.moved st now p).cause = st.cause := by
  unfold Spindle.moved
  cases st <;> simp <;> split <;> rfl

theorem moved_bookedTo (st : SpState) (now p : Nat) (r : Spindle) :
    (r.moved st now p).bookedTo =
      if st = .up then none else if st.isDown ∧ r.state.isDown then r.bookedTo else some p := by
  unfold Spindle.moved
  cases st <;> simp [SpState.isDown, SpState.cause] <;> cases r.state <;> rfl

theorem moved_downSince (st : SpState) (now p : Nat) (r : Spindle) :
    (r.moved st now p).downSince =
      if st.isDown then (if r.state.isDown then r.downSince else some now) else none := by
  unfold Spindle.moved
  cases st <;> simp [SpState.isDown, SpState.cause] <;> cases r.state <;> rfl

theorem moved_sound {r : Spindle} (h : r.sound) (st : SpState) (now p : Nat) : (r.moved st now p).sound := by
  obtain ⟨-, b, c⟩ := h
  refine ⟨by rw [moved_cause, moved_state], ?_, ?_⟩
  · rw [moved_bookedTo, moved_state]
    split
    · rename_i h; simp [h]
    · rename_i h
      split
      · rename_i h'
        rw [b]
        have : r.state ≠ .up := by intro e; rw [e] at h'; simp [SpState.isDown, SpState.cause] at h'
        simp [h, this]
      · simp [h]
  · rw [moved_downSince, moved_state]
    split
    · rename_i h
      split
      · rename_i h'; rw [c, h, h']
      · simp [h]
    · rename_i h; simpa using h

/-- A close step keeps a record's state, and keeps booked-to present or absent (R153). -/
theorem touch_kept (i j : Nat) (s : State) :
    ((touch i s).sp j).state = (s.sp j).state ∧ ((touch i s).sp j).bookedTo.isSome = (s.sp j).bookedTo.isSome := by
  unfold touch
  split
  · split
    · exact ⟨rfl, rfl⟩
    · unfold closeStep
      dsimp only
      show ((setSp i _ s).sp j).state = _ ∧ ((setSp i _ s).sp j).bookedTo.isSome = _
      cases hi : s.hasSpindle i with
      | false => rw [setSp_of_not hi]; exact ⟨rfl, rfl⟩
      | true =>
        have hi' : 1 ≤ i ∧ i ≤ s.mon.spindles.length := by simpa [State.hasSpindle] using hi
        by_cases hj : i = j
        · subst hj
          rw [sp_setSp_self _ _ _ hi'.1 hi'.2]
          unfold Spindle.closed
          repeat' split
          all_goals simp_all [lose_fields]
        · rw [sp_setSp_ne _ _ _ _ hj]; exact ⟨rfl, rfl⟩
  · exact ⟨rfl, rfl⟩
theorem touch_state (i j : Nat) (s : State) : ((touch i s).sp j).state = (s.sp j).state := (touch_kept i j s).1
theorem touch_booked (i j : Nat) (s : State) : ((touch i s).sp j).bookedTo.isSome = (s.sp j).bookedTo.isSome :=
  (touch_kept i j s).2

theorem bookOpen_state (i j : Nat) (s : State) : ((bookOpen i s).sp j).state = (s.sp j).state := by
  unfold bookOpen
  dsimp only
  split
  · rfl
  · rename_i b hb
    show ((setSp i _ s).sp j).state = _
    cases hi : s.hasSpindle i with
    | false => rw [setSp_of_not hi]
    | true =>
      have hi' : 1 ≤ i ∧ i ≤ s.mon.spindles.length := by simpa [State.hasSpindle] using hi
      by_cases hj : i = j
      · subst hj; rw [sp_setSp_self _ _ _ hi'.1 hi'.2]; simp [lose_fields]
      · rw [sp_setSp_ne _ _ _ _ hj]
theorem book_state (i j : Nat) (s : State) : ((book i s).sp j).state = (s.sp j).state := by
  unfold book
  split
  · exact (bookOpen_state i j _).trans (touch_state i j s)
  · rfl

theorem insertEntry_map (e : QueueEntry) (l : List QueueEntry) (j : Nat) :
    j ∈ (insertEntry e l).map QueueEntry.index ↔ j = e.index ∨ j ∈ l.map QueueEntry.index := by
  induction l with
  | nil => simp [insertEntry]
  | cons q l ih =>
    unfold insertEntry
    split
    · simp
    · simp only [List.map_cons, List.mem_cons, ih]; tauto

theorem insertEntry_length (e : QueueEntry) (l : List QueueEntry) : (insertEntry e l).length = l.length + 1 := by
  induction l with
  | nil => rfl
  | cons q l ih => unfold insertEntry; split <;> simp [ih]

theorem insertEntry_sorted (e : QueueEntry) (l : List QueueEntry)
    (h : (l.map QueueEntry.index).Pairwise (· < ·)) (hn : e.index ∉ l.map QueueEntry.index) :
    ((insertEntry e l).map QueueEntry.index).Pairwise (· < ·) := by
  induction l with
  | nil => simp [insertEntry]
  | cons q l ih =>
    simp only [List.map_cons, List.pairwise_cons] at h
    simp only [List.map_cons, List.mem_cons, not_or] at hn
    unfold insertEntry
    split
    · rename_i hlt
      simp only [List.map_cons, List.pairwise_cons]
      refine ⟨?_, h⟩
      intro a ha
      rcases List.mem_cons.1 ha with rfl | ha
      · exact hlt
      · exact lt_trans hlt (h.1 a ha)
    · simp only [List.map_cons, List.pairwise_cons]
      refine ⟨?_, ih h.2 hn.2⟩
      intro a ha
      rcases (insertEntry_map e l a).1 ha with rfl | ha
      · omega
      · exact h.1 a ha

theorem insertWaiting_mem (s : State) (i : Nat) (l : List Nat) (j : Nat) :
    j ∈ insertWaiting s i l ↔ j = i ∨ j ∈ l := by
  induction l with
  | nil => simp [insertWaiting]
  | cons q l ih =>
    unfold insertWaiting
    split
    · simp
    · simp only [List.mem_cons, ih]; tauto

theorem insertWaiting_nodup (s : State) (i : Nat) (l : List Nat) (h : l.Nodup) (hn : i ∉ l) :
    (insertWaiting s i l).Nodup := by
  induction l with
  | nil => simp [insertWaiting]
  | cons q l ih =>
    simp only [List.nodup_cons, List.mem_cons, not_or] at h hn
    unfold insertWaiting
    split
    · exact List.nodup_cons.2 ⟨by simp [hn], List.nodup_cons.2 h⟩
    · refine List.nodup_cons.2 ⟨?_, ih h.2 hn.2⟩
      rw [insertWaiting_mem]
      rintro (h' | h')
      · exact hn.1 h'.symm
      · exact h.1 h'

/-- The tables' soundness without the ends-down flag, and with one record's state about to be told to its queue. -/
theorem queued_requeue {s : State} (i : Nat) (old new : SpState) (x : Side)
    (hi : s.hasSpindle i = true) (hnew : (s.sp i).state = new)
    (hq : ((s.side x).queue.map QueueEntry.index).Pairwise (· < ·))
    (hl : (s.side x).queue.length ≤ Config.queueCapacity) (hw : (s.side x).waiting.Nodup)
    (hcap : new = .queued → old = .queued ∨ (s.side (s.sideOf i)).queue.length < Config.queueCapacity)
    (mq : ∀ j, j ∈ (s.side x).queue.map QueueEntry.index ↔
      s.hasSpindle j = true ∧ s.sideOf j = x ∧ (if j = i then old else (s.sp j).state) = .queued)
    (mw : ∀ j, j ∈ (s.side x).waiting ↔
      s.hasSpindle j = true ∧ s.sideOf j = x ∧ (if j = i then old else (s.sp j).state) = .waiting) :
    (requeue i old new s).queued x := by
  have hsp : ∀ j, (requeue i old new s).sp j = s.sp j := fun j => sp_of_mon (by simp) j
  have hsd : ∀ j, (requeue i old new s).sideOf j = s.sideOf j := fun j => by
    simp only [State.sideOf, cfg_of_port (s := s) (t := requeue i old new s) (by simp)]
  have hhs : ∀ j, (requeue i old new s).hasSpindle j = s.hasSpindle j := fun j => by simp [State.hasSpindle]
  by_cases hx : s.sideOf i = x
  · subst hx
    have hside : ((requeue i old new s).side (s.sideOf i)) = _ := side_setSide _ _ _
    unfold State.queued
    rw [hside]
    dsimp only
    set q0 := (s.side (s.sideOf i)).queue with hq0
    set q1 := (if old = .queued then q0.filter (fun e => e.index != i) else q0) with hq1
    have hq1s : (q1.map QueueEntry.index).Pairwise (· < ·) := by
      rw [hq1]; split
      · exact List.Pairwise.sublist ((List.filter_sublist).map _) hq
      · exact hq
    have hq1m : ∀ j, j ∈ q1.map QueueEntry.index ↔
        j ≠ i ∧ s.hasSpindle j = true ∧ s.sideOf j = s.sideOf i ∧ (s.sp j).state = .queued := by
      intro j
      have hmj := mq j
      rw [hq1]
      split
      · rename_i ho
        have : j ∈ (q0.filter (fun e => e.index != i)).map QueueEntry.index ↔ j ≠ i ∧ j ∈ q0.map QueueEntry.index := by
          simp only [List.mem_map, List.mem_filter, bne_iff_ne, ne_eq]
          constructor
          · rintro ⟨e, ⟨he, hne⟩, rfl⟩; exact ⟨hne, e, he, rfl⟩
          · rintro ⟨hne, e, he, rfl⟩; exact ⟨e, ⟨he, hne⟩, rfl⟩
        rw [this, hmj]
        constructor
        · rintro ⟨h0, h1, h2, h3⟩; rw [if_neg h0] at h3; exact ⟨h0, h1, h2, h3⟩
        · rintro ⟨h0, h1, h2, h3⟩; refine ⟨h0, h1, h2, ?_⟩; rw [if_neg h0]; exact h3
      · rename_i ho
        rw [hmj]
        constructor
        · rintro ⟨h1, h2, h3⟩
          by_cases h0 : j = i
          · rw [if_pos h0] at h3; exact absurd h3 ho
          · rw [if_neg h0] at h3; exact ⟨h0, h1, h2, h3⟩
        · rintro ⟨h0, h1, h2, h3⟩; rw [if_neg h0]; exact ⟨h1, h2, h3⟩
    have hq1l : q1.length ≤ Config.queueCapacity ∧ (new = .queued → q1.length < Config.queueCapacity) := by
      constructor
      · rw [hq1]; split
        · exact le_trans (List.length_filter_le _ _) hl
        · exact hl
      · intro hn
        rcases hcap hn with ho | hc
        · rw [hq1, if_pos ho]
          have hmem : i ∈ q0.map QueueEntry.index := (mq i).2 ⟨hi, rfl, by simp [ho]⟩
          obtain ⟨e, he, hei⟩ := List.mem_map.1 hmem
          refine lt_of_lt_of_le ?_ hl
          exact List.length_filter_lt_length_iff_exists.2 ⟨e, he, by simp [hei]⟩
        · rw [hq1]; split
          · exact lt_of_le_of_lt (List.length_filter_le _ _) hc
          · exact hc
    set w0 := (s.side (s.sideOf i)).waiting with hw0
    set w1 := (if old = .waiting then w0.filter (fun j => j != i) else w0) with hw1
    have hw1n : w1.Nodup := by rw [hw1]; split; exact hw.filter _; exact hw
    have hw1m : ∀ j, j ∈ w1 ↔ j ≠ i ∧ s.hasSpindle j = true ∧ s.sideOf j = s.sideOf i ∧ (s.sp j).state = .waiting := by
      intro j
      have hmj := mw j
      rw [hw1]
      split
      · simp only [List.mem_filter, bne_iff_ne, ne_eq, hmj]
        constructor
        · rintro ⟨⟨h1, h2, h3⟩, h0⟩; rw [if_neg h0] at h3; exact ⟨h0, h1, h2, h3⟩
        · rintro ⟨h0, h1, h2, h3⟩; refine ⟨⟨h1, h2, ?_⟩, h0⟩; rw [if_neg h0]; exact h3
      · rename_i ho
        rw [hmj]
        constructor
        · rintro ⟨h1, h2, h3⟩
          by_cases h0 : j = i
          · rw [if_pos h0] at h3; exact absurd h3 ho
          · rw [if_neg h0] at h3; exact ⟨h0, h1, h2, h3⟩
        · rintro ⟨h0, h1, h2, h3⟩; rw [if_neg h0]; exact ⟨h1, h2, h3⟩
    have hin : i ∉ q1.map QueueEntry.index := fun h => ((hq1m i).1 h).1 rfl
    have hiw : i ∉ w1 := fun h => ((hw1m i).1 h).1 rfl
    refine ⟨?_, ?_, ?_, ?_, ?_⟩
    · split
      · exact insertEntry_sorted _ _ hq1s hin
      · exact hq1s
    · split
      · rename_i hn; rw [insertEntry_length]; exact hq1l.2 hn
      · exact hq1l.1
    · split
      · exact insertWaiting_nodup _ _ _ hw1n hiw
      · exact hw1n
    · intro j
      rw [hhs, hsd, hsp]
      split
      · rename_i hn
        rw [insertEntry_map, hq1m]
        constructor
        · rintro (rfl | ⟨_, h⟩)
          · exact ⟨hi, rfl, by rw [hnew, hn]⟩
          · exact h
        · intro h
          by_cases h0 : j = i
          · exact Or.inl h0
          · exact Or.inr ⟨h0, h⟩
      · rename_i hn
        rw [hq1m]
        constructor
        · exact fun h => h.2
        · intro h
          refine ⟨?_, h⟩
          rintro rfl
          exact hn (hnew.symm.trans h.2.2)
    · intro j
      rw [hhs, hsd, hsp]
      split
      · rename_i hn
        rw [insertWaiting_mem, hw1m]
        constructor
        · rintro (rfl | ⟨_, h⟩)
          · exact ⟨hi, rfl, by rw [hnew, hn]⟩
          · exact h
        · intro h
          by_cases h0 : j = i
          · exact Or.inl h0
          · exact Or.inr ⟨h0, h⟩
      · rename_i hn
        rw [hw1m]
        constructor
        · exact fun h => h.2
        · intro h
          refine ⟨?_, h⟩
          rintro rfl
          exact hn (hnew.symm.trans h.2.2)
  · have hside : (requeue i old new s).side x = s.side x := by
      unfold requeue
      cases hc : s.sideOf i <;> cases x <;> simp_all
    refine ⟨by rw [hside]; exact hq, by rw [hside]; exact hl, by rw [hside]; exact hw, ?_, ?_⟩
    · intro j
      rw [hside, hhs, hsd, hsp, mq]
      constructor
      · rintro ⟨h1, h2, h3⟩
        by_cases h0 : j = i
        · exact absurd (h0 ▸ h2) hx
        · rw [if_neg h0] at h3; exact ⟨h1, h2, h3⟩
      · rintro ⟨h1, h2, h3⟩
        have h0 : j ≠ i := fun h0 => hx (h0 ▸ h2)
        rw [if_neg h0]; exact ⟨h1, h2, h3⟩
    · intro j
      rw [hside, hhs, hsd, hsp, mw]
      constructor
      · rintro ⟨h1, h2, h3⟩
        by_cases h0 : j = i
        · exact absurd (h0 ▸ h2) hx
        · rw [if_neg h0] at h3; exact ⟨h1, h2, h3⟩
      · rintro ⟨h1, h2, h3⟩
        have h0 : j ≠ i := fun h0 => hx (h0 ▸ h2)
        rw [if_neg h0]; exact ⟨h1, h2, h3⟩

theorem endsDownCheck_flag (s : State) :
    (endsDownCheck s).mon.aboveLimit = decide (s.cfg.endsDownLimit < s.endsDown) ∧
    (endsDownCheck s).mon.spindles = s.mon.spindles ∧ (endsDownCheck s).mon.strips = s.mon.strips := by
  unfold endsDownCheck
  split
  · rename_i h
    split
    · rename_i h'; simp [h, h']
    · simp [h]
  · rename_i h; simp [h]

theorem tabled_endsDownCheck {s : State} (h1 : s.sized) (h2 : ∀ r ∈ s.mon.spindles, r.sound)
    (h3 : ∀ x, s.queued x) : (endsDownCheck s).tabled := by
  obtain ⟨f1, f2, f3⟩ := endsDownCheck_flag s
  have hc : (endsDownCheck s).cfg = s.cfg := cfg_of_port (by simp)
  have hsp : ∀ j, (endsDownCheck s).sp j = s.sp j := fun j => by simp [State.sp, f2]
  have hh : ∀ j, (endsDownCheck s).hasSpindle j = s.hasSpindle j := fun j => by simp [State.hasSpindle, f2]
  have hsd : ∀ x, (endsDownCheck s).side x = s.side x := fun x => by cases x <;> simp [State.side]
  have hso : ∀ j, (endsDownCheck s).sideOf j = s.sideOf j := fun j => by simp only [State.sideOf, hc]
  refine ⟨?_, by rw [f2]; exact h2, ?_, ?_⟩
  · unfold State.sized at h1 ⊢
    simpa [f2, f3] using h1
  · intro x
    simp only [State.queued, hsd, hh, hso, hsp]
    exact h3 x
  · have e : (endsDownCheck s).endsDown = s.endsDown := by simp only [State.endsDown, f2]
    rw [f1, hc, e]

/-- Record `i` is named by no queue and no waiting set that `enter` is about to change wrongly: what moving it to `st` asks. -/
def State.mayEnter (s : State) (i : Nat) (st : SpState) : Prop :=
  (st = .queued ∨ st = .waiting → s.hasSpindle i = true) ∧
  (st = .queued → (s.sp i).state = .queued ∨ (s.side (s.sideOf i)).queue.length < Config.queueCapacity)

theorem setSide_side (x : Side) (s : State) : setSide x (s.side x) s = s := by cases x <;> rfl

theorem tabled_enter {s : State} (hs : s.tabled) (i : Nat) (st : SpState) (h : s.mayEnter i st) :
    (enter i st s).tabled := by
  have ht := tabled_touch hs i
  have hts := touch_state i i s
  have hmay : (touch i s).mayEnter i st := by
    refine ⟨?_, ?_⟩
    · intro hq
      have := h.1 hq
      have e : (touch i s).mon.spindles.length = s.mon.spindles.length := by
        unfold touch; split
        · split
          · rfl
          · simp [closeStep]
        · rfl
      simpa [State.hasSpindle, e] using this
    · intro hq
      rw [hts]
      have e : (touch i s).side ((touch i s).sideOf i) = s.side (s.sideOf i) := by
        have e1 : (touch i s).sideOf i = s.sideOf i := by
          simp only [State.sideOf, cfg_of_port (s := s) (t := touch i s) (by simp)]
        rw [e1]
        cases s.sideOf i <;> simp [State.side]
      rw [e]; exact h.2 hq
  unfold enter
  dsimp only
  generalize touch i s = s1 at ht hmay
  obtain ⟨a1, a2, a3, a4⟩ := ht
  cases hi : s1.hasSpindle i with
  | false =>
    have hq : ¬ (st = .queued ∨ st = .waiting) := fun e => by rw [hmay.1 e] at hi; cases hi
    rw [setSp_of_not hi, sp_eq_blank hi]
    have hreq : requeue i Spindle.blank.state st s1 = s1 := by
      have hq1 : st ≠ .queued := fun e => hq (Or.inl e)
      have hq2 : st ≠ .waiting := fun e => hq (Or.inr e)
      unfold requeue
      simp only [Spindle.blank, hq1, hq2, if_false, reduceCtorEq]
      exact setSide_side _ _
    rw [hreq]
    split
    · exact ⟨a1, a2, a3, a4⟩
    · exact tabled_endsDownCheck a1 a2 a3
  | true =>
    have hi' : 1 ≤ i ∧ i ≤ s1.mon.spindles.length := by simpa [State.hasSpindle] using hi
    set r := s1.sp i with hr
    set m := r.moved st s1.now s1.count with hm
    set s2 := setSp i m s1 with hs2
    have hsp2 : ∀ j, s2.sp j = if j = i then m else s1.sp j := by
      intro j
      by_cases hj : j = i
      · subst hj; rw [if_pos rfl]; exact sp_setSp_self _ _ _ hi'.1 hi'.2
      · rw [if_neg hj]; exact sp_setSp_ne _ _ _ _ (Ne.symm hj)
    have hh2 : ∀ j, s2.hasSpindle j = s1.hasSpindle j := by intro j; simp [State.hasSpindle, hs2]
    have hsd2 : ∀ x, s2.side x = s1.side x := by intro x; cases x <;> rfl
    have hso2 : ∀ j, s2.sideOf j = s1.sideOf j := fun j => rfl
    have b1 : s2.sized := by
      unfold State.sized at a1 ⊢
      cases hc : s1.port.config with
      | none => rw [hc] at a1; rw [a1.1] at hi'; simp at hi'; omega
      | some c => rw [hc] at a1; simp [hs2, hc]; exact a1
    have b2 : ∀ q ∈ s2.mon.spindles, q.sound := by
      intro q hq
      obtain ⟨n, rfl⟩ : ∃ n, i = n + 1 := ⟨i - 1, by omega⟩
      have hq' : q ∈ s1.mon.spindles.set n m := hq
      rcases List.mem_or_eq_of_mem_set hq' with h | h
      · exact a2 q h
      · rw [h]; exact moved_sound (a2 _ (sp_mem hi)) _ _ _
    have b3 : ∀ x, (requeue i r.state st s2).queued x := by
      intro x
      obtain ⟨c1, c2, c3, c4, c5⟩ := a3 x
      refine queued_requeue i r.state st x (by rw [hh2]; exact hi) (by rw [hsp2, if_pos rfl]; exact moved_state _ _ _ _)
        (by rw [hsd2]; exact c1) (by rw [hsd2]; exact c2) (by rw [hsd2]; exact c3) ?_ ?_ ?_
      · intro hq; rw [hso2, hsd2]; exact hmay.2 hq
      · intro j
        rw [hsd2, hh2, hso2, hsp2, c4]
        by_cases hj : j = i
        · subst hj; simp [hr]
        · simp [hj]
      · intro j
        rw [hsd2, hh2, hso2, hsp2, c5]
        by_cases hj : j = i
        · subst hj; simp [hr]
        · simp [hj]
    have b1' : (requeue i r.state st s2).sized := by
      unfold State.sized at b1 ⊢; simpa using b1
    have b2' : ∀ q ∈ (requeue i r.state st s2).mon.spindles, q.sound := by simpa using b2
    split
    · rename_i hcnt
      refine ⟨b1', b2', b3, ?_⟩
      have e1 : (requeue i r.state st s2).endsDown = s1.endsDown := by
        have : (requeue i r.state st s2).endsDown = s2.endsDown := by simp [State.endsDown]
        rw [this]
        exact countP_setNth (p := fun r => r.state.counts) _ _ _ (by rw [moved_state, ← hcnt, hr]; rfl)
      have e2 : (requeue i r.state st s2).mon.aboveLimit = s1.mon.aboveLimit := by simp [hs2, setSp]
      have e3 : (requeue i r.state st s2).cfg = s1.cfg := cfg_of_port (by simp [hs2])
      rw [e1, e2, e3]; exact a4
    · exact tabled_endsDownCheck b1' b2' b3

theorem mayEnter_other (s : State) (i : Nat) {st : SpState} (h1 : st ≠ .queued) (h2 : st ≠ .waiting) :
    s.mayEnter i st := ⟨fun h => (h.elim h1 h2).elim, fun h => (h1 h).elim⟩

theorem tabled_bookEnter {s : State} (hs : s.tabled) (i : Nat) (st : SpState) (h1 : st ≠ .queued) (h2 : st ≠ .waiting) :
    (bookEnter i st s).tabled := tabled_enter (tabled_book hs i) i st (mayEnter_other _ _ h1 h2)

/-! ### Folds -/

theorem each_keepsProp (P : State → Prop) (l : List Nat) (f : Nat → State → State) (h : ∀ i s, P s → P (f i s)) {s : State}
    (hs : P s) : P (each l f s) := by
  induction l generalizing s with
  | nil => exact hs
  | cons i l ih => exact ih (h i s hs)

theorem foldl_keepsProp {β : Type} (P : State → Prop) (l : List β) (f : State → β → State)
    (h : ∀ s b, P s → P (f s b)) {s : State} (hs : P s) : P (l.foldl f s) := by
  induction l generalizing s with
  | nil => exact hs
  | cons b l ih => exact ih (h s b hs)

/-! ### Which indices are spindles is never changed by moving records -/

@[simp] theorem has_setSp (i j : Nat) (r : Spindle) (s : State) : (setSp i r s).hasSpindle j = s.hasSpindle j := by
  simp [State.hasSpindle]
@[simp] theorem has_modifySp (i j : Nat) (f : Spindle → Spindle) (s : State) :
    (modifySp i f s).hasSpindle j = s.hasSpindle j := has_setSp _ _ _ _
@[simp] theorem has_touch (i j : Nat) (s : State) : (touch i s).hasSpindle j = s.hasSpindle j := by
  unfold touch
  split
  · split
    · rfl
    · simp [closeStep, State.hasSpindle]
  · rfl
@[simp] theorem has_bookOpen (i j : Nat) (s : State) : (bookOpen i s).hasSpindle j = s.hasSpindle j := by
  unfold bookOpen
  dsimp only
  split <;> simp [State.hasSpindle]
@[simp] theorem has_book (i j : Nat) (s : State) : (book i s).hasSpindle j = s.hasSpindle j := by
  unfold book
  split <;> simp
theorem has_of_mon {s t : State} (h : t.mon = s.mon) (j : Nat) : t.hasSpindle j = s.hasSpindle j := by
  simp [State.hasSpindle, h]
@[simp] theorem has_countEvent (k : Counted) (j : Nat) (s : State) : (countEvent k s).hasSpindle j = s.hasSpindle j := rfl
@[simp] theorem has_countDown (k : Placement) (i j : Nat) (s : State) :
    (countDown k i s).hasSpindle j = s.hasSpindle j := by
  unfold countDown; split <;> simp

/-! ### Blocks beside the tables -/

@[simp] theorem tabled_raiseAlert {s : State} (hs : s.tabled) (code : AlertCode) (cls : AlertClass) (subject : Option Nat) :
    (raiseAlert code cls subject s).tabled := tabled_of_blocks (by simp) (by simp) (by simp) (by simp) hs
@[simp] theorem tabled_addHold {s : State} (hs : s.tabled) (c : HoldCause) : (addHold c s).tabled :=
  tabled_of_blocks (by simp) (by simp) (by simp) (by simp) hs
@[simp] theorem tabled_removeHold {s : State} (hs : s.tabled) (c : HoldCause) : (removeHold c s).tabled :=
  tabled_of_blocks (by simp) (by simp) (by simp) (by simp) hs
@[simp] theorem tabled_enqueue {s : State} (hs : s.tabled) (k : Kind) (d : Nat) (p : List Byte) :
    (enqueue k d p s).tabled := tabled_of_blocks (by simp) (by simp) (by simp) (by simp) hs
@[simp] theorem tabled_countEvent {s : State} (hs : s.tabled) (k : Counted) : (countEvent k s).tabled :=
  tabled_of_blocks rfl rfl rfl rfl hs
@[simp] theorem tabled_setEng {s : State} (hs : s.tabled) (x : Side) (e : Engagement) : (setEng x e s).tabled :=
  SameTables.tabled (s := s)
    { spindles := by simp, strips := by simp, flag := by simp, sections := by simp, queue := by simp
      waiting := by simp, config := by simp } hs
@[simp] theorem tabled_modifySec {s : State} (hs : s.tabled) (k : Nat) (f : Section → Section) : (modifySec k f s).tabled :=
  SameTables.tabled (s := s)
    { spindles := rfl, strips := rfl, flag := rfl, sections := by simp [modifySec, setSec], queue := fun x => by cases x <;> rfl
      waiting := fun x => by cases x <;> rfl, config := rfl } hs
@[simp] theorem tabled_setSlot {s : State} (hs : s.tabled) (n : Nat) (b : Option Booking) : (setSlot n b s).tabled :=
  SameTables.tabled (s := s)
    { spindles := by simp, strips := by simp, flag := by simp, sections := by unfold setSlot; split <;> rfl
      queue := fun x => by cases x <;> simp [State.side], waiting := fun x => by cases x <;> simp [State.side]
      config := by simp } hs

/-! ### Piecing -/

theorem tabled_joinQueue {s : State} (hs : s.tabled) (i : Nat) (hi : s.hasSpindle i = true) : (joinQueue i s).tabled := by
  unfold joinQueue
  split
  · rename_i h; exact tabled_enter hs i _ ⟨fun _ => hi, fun _ => Or.inr h⟩
  · exact tabled_enter hs i _ ⟨fun _ => hi, by simp⟩

theorem tabled_refillSide {s : State} (hs : s.tabled) (n : Nat) (x : Side) : (refillSide n x s).tabled := by
  induction n generalizing s with
  | zero => exact hs
  | succ n ih =>
    unfold refillSide
    split
    · rename_i hc
      split
      · exact hs
      · rename_i i l hw
        have := ((hs.2.2.1 x).2.2.2.2 i).1 (by rw [hw]; simp)
        exact ih (tabled_enter hs i _ ⟨fun _ => this.1, fun _ => Or.inr (by rw [this.2.1]; exact hc)⟩)
    · exact hs

@[simp] theorem tabled_refill {s : State} (hs : s.tabled) : (refill s).tabled :=
  tabled_refillSide (tabled_refillSide hs _ _) _ _

@[simp] theorem tabled_makeRogue {s : State} (hs : s.tabled) (i : Nat) : (makeRogue i s).tabled :=
  tabled_raiseAlert (tabled_enter (tabled_modifySp (tabled_book hs i) i _ (by simp)) i _
    (mayEnter_other _ _ (by decide) (by decide))) _ _ _

theorem tabled_place {s : State} (hs : s.tabled) (k : Placement) (i : Nat) (hi : s.hasSpindle i = true) :
    (place k i s).tabled := by
  have h1 : (setSp i { (touch i s).sp i with attempts := ((touch i s).sp i).placedAttempts k, piecedAt := none }
      (touch i s)).tabled := tabled_modifySp (tabled_touch hs i) i
        (fun r => { r with attempts := r.placedAttempts k, piecedAt := none }) (by simp)
  unfold place
  dsimp only
  split
  · exact tabled_makeRogue h1 i
  · exact tabled_joinQueue h1 i (by simpa using hi)

@[simp] theorem tabled_failedPiecing {s : State} (hs : s.tabled) (i : Nat) : (failedPiecing i s).tabled := by
  unfold failedPiecing
  split
  · rename_i h
    have hi : s.hasSpindle i = true := hasSpindle_of_state (by rcases h with h | h <;> rw [h] <;> decide)
    have h1 := tabled_modifySp (tabled_touch hs i) i (fun r => { r with piecedAt := none }) (by simp)
    dsimp only
    split
    · exact tabled_bookEnter h1 i _ (by decide) (by decide)
    · have h2 := tabled_modifySp h1 i (fun r => { r with attempts := addCapped Config.maxAttempts r.attempts 1 }) (by simp)
      split
      · exact tabled_makeRogue h2 i
      · exact tabled_joinQueue h2 i (by simpa using hi)
  · exact hs

@[simp] theorem tabled_returnToPiecing {s : State} (hs : s.tabled) (i : Nat) : (returnToPiecing i s).tabled := by
  unfold returnToPiecing
  split
  · rename_i h
    split
    · exact tabled_bookEnter hs i _ (by decide) (by decide)
    · exact tabled_joinQueue hs i (hasSpindle_of_state (by rw [h]; decide))
  · exact hs

@[simp] theorem tabled_pieceCall {s : State} (hs : s.tabled) (x : Side) : (pieceCall x s).tabled :=
  tabled_of_blocks (by simp) (by simp) (by simp) (by simp) hs
@[simp] theorem tabled_enterCalling {s : State} (hs : s.tabled) (x : Side) : (enterCalling x s).tabled := by
  unfold enterCalling; simp [hs]
@[simp] theorem tabled_enterIdle {s : State} (hs : s.tabled) (x : Side) : (enterIdle x s).tabled := by
  unfold enterIdle; simp [hs]
@[simp] theorem tabled_callOrIdle {s : State} (hs : s.tabled) (x : Side) : (callOrIdle x s).tabled := by
  unfold callOrIdle; split <;> simp [hs]
@[simp] theorem tabled_sendRelease {s : State} (hs : s.tabled) (x : Side) : (sendRelease x s).tabled := by
  unfold sendRelease; split <;> simp [hs]
@[simp] theorem tabled_sendCancel {s : State} (hs : s.tabled) (x : Side) : (sendCancel x s).tabled := by
  unfold sendCancel; split <;> simp [hs]
@[simp] theorem tabled_issueOrder {s : State} (hs : s.tabled) (x : Side) (i : Nat) (asc : Bool) :
    (issueOrder x i asc s).tabled := by
  have h1 : (refill (enter i .ordered s)).tabled :=
    tabled_refill (tabled_enter hs i _ (mayEnter_other _ _ (by decide) (by decide)))
  have h2 : ∀ n, ({ refill (enter i .ordered s) with pie := { (refill (enter i .ordered s)).pie with nextTag := n } } : State).tabled :=
    fun n => SameTables.tabled (s := refill (enter i .ordered s))
      { spindles := rfl, strips := rfl, flag := rfl, sections := rfl, queue := fun x => by cases x <;> rfl
        waiting := fun x => by cases x <;> rfl, config := rfl } h1
  unfold issueOrder
  dsimp only
  split
  · exact tabled_setEng (tabled_enqueue (h2 _) _ _ _) _ _
  · exact tabled_setEng (h2 _) _ _
@[simp] theorem tabled_decideNext {s : State} (hs : s.tabled) (x : Side) : (decideNext x s).tabled := by
  unfold decideNext; repeat' split
  all_goals simp [hs]
@[simp] theorem tabled_notifyOne {s : State} (hs : s.tabled) (s0 : State) (x : Side) : (notifyOne s0 x s).tabled := by
  unfold notifyOne; dsimp only; repeat' split
  all_goals simp [hs]
@[simp] theorem tabled_notify {s : State} (hs : s.tabled) (s0 : State) : (notify s0 s).tabled :=
  foldl_keepsProp State.tabled _ _ (fun _ x h => tabled_notifyOne h s0 x) hs
theorem tabled_piecingEvent {s : State} (f : State → State) (h : (f s).tabled) : (piecingEvent f s).tabled :=
  tabled_notify (tabled_refill h) s
@[simp] theorem tabled_withdrawOf {s : State} (hs : s.tabled) (x : Side) (i : Nat) : (withdrawOf x i s).tabled := by
  unfold withdrawOf; dsimp only; split <;> simp [hs]
@[simp] theorem tabled_withdrawOrder {s : State} (hs : s.tabled) (i : Nat) : (withdrawOrder i s).tabled := by
  unfold withdrawOrder; simp [hs]
@[simp] theorem tabled_returnOrdered {s : State} (hs : s.tabled) (x : Side) : (returnOrdered x s).tabled := by
  unfold returnOrdered; split <;> simp [hs]
@[simp] theorem tabled_suspendOne {s : State} (hs : s.tabled) (x : Side) : (suspendOne x s).tabled := by
  unfold suspendOne
  dsimp only
  split
  · exact tabled_setEng (tabled_sendRelease hs x) _ _
  · exact tabled_setEng (tabled_sendRelease hs x) _ _
  · exact tabled_setEng (tabled_returnOrdered (tabled_sendRelease (tabled_sendCancel hs x) x) x) _ _
  all_goals exact tabled_setEng hs _ _
@[simp] theorem tabled_suspendEngagements {s : State} (hs : s.tabled) : (suspendEngagements s).tabled :=
  foldl_keepsProp State.tabled _ _ (fun _ x h => tabled_suspendOne h x) hs
@[simp] theorem tabled_resumeEngagements {s : State} (hs : s.tabled) : (resumeEngagements s).tabled :=
  foldl_keepsProp State.tabled _ _ (fun _ x h => by split <;> simp [h]) hs
@[simp] theorem tabled_endEngagement {s : State} (hs : s.tabled) (x : Side) : (endEngagement x s).tabled := by
  exact tabled_callOrIdle (tabled_setEng (tabled_returnOrdered hs x) _ _) x
@[simp] theorem tabled_restartEngagement {s : State} (hs : s.tabled) (x : Side) : (restartEngagement x s).tabled := by
  unfold restartEngagement; split <;> simp [hs]
@[simp] theorem tabled_restartPiecing {s : State} (hs : s.tabled) : (restartPiecing s).tabled :=
  foldl_keepsProp State.tabled _ _ (fun _ x h => tabled_restartEngagement h x) hs

/-! ### The creel -/

@[simp] theorem tabled_announceDue {s : State} (hs : s.tabled) : (announceDue s).tabled := by
  unfold announceDue
  refine SameTables.tabled (s := s) ?_ hs
  exact { spindles := by simp, strips := by simp, flag := by simp, sections := by simp
          queue := fun x => by cases x <;> simp [State.side], waiting := fun x => by cases x <;> simp [State.side]
          config := by simp }
@[simp] theorem tabled_rebuildDue {s : State} (hs : s.tabled) : (rebuildDue s).tabled := by
  have h : ({ s with creel := { s.creel with
      dueList := s.dueSections.take Config.dueCapacity
      firstSix := ((s.dueSections.take Config.dueCapacity).take Config.announcedDue).map DueEntry.number } } : State).tabled :=
    SameTables.tabled (s := s)
      { spindles := rfl, strips := rfl, flag := rfl, sections := rfl, queue := fun _ => by rfl, waiting := fun _ => rfl
        config := rfl } hs
  unfold rebuildDue
  dsimp only
  split
  · exact h
  · exact tabled_announceDue h
@[simp] theorem tabled_emptyAlert {s : State} (hs : s.tabled) (i : Nat) : (emptyAlert i s).tabled := by
  unfold emptyAlert; split <;> simp [hs]
@[simp] theorem tabled_marginOne {s : State} (hs : s.tabled) (i : Nat) : (marginOne i s).tabled := by
  unfold marginOne; repeat' split
  all_goals first | exact hs | exact tabled_emptyAlert (tabled_bookEnter hs i _ (by decide) (by decide)) i
@[simp] theorem tabled_recomputeSection {s : State} (hs : s.tabled) (k : Nat) : (recomputeSection k s).tabled := by
  unfold recomputeSection
  split
  · exact tabled_modifySec (tabled_piecingEvent _ (each_keepsProp State.tabled _ _ (fun i _ h => tabled_marginOne h i) hs)) _ _
  · exact hs
@[simp] theorem tabled_recomputeAll {s : State} (hs : s.tabled) : (recomputeAll s).tabled :=
  tabled_rebuildDue (each_keepsProp State.tabled _ _ (fun i _ h => tabled_recomputeSection h i) hs)
@[simp] theorem tabled_recomputeOne {s : State} (hs : s.tabled) (k : Nat) : (recomputeOne k s).tabled :=
  tabled_rebuildDue (tabled_recomputeSection hs k)
@[simp] theorem tabled_goneEmpty {s : State} (hs : s.tabled) (i : Nat) : (goneEmpty i s).tabled := by
  unfold goneEmpty; dsimp only; split <;> simp [hs]
@[simp] theorem tabled_countDown {s : State} (hs : s.tabled) (k : Placement) (i : Nat) : (countDown k i s).tabled := by
  unfold countDown
  split
  · exact tabled_countEvent (tabled_modifySp hs i _ (by simp)) _
  · exact tabled_countEvent (tabled_modifySp hs i _ (by simp)) _
  · exact hs
  · exact hs
theorem tabled_goDown {s : State} (hs : s.tabled) (k : Placement) (i : Nat) (hi : s.hasSpindle i = true) :
    (goDown k i s).tabled := by
  have hb := tabled_book (tabled_touch hs i) i
  have hh : (countDown k i (book i (touch i s))).hasSpindle i = true := by simpa using hi
  unfold goDown
  dsimp only
  split
  · exact tabled_enter hb i _ (mayEnter_other _ _ (by decide) (by decide))
  · split
    · exact tabled_goneEmpty (tabled_enter hb i _ (mayEnter_other _ _ (by decide) (by decide))) i
    · exact tabled_place (tabled_countDown hb k i) k i hh
  · exact tabled_place (tabled_countDown hb k i) k i hh
theorem tabled_eachBook {s : State} (hs : s.tabled) (l : List Nat) : (each l book s).tabled :=
  each_keepsProp State.tabled _ _ (fun i _ h => tabled_book h i) hs
@[simp] theorem tabled_rebase {s : State} (hs : s.tabled) (k loaded : Nat) (rem : List Nat) : (rebase k loaded rem s).tabled :=
  each_keepsProp State.tabled _ _ (fun i _ h => tabled_modifySp h i _ (by simp)) (tabled_modifySec hs _ _)
@[simp] theorem tabled_loadRebase {s : State} (hs : s.tabled) (k : Nat) : (loadRebase k s).tabled :=
  tabled_rebase (tabled_eachBook hs _) _ _ _
@[simp] theorem tabled_carryRebase {s : State} (hs : s.tabled) (k : Nat) : (carryRebase k s).tabled := by
  unfold carryRebase
  split
  · exact tabled_rebase (tabled_eachBook hs _) _ _ _
  · exact hs
@[simp] theorem tabled_leaveNormal {s : State} (hs : s.tabled) (k : Nat) : (leaveNormal k s).tabled := by
  unfold leaveNormal; simp [hs]
@[simp] theorem tabled_enterNormal {s : State} (hs : s.tabled) (k : Nat) : (enterNormal k s).tabled := by
  unfold enterNormal; simp [hs]
@[simp] theorem tabled_freeSlot {s : State} (hs : s.tabled) (n : Nat) : (freeSlot n s).tabled := by
  unfold freeSlot
  split
  · exact tabled_setSlot (each_keepsProp State.tabled _ _ (fun i _ h => tabled_modifySec h i _) hs) _ _
  · exact hs
@[simp] theorem tabled_unbook {s : State} (hs : s.tabled) (k : Nat) : (unbook k s).tabled := by
  unfold unbook; dsimp only; repeat' split
  all_goals simp [hs]
@[simp] theorem tabled_strayCarrier {s : State} (hs : s.tabled) : (strayCarrier s).tabled :=
  SameTables.tabled (s := s)
    { spindles := rfl, strips := rfl, flag := rfl, sections := rfl, queue := fun _ => by rfl, waiting := fun _ => rfl
      config := rfl } hs
theorem tabled_freshBreak {s : State} (hs : s.tabled) (i : Nat) (hi : s.hasSpindle i = true)
    (hd : (s.sp i).state.isDown = true) : (freshBreak i s).tabled := by
  have hb := tabled_book hs i
  have hst : ((book i s).sp i).state = (s.sp i).state := book_state i i s
  have h1 : (modifySp i (fun r => { r with downSince := some (book i s).now, doffStart := false }) (book i s)).tabled := by
    refine tabled_setSp hb i _ rfl fun hi' => ?_
    obtain ⟨a, b, c⟩ := hb.2.1 _ (sp_mem hi')
    exact ⟨a, b, by simp only [Option.isSome_some]; rw [hst, hd]⟩
  exact tabled_place (tabled_countEvent h1 _) _ i (by simpa using hi)
theorem tabled_freshIf {s : State} (hs : s.tabled) (w : SpState → Bool) (hw : ∀ st, w st = true → st.isDown = true)
    (i : Nat) : (freshIf w i s).tabled := by
  unfold freshIf
  split
  · rename_i h
    have hd := hw _ h
    refine tabled_piecingEvent _ (tabled_freshBreak hs i (hasSpindle_of_state ?_) hd)
    intro e; rw [e] at hd; simp [SpState.isDown, SpState.cause] at hd
  · exact hs
@[simp] theorem tabled_settleSection {s : State} (hs : s.tabled) (k : Nat) (st : SectionState) :
    (settleSection k st s).tabled := tabled_modifySec hs _ _
@[simp] theorem tabled_endLoaded {s : State} (hs : s.tabled) (k : Nat) : (endLoaded k s).tabled := by
  unfold endLoaded
  refine tabled_enterNormal (each_keepsProp State.tabled _ _ (fun i _ h => tabled_freshIf h _ ?_ i) (tabled_unbook (tabled_settleSection (tabled_loadRebase hs k) k _) k)) _
  intro st; cases st <;> decide
@[simp] theorem tabled_endNotLoaded {s : State} (hs : s.tabled) (k : Nat) : (endNotLoaded k s).tabled := by
  unfold endNotLoaded
  refine tabled_enterNormal (each_keepsProp State.tabled _ _ (fun i _ h => tabled_freshIf h _ ?_ i) (tabled_unbook (tabled_settleSection hs k _) k)) _
  intro st; cases st <;> decide
@[simp] theorem tabled_endUnknown {s : State} (hs : s.tabled) (k : Nat) : (endUnknown k s).tabled := by
  exact tabled_leaveNormal (tabled_raiseAlert (tabled_unbook (tabled_settleSection hs k _) k) _ _ _) k

end Sys2Proof.Machine
end

