-- ==== Sys2Proof/Laws/EventTables.lean ====
section
/-! SUPPORT. Sound tables are kept by every event: robots, strips, shifts, lockout, carriers, the doff, the hall line, the clock,
the resets and the command port. -/

namespace Sys2Proof.Machine

/-! ### Robots -/

/-- A change of the engagements, the counters and the bar alone. -/
theorem tabled_pie {s t : State} (hm : t.mon = s.mon) (hc : t.creel = s.creel) (ho : t.port = s.port)
    (hq : ∀ x, (t.side x).queue.map QueueEntry.index = (s.side x).queue.map QueueEntry.index)
    (hw : ∀ x, (t.side x).waiting = (s.side x).waiting) (hs : s.tabled) : t.tabled :=
  SameTables.tabled (s := s)
    { spindles := by rw [hm], strips := by rw [hm], flag := by rw [hm], sections := by rw [hc], queue := hq
      waiting := hw, config := by rw [ho] } hs

theorem tabled_strayRobot {s : State} (hs : s.tabled) : (strayRobot s).tabled :=
  tabled_pie rfl rfl rfl (fun x => by cases x <;> rfl) (fun x => by cases x <;> rfl) hs
theorem tabled_lateResult {s : State} (hs : s.tabled) : (lateResult s).tabled :=
  tabled_pie rfl rfl rfl (fun x => by cases x <;> rfl) (fun x => by cases x <;> rfl) hs
theorem tabled_setBar {s : State} (hs : s.tabled) (x : Side) (b : Option Bar) :
    (setSide x { s.side x with bar := b } s).tabled :=
  tabled_pie (by simp) (by simp) (by simp) (fun y => by cases x <;> cases y <;> rfl)
    (fun y => by cases x <;> cases y <;> rfl) hs
theorem tabled_takeOffer {s : State} (hs : s.tabled) (t : Telegram) : (takeOffer t s).tabled := by
  unfold takeOffer
  dsimp only
  repeat' split
  · exact tabled_setEng (tabled_enqueue hs _ _ _) _ _
  · exact tabled_enqueue hs _ _ _
  · exact tabled_enqueue hs _ _ _
theorem tabled_takeArrival {s : State} (hs : s.tabled) (t : Telegram) : (takeArrival t s).tabled := by
  unfold takeArrival
  repeat' split
  · exact tabled_decideNext (tabled_setEng hs _ _) _
  · exact tabled_strayRobot hs
  · exact tabled_strayRobot hs
theorem tabled_applyResult {s : State} (hs : s.tabled) (o : WorkOutcome) (i : Nat) : (applyResult o i s).tabled := by
  unfold applyResult
  split
  · split
    · exact tabled_modifySp (tabled_countEvent (tabled_bookEnter hs i _ (by decide) (by decide)) _) i _ (by simp)
    · split
      · exact tabled_modifySp (tabled_enter hs i _ (mayEnter_other _ _ (by decide) (by decide))) i _ (by simp)
      · exact tabled_failedPiecing hs i
      · exact tabled_returnToPiecing hs i
      · split
        · exact tabled_bookEnter hs i _ (by decide) (by decide)
        · exact tabled_goneEmpty (tabled_bookEnter hs i _ (by decide) (by decide)) i
  · exact hs
theorem tabled_takeResult {s : State} (hs : s.tabled) (t : Telegram) : (takeResult t s).tabled := by
  unfold takeResult
  split
  · exact tabled_decideNext (tabled_setEng (tabled_refill (tabled_applyResult (tabled_setEng hs _ _) _ _)) _ _) _
  · exact tabled_lateResult hs
theorem tabled_takeWithdraw {s : State} (hs : s.tabled) (t : Telegram) : (takeWithdraw t s).tabled := by
  unfold takeWithdraw
  repeat' split
  · exact tabled_endEngagement hs _
  · exact tabled_strayRobot hs
  · exact tabled_strayRobot hs
theorem tabled_robotRestarted {s : State} (hs : s.tabled) (n : Nat) : (robotRestarted n s).tabled := by
  unfold robotRestarted
  repeat' split
  all_goals first | exact hs | exact tabled_endEngagement hs _
theorem tabled_robotLost {s : State} (hs : s.tabled) (x : Side) : (robotLost x s).tabled := by
  unfold robotLost
  exact tabled_enterCalling (tabled_setEng (tabled_raiseAlert (tabled_setBar (tabled_sendRelease hs x) x _) _ _ _) _ _) x
theorem tabled_orderTimedOut {s : State} (hs : s.tabled) (x : Side) (o : Order) : (orderTimedOut x o s).tabled := by
  have h := tabled_refill (tabled_failedPiecing (tabled_setEng (tabled_sendCancel hs x) x
    { (sendCancel x s).eng x with order := none, timer := none }) o.index)
  unfold orderTimedOut
  dsimp only
  split
  · exact tabled_decideNext (tabled_setEng h _ _) _
  · exact tabled_robotLost h x

/-! ### Strips -/

theorem lazyRead_fields (c : ReadClass) (r : Spindle) :
    (r.lazyRead c).1.state = r.state ∧ (r.lazyRead c).1.cause = r.cause ∧ (r.lazyRead c).1.bookedTo = r.bookedTo ∧
    (r.lazyRead c).1.downSince = r.downSince ∧ (r.lazyRead c).1.lastClass = r.lastClass := by
  unfold Spindle.lazyRead
  repeat' split
  all_goals simp
theorem tabled_classifyUp {s : State} (hs : s.tabled) (i : Nat) (c : ReadClass) (hi : s.hasSpindle i = true) :
    (classifyUp i c s).tabled := by
  have h1 : ∀ n, (setSp i { ((s.sp i).lazyRead c).1 with downRun := n } s).tabled := fun n =>
    tabled_modifySp hs i (fun r => { (r.lazyRead c).1 with downRun := n }) (fun r => by simp [lazyRead_fields])
  have h2 : ∀ n (b : Bool), (if b = true then raiseAlert .lazySpindle .note (some i)
      (setSp i { ((s.sp i).lazyRead c).1 with downRun := n } s)
      else setSp i { ((s.sp i).lazyRead c).1 with downRun := n } s).tabled := fun n b => by
    split
    · exact tabled_raiseAlert (h1 n) _ _ _
    · exact h1 n
  have key : ∀ (n : Nat) (s2 : State), s2.tabled → s2.hasSpindle i = true →
      (if 2 ≤ n then piecingEvent (goDown .sensed i) s2 else s2).tabled := by
    intro n s2 ht hh
    split
    · exact tabled_piecingEvent _ (tabled_goDown ht _ _ hh)
    · exact ht
  refine key _ _ (h2 _ _) ?_
  dsimp only
  split
  · exact (has_of_mon (raiseAlert_frame _ _ _ _).2.1 i).trans ((has_setSp _ _ _ _).trans hi)
  · exact (has_setSp _ _ _ _).trans hi
theorem tabled_classifyUnseen {s : State} (hs : s.tabled) (i : Nat) (c : ReadClass)
    (hi : c = .down → s.hasSpindle i = true) : (classifyUnseen i c s).tabled := by
  have hb := tabled_bookEnter hs i .up (by decide) (by decide)
  unfold classifyUnseen
  split
  · exact tabled_piecingEvent _ (tabled_goDown hs _ _ (hi rfl))
  · exact tabled_modifySp hb i _ (by simp)
  · exact hb
  · exact hb
theorem tabled_classifyBroken {s : State} (hs : s.tabled) (i : Nat) (c : ReadClass) : (classifyBroken i c s).tabled := by
  have h : ∀ n, (modifySp i (fun r => { r with downRun := n }) s).tabled := fun n => tabled_modifySp hs i _ (by simp)
  have key : ∀ (n : Nat) (s2 : State), s2.tabled →
      (if 2 ≤ n then piecingEvent (fun s => countEvent .byHand (bookEnter i .up s)) s2 else s2).tabled := by
    intro n s2 ht
    split
    · exact tabled_piecingEvent _ (tabled_countEvent (tabled_bookEnter ht i .up (by decide) (by decide)) _)
    · exact ht
  exact key _ _ (h _)
theorem tabled_classifyConfirming {s : State} (hs : s.tabled) (i : Nat) (c : ReadClass) :
    (classifyConfirming i c s).tabled := by
  have h : ∀ n, (modifySp i (fun r => { r with confirmReads := n }) s).tabled := fun n => tabled_modifySp hs i _ (by simp)
  unfold classifyConfirming
  dsimp only
  repeat' split
  · exact tabled_countEvent (tabled_bookEnter hs i _ (by decide) (by decide)) _
  · exact tabled_piecingEvent _ (tabled_failedPiecing (h _) i)
  · exact h _
theorem tabled_classify {s : State} (hs : s.tabled) (i : Nat) : (classify i s).tabled := by
  unfold classify
  dsimp only
  split
  · rename_i h; exact tabled_classifyUp hs i _ (hasSpindle_of_state (by rw [h]; decide))
  · refine tabled_classifyUnseen hs i _ fun h => hasSpindle_of_class (by rw [h]; decide)
  · exact tabled_classifyBroken hs i _
  · exact tabled_classifyBroken hs i _
  · split
    · exact tabled_modifySp hs i _ (by simp)
    · exact hs
  · exact tabled_classifyConfirming hs i _
  all_goals exact hs
theorem tabled_setStrip {s : State} (hs : s.tabled) (k : Nat) (t : Strip) : (setStrip k t s).tabled :=
  SameTables.tabled (s := s)
    { spindles := rfl, strips := by simp [setStrip], flag := rfl, sections := rfl, queue := fun _ => rfl
      waiting := fun _ => rfl, config := rfl } hs
theorem tabled_unobserve {s : State} (hs : s.tabled) (i : Nat) : (unobserve i s).tabled := by
  unfold unobserve
  split
  · exact hs
  · exact hs
  · exact tabled_bookEnter (tabled_withdrawOrder hs i) i _ (by decide) (by decide)
  · exact tabled_bookEnter hs i _ (by decide) (by decide)
theorem tabled_failStrip {s : State} (hs : s.tabled) (k : Nat) : (failStrip k s).tabled :=
  tabled_raiseAlert (tabled_piecingEvent _
    (each_keepsProp State.tabled _ _ (fun i _ h => tabled_unobserve h i) (tabled_setStrip hs k _))) _ _ _
theorem tabled_recoverRecord {s : State} (hs : s.tabled) (i : Nat) : (recoverRecord i s).tabled := by
  have h := tabled_modifySp hs i (fun r => { r with lastClass := .none }) (by simp)
  unfold recoverRecord
  dsimp only
  split
  · split
    · exact tabled_bookEnter h i _ (by decide) (by decide)
    · exact tabled_bookEnter h i _ (by decide) (by decide)
  · exact h
theorem tabled_goodReply {s : State} (hs : s.tabled) (k : Nat) (l : List Nat) : (goodReply k l s).tabled := by
  unfold goodReply
  dsimp only
  split
  · exact each_keepsProp State.tabled _ _ (fun i _ h => tabled_recoverRecord h i) (tabled_setStrip hs k _)
  · split
    · exact each_keepsProp State.tabled _ _ (fun i _ h => tabled_classify h i)
        (each_keepsProp State.tabled _ _ (fun i _ h => tabled_modifySp h i _ (by simp)) (tabled_setStrip hs k _))
    · exact each_keepsProp State.tabled _ _ (fun i _ h => tabled_modifySp h i _ (by simp)) (tabled_setStrip hs k _)
theorem tabled_missedReply {s : State} (hs : s.tabled) (k : Nat) : (missedReply k s).tabled := by
  unfold missedReply
  dsimp only
  split
  · exact tabled_failStrip (tabled_setStrip hs k _) k
  · exact tabled_setStrip hs k _
theorem tabled_setRotation {s : State} (hs : s.tabled) (r : Option Rotation) :
    ({ s with mon := { s.mon with rotation := r } } : State).tabled :=
  SameTables.tabled (s := s)
    { spindles := rfl, strips := rfl, flag := rfl, sections := rfl, queue := fun _ => rfl, waiting := fun _ => rfl
      config := rfl } hs

/-! ### Shifts -/

theorem tabled_respond {s : State} (hs : s.tabled) (k tag : Nat) (r : Result) (o : Bool) (body : List Byte) :
    (respond k tag r o body s).tabled :=
  SameTables.tabled (s := s)
    { spindles := rfl, strips := rfl, flag := rfl, sections := rfl, queue := fun _ => rfl, waiting := fun _ => rfl
      config := rfl } hs
theorem tabled_completeClose {s : State} (hs : s.tabled) (n : Nat) : (completeClose n s).tabled := by
  unfold completeClose
  split
  · exact SameTables.tabled (s := s)
      { spindles := rfl, strips := rfl, flag := rfl, sections := rfl, queue := fun _ => rfl, waiting := fun _ => rfl
        config := rfl } hs
  · exact hs
theorem tabled_completeRestart {s : State} (hs : s.tabled) (n : Nat) : (completeRestart n s).tabled := by
  unfold completeRestart
  split
  · exact SameTables.tabled (s := s)
      { spindles := rfl, strips := rfl, flag := rfl, sections := rfl, queue := fun _ => rfl, waiting := fun _ => rfl
        config := rfl } hs
  · exact hs
theorem tabled_switchSegment {s : State} (hs : s.tabled) (a : Article) : (switchSegment a s).tabled :=
  tabled_of_blocks (by simp) (by simp) (by simp) (by simp) hs
theorem tabled_articleSwitch {s : State} (hs : s.tabled) : (articleSwitch s).tabled := by
  unfold articleSwitch
  split
  · exact hs
  · exact tabled_of_blocks (s := each _ carryRebase _) rfl rfl rfl rfl
      (each_keepsProp State.tabled _ _ (fun k _ h => tabled_carryRebase h k) (tabled_switchSegment (tabled_eachBook hs _) _))
theorem tabled_beginClose {s : State} (hs : s.tabled) (n : Nat) (w : Bool) : (beginClose n w s).tabled :=
  tabled_of_blocks (by simp) (by simp) (by simp) (by simp) hs
theorem tabled_takeShiftMark {s : State} (hs : s.tabled) (t : Telegram) : (takeShiftMark t s).tabled :=
  tabled_of_blocks (by simp) (by simp) (by simp) (by simp) hs
theorem tabled_takeShiftTotals {s : State} (hs : s.tabled) (t : Telegram) : (takeShiftTotals t s).tabled :=
  tabled_of_blocks (by simp) (by simp) (by simp) (by simp) hs
theorem tabled_sweepEnd {s : State} (hs : s.tabled) (cl : Closing) : (sweepEnd cl s).tabled := by
  have h1 : ({ s with shift := { s.shift with
      ring := (reportOf s.cfg cl.shift :: s.shift.ring).take Config.ringCapacity, closing := none } } : State).tabled :=
    tabled_of_blocks rfl rfl rfl rfl hs
  unfold sweepEnd
  dsimp only
  split
  · exact tabled_completeClose (tabled_enqueue h1 _ _ _) _
  · exact tabled_enqueue h1 _ _ _
theorem tabled_sweepOne {s : State} (hs : s.tabled) : (sweepOne s).tabled := by
  unfold sweepOne
  split
  · exact hs
  · rename_i cl _
    dsimp only
    split
    · exact tabled_touch hs _
    · have h1 : ∀ c, ({ touch cl.sweep s with shift := { (touch cl.sweep s).shift with closing := c } } : State).tabled :=
        fun c => tabled_of_blocks (s := touch cl.sweep s) rfl rfl rfl rfl (tabled_touch hs _)
      split
      · exact tabled_sweepEnd (h1 _) _
      · exact h1 _

/-! ### Lockout -/

theorem tabled_lockRecord {s : State} (hs : s.tabled) (i : Nat) : (lockRecord i s).tabled := by
  unfold lockRecord
  split
  · exact tabled_bookEnter (tabled_withdrawOrder hs i) i _ (by decide) (by decide)
  · exact tabled_bookEnter hs i _ (by decide) (by decide)
theorem tabled_unlockRecord {s : State} (hs : s.tabled) (i : Nat) (hl : (s.sp i).state = .locked) :
    (unlockRecord i s).tabled := by
  have hb := tabled_book hs i
  unfold unlockRecord
  dsimp only
  split
  · exact tabled_enter hb i _ (mayEnter_other _ _ (by decide) (by decide))
  · split
    · refine tabled_enter ?_ i _ (mayEnter_other _ _ (by decide) (by decide))
      refine tabled_setSp hb i _ rfl fun hi' => ?_
      obtain ⟨a, b, c⟩ := hb.2.1 _ (sp_mem hi')
      exact ⟨a, b, by simp only [Option.isSome_some]; rw [book_state, hl]; rfl⟩
    · exact tabled_enter hb i _ (mayEnter_other _ _ (by decide) (by decide))
theorem tabled_rangeRecord {s : State} (hs : s.tabled) (old new : Option Lockout) (i : Nat) :
    (rangeRecord old new i s).tabled := by
  unfold rangeRecord
  split
  · split
    · exact hs
    · exact tabled_lockRecord hs i
  · split
    · rename_i h; exact tabled_unlockRecord hs i h.2
    · exact hs
theorem tabled_applyRange {s : State} (hs : s.tabled) (new : Option Lockout) : (applyRange new s).tabled := by
  unfold applyRange
  refine tabled_piecingEvent _ (each_keepsProp State.tabled _ _ (fun i _ h => tabled_rangeRecord h _ _ i) ?_)
  exact SameTables.tabled (s := s)
    { spindles := rfl, strips := rfl, flag := rfl, sections := rfl, queue := fun _ => rfl, waiting := fun _ => rfl
      config := rfl } hs
theorem tabled_takeMaint {s : State} (hs : s.tabled) (l : Bool) : (takeMaint l s).tabled := by
  refine SameTables.tabled (s := s) ?_ hs
  unfold takeMaint
  split <;>
  exact { spindles := rfl, strips := rfl, flag := rfl, sections := rfl, queue := fun _ => rfl, waiting := fun _ => rfl
          config := rfl }
theorem tabled_unmarkRogue {s : State} (hs : s.tabled) (i : Nat) : (unmarkRogue i s).tabled := by
  have h := tabled_modifySp hs i (fun r => { r with rogueMark := false, attempts := 0 }) (by simp)
  unfold unmarkRogue
  dsimp only
  split
  · exact tabled_bookEnter h i _ (by decide) (by decide)
  · exact h

/-! ### Carriers -/

theorem tabled_extendSlot {s : State} (hs : s.tabled) (n c e : Nat) (l : List Nat) : (extendSlot n c e l s).tabled :=
  each_keepsProp State.tabled _ _ (fun k _ h => tabled_modifySec h k _) (tabled_setSlot hs _ _)
theorem tabled_takeBooking {s : State} (hs : s.tabled) (t : Telegram) : (takeBooking t s).tabled := by
  unfold takeBooking
  dsimp only
  split
  · split
    · exact tabled_enqueue hs _ _ _
    · exact tabled_enqueue (tabled_extendSlot hs _ _ _ _) _ _ _
  · exact tabled_enqueue hs _ _ _
theorem tabled_takeBookingDone {s : State} (hs : s.tabled) (t : Telegram) : (takeBookingDone t s).tabled := by
  unfold takeBookingDone
  split
  · exact tabled_freeSlot hs _
  · exact hs
theorem tabled_exchangeRecord {s : State} (hs : s.tabled) (i : Nat) : (exchangeRecord i s).tabled := by
  unfold exchangeRecord
  split
  · exact tabled_bookEnter hs i _ (by decide) (by decide)
  · exact tabled_bookEnter hs i _ (by decide) (by decide)
  · exact tabled_enter hs i _ (mayEnter_other _ _ (by decide) (by decide))
  · exact tabled_bookEnter (tabled_withdrawOrder hs i) i _ (by decide) (by decide)
  all_goals exact hs
theorem tabled_pushLapse {s : State} (hs : s.tabled) (n t : Nat) : (pushLapse n t s).tabled := by
  unfold pushLapse
  split
  · exact tabled_setSlot hs _ _
  · exact hs
theorem tabled_beginExchange {s : State} (hs : s.tabled) (k n c : Nat) : (beginExchange k n c s).tabled :=
  tabled_leaveNormal (tabled_piecingEvent _ (each_keepsProp State.tabled _ _ (fun i _ h => tabled_exchangeRecord h i)
    (tabled_pushLapse (tabled_modifySec hs _ _) _ _))) _
theorem tabled_takeExchangeBegin {s : State} (hs : s.tabled) (t : Telegram) : (takeExchangeBegin t s).tabled := by
  unfold takeExchangeBegin
  split
  · exact tabled_beginExchange hs _ _ _
  · exact tabled_strayCarrier hs
theorem tabled_takeExchangeEnd {s : State} (hs : s.tabled) (t : Telegram) : (takeExchangeEnd t s).tabled := by
  unfold takeExchangeEnd
  repeat' split
  · exact tabled_endLoaded hs _
  · exact tabled_endUnknown hs _
  · exact tabled_strayCarrier hs
  · exact tabled_strayCarrier hs
theorem tabled_carrierRestarted {s : State} (hs : s.tabled) (n : Nat) : (carrierRestarted n s).tabled := by
  have h : (each s.numbers (abandonOf n) s).tabled :=
    each_keepsProp State.tabled _ _ (fun k _ h => by
      unfold abandonOf
      split
      · exact tabled_endUnknown h k
      · exact h) hs
  unfold carrierRestarted
  dsimp only
  split
  · exact tabled_freeSlot h _
  · exact h
theorem tabled_lapse {s : State} (hs : s.tabled) (n : Nat) : (lapse n s).tabled := by
  unfold lapse
  split
  · exact tabled_raiseAlert (tabled_freeSlot hs n) _ _ _
  · exact hs

/-! ### The doff sequencer and the clock -/

/-- An event of the doff sequencer or of the hall line that leaves the tables' blocks alone. -/
theorem tabled_beside {s t : State} (hs : s.tabled) (hm : t.mon = s.mon) (hp : t.pie = s.pie) (hc : t.creel = s.creel)
    (ho : t.port = s.port) : t.tabled := tabled_of_blocks hm hp hc ho hs
theorem tabled_enterRundown {s : State} (hs : s.tabled) : (enterRundown s).tabled := by
  have h : (suspendEngagements (setDoffState .rundown (removeHold .copFull (addHold .doff
      { s with doff := { s.doff with confirmEnd := none, firstClaim := none } })))).tabled :=
    tabled_suspendEngagements (tabled_beside (s := s) hs (by simp) (by simp) (by simp) (by simp))
  exact tabled_beside h (by simp [enterRundown]) (by simp [enterRundown]) (by simp [enterRundown]) (by simp [enterRundown])
theorem tabled_completeDoff {s : State} (hs : s.tabled) : (completeDoff s).tabled := by
  unfold completeDoff
  have h1 : (if s.del.armed = true then articleSwitch s else s).tabled := by
    split
    · exact tabled_articleSwitch hs
    · exact hs
  dsimp only
  generalize (if s.del.armed = true then articleSwitch s else s) = s1 at h1
  have h2 : ∀ d, ({ (enqueue .doffDone 0 [] (countDoff { s1 with doff := { s1.doff with copMark := s1.count } })) with
      doff := d } : State).tabled := fun d => tabled_beside h1 (by simp) (by simp) (by simp) (by simp)
  split
  · exact tabled_suspendEngagements (tabled_beside (tabled_removeHold (h2 _) .doff) rfl rfl rfl rfl)
  · exact tabled_beside (tabled_removeHold (h2 _) .doff) rfl rfl rfl rfl
theorem tabled_judge {s : State} (hs : s.tabled) (n i : Nat) : (judge n i s).tabled := by
  unfold judge
  split
  · rename_i h
    refine tabled_piecingEvent _ (tabled_goDown hs _ i (hasSpindle_of_class ?_))
    intro e
    simp [State.failedStart, e] at h
  · exact hs
theorem tabled_settleEnd {s : State} (hs : s.tabled) : (settleEnd s).tabled :=
  tabled_resumeEngagements (each_keepsProp State.tabled _ _ (fun i _ h => tabled_judge h _ i)
    (tabled_beside hs rfl rfl rfl rfl))
theorem tabled_abandon {s : State} (hs : s.tabled) : (abandon s).tabled :=
  tabled_beside hs (by simp) (by simp) (by simp) (by simp)
theorem tabled_restartCreel {s : State} (hs : s.tabled) : (restartCreel s).tabled := by
  unfold restartCreel
  split
  · exact SameTables.tabled (s := s)
      { spindles := rfl, strips := rfl, flag := rfl, sections := rfl, queue := fun _ => rfl, waiting := fun _ => rfl
        config := rfl } hs
  · exact tabled_announceDue hs
theorem tabled_lineRestart {s : State} (hs : s.tabled) : (lineRestart s).tabled := by
  have h : ({ s with
      line := { s.line.cleared with restartedAt := s.now }, doff := { s.doff with view := [] } } : State).tabled :=
    tabled_beside hs rfl rfl rfl rfl
  have h2 := tabled_restartCreel (tabled_restartPiecing (tabled_enqueue h .stationRestart 0 []))
  exact tabled_beside h2 (by simp [lineRestart]) (by simp [lineRestart]) (by simp [lineRestart]) (by simp [lineRestart])
theorem tabled_runningSecond {s : State} (hs : s.tabled) : (runningSecond s).tabled :=
  tabled_pie (by simp) (by simp) (by simp) (fun x => by cases x <;> simp [runningSecond, State.side])
    (fun x => by cases x <;> simp [runningSecond, State.side]) hs

/-! ### Resets -/

theorem tabled_createTables (c : Configuration) (s : State) (hc : s.port.config = some c)
    (hf : s.mon.aboveLimit = false) : (createTables c s).tabled := by
  have hu : ∀ i, ((createTables c s).sp i).state = .unseen := by
    intro i
    cases i with
    | zero => rfl
    | succ i =>
      simp only [State.sp, nth, createTables, List.getD, List.getElem?_replicate]
      split <;> rfl
  refine ⟨?_, ?_, ?_, ?_⟩
  · simp [State.sized, createTables, hc, Config.perStrip]
  · intro r hr
    simp only [createTables] at hr
    rw [List.eq_of_mem_replicate hr]
    exact ⟨rfl, rfl, rfl⟩
  · intro x
    have hq : ((createTables c s).side x).queue = [] := by cases x <;> rfl
    have hw : ((createTables c s).side x).waiting = [] := by cases x <;> rfl
    refine ⟨by rw [hq]; simp, by rw [hq]; simp, by rw [hw]; simp, ?_, ?_⟩
    · intro i; rw [hq, hu]; simp
    · intro i; rw [hw, hu]; simp
  · have h0 : (createTables c s).endsDown = 0 := by
      simp [State.endsDown, createTables, Spindle.created, Spindle.blank, SpState.counts, List.countP_replicate]
    rw [h0]
    simp [createTables, hf]
theorem tabled_configured {s : State} (hf : s.mon.aboveLimit = false) (c : Configuration) : (configured c s).tabled := by
  have h := tabled_createTables c { s with port := { s.port with config := some c } } rfl hf
  refine SameTables.tabled (s := createTables c { s with port := { s.port with config := some c } }) ?_ h
  exact { spindles := by simp [configured], strips := by simp [configured], flag := by simp [configured]
          sections := by simp [configured]
          queue := fun x => by cases x <;> simp [configured, State.side]
          waiting := fun x => by cases x <;> simp [configured, State.side]
          config := by simp [configured] }
theorem tabled_startBlocks {s : State} (hs : s.tabled) : (startBlocks s).tabled :=
  tabled_recomputeAll (SameTables.tabled (s := s)
    { spindles := rfl, strips := by simp, flag := rfl, sections := rfl, queue := fun _ => rfl, waiting := fun _ => rfl
      config := rfl } hs)
theorem tabled_setPart {s : State} (hs : s.tabled) (p : PartState) : ({ s with port := { s.port with part := p } } : State).tabled :=
  SameTables.tabled (s := s)
    { spindles := rfl, strips := rfl, flag := rfl, sections := rfl, queue := fun _ => rfl, waiting := fun _ => rfl
      config := rfl } hs
theorem tabled_started {s : State} (hs : s.tabled) : (started s).tabled :=
  have h := tabled_startBlocks (tabled_lineRestart (tabled_removeHold (tabled_setPart hs .running) .notStarted))
  tabled_beside h (by simp [started]) (by simp [started]) (by simp [started]) (by simp [started])
theorem warm_sound (now p : Nat) {r : Spindle} (h : r.sound) : (r.warm now p).sound := by
  obtain ⟨a, b, c⟩ := h
  unfold Spindle.warm
  dsimp only
  split
  · rename_i hl; refine ⟨a, ?_, c⟩; simp [hl]
  · split
    · refine ⟨rfl, rfl, ?_⟩
      dsimp only
      split
      · rename_i hr; rw [c, hr]
      · rfl
    · exact ⟨rfl, rfl, rfl⟩
theorem warm_state (now p : Nat) (r : Spindle) :
    (r.warm now p).state = .locked ∨ (r.warm now p).state = .rogue ∨ (r.warm now p).state = .unseen := by
  unfold Spindle.warm
  dsimp only
  split
  · rename_i hl; exact Or.inl hl
  · split <;> simp
theorem tabled_warmTables {s : State} (hs : s.tabled) (d : Delivery) (sh : ShiftCounter) (l : Line) (now p : Nat) :
    ({ s with del := d, mon := s.mon.warm now p, pie := s.pie.warm, shift := sh, line := l } : State).tabled := by
  obtain ⟨h1, h2, h3, h4⟩ := hs
  set t : State := { s with del := d, mon := s.mon.warm now p, pie := s.pie.warm, shift := sh, line := l } with ht
  have hst : ∀ r ∈ t.mon.spindles, r.state = .locked ∨ r.state = .rogue ∨ r.state = .unseen := by
    intro r hr
    obtain ⟨q, _, rfl⟩ := List.mem_map.1 (show r ∈ s.mon.spindles.map (Spindle.warm now p) from hr)
    exact warm_state _ _ _
  have hsp : ∀ i, (t.sp i).state = .locked ∨ (t.sp i).state = .rogue ∨ (t.sp i).state = .unseen := by
    intro i
    cases hi : t.hasSpindle i with
    | false => rw [sp_eq_blank hi]; simp [Spindle.blank]
    | true => exact hst _ (sp_mem hi)
  refine ⟨?_, ?_, ?_, ?_⟩
  · unfold State.sized at h1 ⊢
    have hc : t.port.config = s.port.config := rfl
    rw [hc]
    cases hcc : s.port.config with
    | none => rw [hcc] at h1; simp [ht, Monitor.warm, h1]
    | some c => rw [hcc] at h1; simp [ht, Monitor.warm, h1]
  · intro r hr
    obtain ⟨q, hq, rfl⟩ := List.mem_map.1 (show r ∈ s.mon.spindles.map (Spindle.warm now p) from hr)
    exact warm_sound _ _ (h2 q hq)
  · intro x
    have hq : (t.side x).queue = [] := by cases x <;> rfl
    have hw : (t.side x).waiting = [] := by cases x <;> rfl
    refine ⟨by rw [hq]; simp, by rw [hq]; simp, by rw [hw]; simp, ?_, ?_⟩
    · intro i; rw [hq]
      rcases hsp i with h | h | h <;> simp [h]
    · intro i; rw [hw]
      rcases hsp i with h | h | h <;> simp [h]
  · have h0 : t.endsDown = 0 := by
      refine List.countP_eq_zero.2 fun r hr => ?_
      rcases hst r hr with h | h | h <;> simp [h, SpState.counts]
    rw [h0]; rfl
theorem tabled_warmCreel {s : State} (hs : s.tabled) : (warmCreel s).tabled := by
  unfold warmCreel
  refine each_keepsProp State.tabled _ _ (fun k _ h => tabled_raiseAlert h _ _ _) ?_
  exact SameTables.tabled (s := s)
    { spindles := rfl, strips := rfl, flag := rfl, sections := by simp [Creel.warm], queue := fun _ => rfl
      waiting := fun _ => rfl, config := rfl } hs
theorem tabled_completeExecuting {s : State} (hs : s.tabled) : (completeExecuting s).tabled := by
  unfold completeExecuting
  split
  · exact tabled_completeClose hs _
  · exact tabled_completeRestart hs _
  · exact hs
theorem tabled_discardSlot {s : State} (hs : s.tabled) : (discardSlot s).tabled := by
  unfold discardSlot
  split
  · exact SameTables.tabled (s := s)
      { spindles := rfl, strips := rfl, flag := rfl, sections := rfl, queue := fun _ => rfl, waiting := fun _ => rfl
        config := rfl } hs
  · exact hs
theorem tabled_warmBlocks {s : State} (hs : s.tabled) : (warmBlocks s).tabled := by
  unfold warmBlocks
  have h := tabled_warmCreel (tabled_warmTables hs s.del.warm s.shift.warm s.line.cleared s.now s.count)
  exact tabled_beside h (by simp) (by simp) (by simp) (by simp)
theorem tabled_warmReset {s : State} (hs : s.tabled) : (warmReset s).tabled :=
  tabled_setPart (tabled_discardSlot (tabled_warmBlocks (tabled_completeExecuting hs))) _
theorem tabled_powerOn (low : Bool) (s : State) : (powerOn low s).tabled := by
  refine ⟨⟨rfl, rfl, rfl⟩, by simp [powerOn, State.reset, Monitor.powerOn], ?_, rfl⟩
  intro x
  have hq : ((powerOn low s).side x).queue = [] := by cases x <;> rfl
  have hw : ((powerOn low s).side x).waiting = [] := by cases x <;> rfl
  have hh : ∀ i, (powerOn low s).hasSpindle i = false := by
    intro i; simp [powerOn, State.reset, Monitor.powerOn, State.hasSpindle]; omega
  refine ⟨by rw [hq]; simp, by rw [hq]; simp, by rw [hw]; simp, ?_, ?_⟩
  · intro i; rw [hq, hh]; simp
  · intro i; rw [hw, hh]; simp
theorem tabled_runActive {s : State} (hs : s.tabled) : (runActive s).tabled :=
  foldl_keepsProp State.tabled _ _ (fun _ x h => by
    split
    · exact tabled_decideNext h x
    · exact h) hs
theorem tabled_takeRun {s : State} (hs : s.tabled) (a : Bool) : (takeRun a s).tabled := by
  unfold takeRun
  have h1 : ({ s with frame := { s.frame with run := a } } : State).tabled := tabled_beside hs rfl rfl rfl rfl
  dsimp only
  split
  · exact hs
  · split
    · split
      · exact tabled_runActive h1
      · exact tabled_beside h1 (by simp) (by simp) (by simp) (by simp)
    · exact h1

end Sys2Proof.Machine
end

