-- ==== Sys2Proof/Laws/LineKept.lean ====
section
/-! SUPPORT. The outgoing queue and the receive buffer stay within their capacities: one lemma per operation that reaches the line
controller (R166, R167). -/

namespace Sys2Proof.Machine

theorem length_insertOutgoing (o : Outgoing) (l : List Outgoing) : (insertOutgoing o l).length = l.length + 1 := by
  induction l with
  | nil => rfl
  | cons q l ih => unfold insertOutgoing; split <;> simp [ih]

theorem lastOfGreater_mem (c : Nat) (l : List Outgoing) (q : Outgoing) (h : lastOfGreater c l = some q) : q ∈ l := by
  have key : ∀ (l : List Outgoing) (b : Option Outgoing), (∀ x, b = some x → x ∈ l ∨ False) → True := fun _ _ _ => trivial
  clear key
  suffices H : ∀ (l : List Outgoing) (b : Option Outgoing),
      l.foldl (fun best q =>
        if c < q.tel.kind.cls then
          match best with
          | none => some q
          | some b => if b.joined < q.joined then some q else some b
        else best) b = some q → q ∈ l ∨ b = some q by
    rcases H l none h with h | h
    · exact h
    · cases h
  intro l
  induction l with
  | nil => intro b hb; exact Or.inr hb
  | cons x l ih =>
    intro b hb
    rcases ih _ hb with h | h
    · exact Or.inl (List.mem_cons_of_mem _ h)
    · dsimp only at h
      split at h
      · split at h
        · cases h; exact Or.inl (List.mem_cons_self ..)
        · split at h
          · cases h; exact Or.inl (List.mem_cons_self ..)
          · exact Or.inr h
      · exact Or.inr h

/-- The queue stays within eight telegrams when one joins it (R166). -/
theorem joined_bounded (t : Telegram) {l : Line} (h : l.bounded) : (joined t l).1.bounded := by
  unfold joined
  dsimp only
  split
  · exact ⟨by simpa using h.1, h.2⟩
  · split
    · rename_i hl; exact ⟨by simp only [length_insertOutgoing]; omega, h.2⟩
    · split
      · rename_i q hq
        have hm := lastOfGreater_mem _ _ _ hq
        refine ⟨?_, h.2⟩
        simp only [length_insertOutgoing, List.length_erase_of_mem hm]
        have := h.1
        have : 0 < l.out.length := List.length_pos_of_mem hm
        omega
      · exact h

@[simp] theorem telegramDropped_lineP {s : State} (hs : Line.bounded s.line) : Line.bounded (telegramDropped s).line :=
  ⟨hs.1, hs.2⟩
@[simp] theorem joinLine_lineP (t : Telegram) {s : State} (hs : Line.bounded s.line) : Line.bounded (joinLine t s).line := by
  unfold joinLine
  dsimp only
  split
  · exact telegramDropped_lineP (s := { s with line := (joined t s.line).1 }) (joined_bounded t hs)
  · exact joined_bounded t hs
@[simp] theorem returnToQueue_lineP (o : Outgoing) {s : State} (hs : Line.bounded s.line) :
    Line.bounded (returnToQueue o s).line := by
  unfold returnToQueue
  split
  · exact hs
  · split
    · rename_i hl; exact ⟨by simp only [length_insertOutgoing]; omega, hs.2⟩
    · exact joinLine_lineP _ hs
@[simp] theorem countLine_lineP (f : LineCounters → LineCounters) {s : State} (hs : Line.bounded s.line) :
    Line.bounded (countLine f s).line := ⟨hs.1, hs.2⟩
@[simp] theorem heard_lineP {s : State} (hs : Line.bounded s.line) : Line.bounded (heard s).line := ⟨hs.1, hs.2⟩
@[simp] theorem popReceived_lineP {s : State} (hs : Line.bounded s.line) : Line.bounded (popReceived s).line :=
  ⟨hs.1, by simp only [popReceived, List.length_drop]; have := hs.2; omega⟩
@[simp] theorem passOver_lineP {s : State} (hs : Line.bounded s.line) : Line.bounded (passOver s).line := by
  unfold passOver
  repeat' split
  all_goals first | exact hs | exact popReceived_lineP hs
@[simp] theorem keep_lineP (bs : List Byte) {s : State} (hs : Line.bounded s.line) : Line.bounded (keep bs s).line := by
  unfold keep
  split
  · rw [(duplicateStation_frame bs s).2.2.2.2.2.1]; exact hs
  · split
    · split
      · exact countLine_lineP _ hs
      · split
        · exact countLine_lineP _ hs
        · rename_i h
          exact ⟨hs.1, by simp only [countLine, List.length_append, List.length_singleton]; omega⟩
    · exact hs
@[simp] theorem gainLine_lineP {s : State} (hs : Line.bounded s.line) : Line.bounded (gainLine s).line := by
  unfold gainLine
  split
  · rename_i o rest _ ho
    split
    · refine ⟨?_, hs.2⟩
      have := hs.1
      rw [ho] at this
      simp at this ⊢
      omega
    · exact hs
  · exact hs
@[simp] theorem handOver_lineP (k : Kind) (f : Telegram → State → State)
    (h : ∀ t s, Line.bounded s.line → Line.bounded (f t s).line) {s : State} (hs : Line.bounded s.line) :
    Line.bounded (handOver k f s).line := by
  unfold handOver
  repeat' split
  · exact h _ _ (popReceived_lineP hs)
  all_goals exact hs
@[simp] theorem takeRestart_lineP (a : Received → Bool) (m : Received → Received) (f : Nat → State → State)
    (h : ∀ n s, Line.bounded s.line → Line.bounded (f n s).line) {s : State} (hs : Line.bounded s.line) :
    Line.bounded (takeRestart a m f s).line := by
  unfold takeRestart
  split
  · rename_i r rest hr
    have h2 := hs.2
    rw [hr] at h2
    simp only [List.length_cons] at h2
    dsimp only
    split
    · refine h _ _ ⟨hs.1, ?_⟩
      dsimp only
      split
      · omega
      · simpa using h2
    · exact hs
  · exact hs

/-! ### Holds, alerts and fault latches -/


/-! ### The outgoing queue -/


@[simp] theorem enqueue_lineP (k : Kind) (d : Nat) (p : List Byte) {s : State} (hs : Line.bounded s.line) : Line.bounded (enqueue k d p s).line := by
  unfold enqueue
  try dsimp only
  (repeat' split) <;>
    first | (simp +contextual (maxDischargeDepth := 20) [hs]; done) | fail


/-! ### Tables -/


/-! ### Folds -/

@[simp] theorem each_lineP (l : List Nat) (f : Nat → State → State) (h : ∀ i s, Line.bounded s.line → Line.bounded (f i s).line)
    {s : State} (hs : Line.bounded s.line) : Line.bounded (each l f s).line :=
  each_keepsProp (fun s => Line.bounded s.line) l f h hs
@[simp] theorem foldl_lineP {β : Type} (l : List β) (f : State → β → State) (h : ∀ s b, Line.bounded s.line → Line.bounded (f s b).line)
    {s : State} (hs : Line.bounded s.line) : Line.bounded (l.foldl f s).line :=
  foldl_keepsProp (fun s => Line.bounded s.line) l f h hs

/-! ### Piecing -/

@[simp] theorem pieceCall_lineP (x : Side) {s : State} (hs : Line.bounded s.line) : Line.bounded (pieceCall x s).line := by
  unfold pieceCall
  try dsimp only
  (repeat' split) <;>
    first | (simp +contextual (maxDischargeDepth := 20) [hs]; done) | fail
@[simp] theorem enterCalling_lineP (x : Side) {s : State} (hs : Line.bounded s.line) : Line.bounded (enterCalling x s).line := by
  unfold enterCalling
  try dsimp only
  (repeat' split) <;>
    first | (simp +contextual (maxDischargeDepth := 20) [hs]; done) | fail
@[simp] theorem callOrIdle_lineP (x : Side) {s : State} (hs : Line.bounded s.line) : Line.bounded (callOrIdle x s).line := by
  unfold callOrIdle
  try dsimp only
  (repeat' split) <;>
    first | (simp +contextual (maxDischargeDepth := 20) [hs]; done) | fail
@[simp] theorem sendRelease_lineP (x : Side) {s : State} (hs : Line.bounded s.line) : Line.bounded (sendRelease x s).line := by
  unfold sendRelease
  try dsimp only
  (repeat' split) <;>
    first | (simp +contextual (maxDischargeDepth := 20) [hs]; done) | fail
@[simp] theorem sendCancel_lineP (x : Side) {s : State} (hs : Line.bounded s.line) : Line.bounded (sendCancel x s).line := by
  unfold sendCancel
  try dsimp only
  (repeat' split) <;>
    first | (simp +contextual (maxDischargeDepth := 20) [hs]; done) | fail
@[simp] theorem issueOrder_lineP (x : Side) (i : Nat) (asc : Bool) {s : State} (hs : Line.bounded s.line) : Line.bounded (issueOrder x i asc s).line := by
  unfold issueOrder
  try dsimp only
  (repeat' split) <;>
    first | (simp +contextual (maxDischargeDepth := 20) [hs]; done) | fail
@[simp] theorem decideNext_lineP (x : Side) {s : State} (hs : Line.bounded s.line) : Line.bounded (decideNext x s).line := by
  unfold decideNext
  try dsimp only
  (repeat' split) <;>
    first | (simp +contextual (maxDischargeDepth := 20) [hs]; done) | fail
@[simp] theorem notifyOne_lineP (s0 : State) (x : Side) {s : State} (hs : Line.bounded s.line) : Line.bounded (notifyOne s0 x s).line := by
  unfold notifyOne
  try dsimp only
  (repeat' split) <;>
    first | (simp +contextual (maxDischargeDepth := 20) [hs]; done) | fail
@[simp] theorem notify_lineP (s0 : State) {s : State} (hs : Line.bounded s.line) : Line.bounded (notify s0 s).line := by
  unfold notify
  try dsimp only
  (repeat' split) <;>
    first | (simp +contextual (maxDischargeDepth := 20) [hs]; done) | fail
@[simp] theorem piecingEvent_lineP (f : State → State) (h : ∀ s, Line.bounded s.line → Line.bounded (f s).line)
    {s : State} (hs : Line.bounded s.line) : Line.bounded (piecingEvent f s).line := by
  unfold piecingEvent
  simp (maxDischargeDepth := 20) [hs, h]
@[simp] theorem withdrawOf_lineP (x : Side) (i : Nat) {s : State} (hs : Line.bounded s.line) : Line.bounded (withdrawOf x i s).line := by
  unfold withdrawOf
  try dsimp only
  (repeat' split) <;>
    first | (simp +contextual (maxDischargeDepth := 20) [hs]; done) | fail
@[simp] theorem withdrawOrder_lineP (i : Nat) {s : State} (hs : Line.bounded s.line) : Line.bounded (withdrawOrder i s).line := by
  unfold withdrawOrder
  try dsimp only
  (repeat' split) <;>
    first | (simp +contextual (maxDischargeDepth := 20) [hs]; done) | fail
@[simp] theorem suspendOne_lineP (x : Side) {s : State} (hs : Line.bounded s.line) : Line.bounded (suspendOne x s).line := by
  unfold suspendOne
  try dsimp only
  (repeat' split) <;>
    first | (simp +contextual (maxDischargeDepth := 20) [hs]; done) | fail
@[simp] theorem suspendEngagements_lineP  {s : State} (hs : Line.bounded s.line) : Line.bounded (suspendEngagements s).line := by
  unfold suspendEngagements
  try dsimp only
  (repeat' split) <;>
    first | (simp +contextual (maxDischargeDepth := 20) [hs]; done) | fail
@[simp] theorem resumeEngagements_lineP {s : State} (hs : Line.bounded s.line) : Line.bounded (resumeEngagements s).line :=
  foldl_lineP _ _ (fun s x h => by split <;> simp (maxDischargeDepth := 20) [h]) hs
@[simp] theorem endEngagement_lineP (x : Side) {s : State} (hs : Line.bounded s.line) : Line.bounded (endEngagement x s).line := by
  unfold endEngagement
  try dsimp only
  (repeat' split) <;>
    first | (simp +contextual (maxDischargeDepth := 20) [hs]; done) | fail
@[simp] theorem restartEngagement_lineP (x : Side) {s : State} (hs : Line.bounded s.line) : Line.bounded (restartEngagement x s).line := by
  unfold restartEngagement
  try dsimp only
  (repeat' split) <;>
    first | (simp +contextual (maxDischargeDepth := 20) [hs]; done) | fail
@[simp] theorem restartPiecing_lineP  {s : State} (hs : Line.bounded s.line) : Line.bounded (restartPiecing s).line := by
  unfold restartPiecing
  try dsimp only
  (repeat' split) <;>
    first | (simp +contextual (maxDischargeDepth := 20) [hs]; done) | fail

/-! ### The creel -/

@[simp] theorem announceDue_lineP  {s : State} (hs : Line.bounded s.line) : Line.bounded (announceDue s).line := by
  unfold announceDue
  try dsimp only
  (repeat' split) <;>
    first | (simp +contextual (maxDischargeDepth := 20) [hs]; done) | fail
@[simp] theorem rebuildDue_lineP  {s : State} (hs : Line.bounded s.line) : Line.bounded (rebuildDue s).line := by
  unfold rebuildDue
  try dsimp only
  (repeat' split) <;>
    first | (simp +contextual (maxDischargeDepth := 20) [hs]; done) | fail
@[simp] theorem recomputeSection_lineP (k : Nat) {s : State} (hs : Line.bounded s.line) : Line.bounded (recomputeSection k s).line := by
  unfold recomputeSection
  try dsimp only
  (repeat' split) <;>
    first | (simp +contextual (maxDischargeDepth := 20) [hs]; done) | fail
@[simp] theorem recomputeAll_lineP  {s : State} (hs : Line.bounded s.line) : Line.bounded (recomputeAll s).line := by
  unfold recomputeAll
  try dsimp only
  (repeat' split) <;>
    first | (simp +contextual (maxDischargeDepth := 20) [hs]; done) | fail
@[simp] theorem recomputeOne_lineP (k : Nat) {s : State} (hs : Line.bounded s.line) : Line.bounded (recomputeOne k s).line := by
  unfold recomputeOne
  try dsimp only
  (repeat' split) <;>
    first | (simp +contextual (maxDischargeDepth := 20) [hs]; done) | fail
@[simp] theorem goneEmpty_lineP (i : Nat) {s : State} (hs : Line.bounded s.line) : Line.bounded (goneEmpty i s).line := by
  unfold goneEmpty
  try dsimp only
  (repeat' split) <;>
    first | (simp +contextual (maxDischargeDepth := 20) [hs]; done) | fail
@[simp] theorem goDown_lineP (k : Placement) (i : Nat) {s : State} (hs : Line.bounded s.line) : Line.bounded (goDown k i s).line := by
  unfold goDown
  try dsimp only
  (repeat' split) <;>
    first | (simp +contextual (maxDischargeDepth := 20) [hs]; done) | fail
@[simp] theorem leaveNormal_lineP (k : Nat) {s : State} (hs : Line.bounded s.line) : Line.bounded (leaveNormal k s).line := by
  unfold leaveNormal
  try dsimp only
  (repeat' split) <;>
    first | (simp +contextual (maxDischargeDepth := 20) [hs]; done) | fail
@[simp] theorem enterNormal_lineP (k : Nat) {s : State} (hs : Line.bounded s.line) : Line.bounded (enterNormal k s).line := by
  unfold enterNormal
  try dsimp only
  (repeat' split) <;>
    first | (simp +contextual (maxDischargeDepth := 20) [hs]; done) | fail
@[simp] theorem freshIf_lineP (w : SpState → Bool) (i : Nat) {s : State} (hs : Line.bounded s.line) : Line.bounded (freshIf w i s).line := by
  unfold freshIf
  try dsimp only
  (repeat' split) <;>
    first | (simp +contextual (maxDischargeDepth := 20) [hs]; done) | fail
@[simp] theorem endLoaded_lineP (k : Nat) {s : State} (hs : Line.bounded s.line) : Line.bounded (endLoaded k s).line := by
  unfold endLoaded
  try dsimp only
  (repeat' split) <;>
    first | (simp +contextual (maxDischargeDepth := 20) [hs]; done) | fail
@[simp] theorem endNotLoaded_lineP (k : Nat) {s : State} (hs : Line.bounded s.line) : Line.bounded (endNotLoaded k s).line := by
  unfold endNotLoaded
  try dsimp only
  (repeat' split) <;>
    first | (simp +contextual (maxDischargeDepth := 20) [hs]; done) | fail
@[simp] theorem endUnknown_lineP (k : Nat) {s : State} (hs : Line.bounded s.line) : Line.bounded (endUnknown k s).line := by
  unfold endUnknown
  try dsimp only
  (repeat' split) <;>
    first | (simp +contextual (maxDischargeDepth := 20) [hs]; done) | fail

/-! ### Robots -/

@[simp] theorem takeOffer_lineP (t : Telegram) {s : State} (hs : Line.bounded s.line) : Line.bounded (takeOffer t s).line := by
  unfold takeOffer
  try dsimp only
  (repeat' split) <;>
    first | (simp +contextual (maxDischargeDepth := 20) [hs]; done) | fail
@[simp] theorem takeArrival_lineP (t : Telegram) {s : State} (hs : Line.bounded s.line) : Line.bounded (takeArrival t s).line := by
  unfold takeArrival
  try dsimp only
  (repeat' split) <;>
    first | (simp +contextual (maxDischargeDepth := 20) [hs]; done) | fail
@[simp] theorem applyResult_lineP (o : WorkOutcome) (i : Nat) {s : State} (hs : Line.bounded s.line) : Line.bounded (applyResult o i s).line := by
  unfold applyResult
  try dsimp only
  (repeat' split) <;>
    first | (simp +contextual (maxDischargeDepth := 20) [hs]; done) | fail
@[simp] theorem matchedResult_lineP (x : Side) (o : Order) (w : WorkOutcome) (p : Nat) {s : State} (hs : Line.bounded s.line) : Line.bounded (matchedResult x o w p s).line := by
  unfold matchedResult
  try dsimp only
  (repeat' split) <;>
    first | (simp +contextual (maxDischargeDepth := 20) [hs]; done) | fail
@[simp] theorem takeResult_lineP (t : Telegram) {s : State} (hs : Line.bounded s.line) : Line.bounded (takeResult t s).line := by
  unfold takeResult
  try dsimp only
  (repeat' split) <;>
    first | (simp +contextual (maxDischargeDepth := 20) [hs]; done) | fail
@[simp] theorem takeWithdraw_lineP (t : Telegram) {s : State} (hs : Line.bounded s.line) : Line.bounded (takeWithdraw t s).line := by
  unfold takeWithdraw
  try dsimp only
  (repeat' split) <;>
    first | (simp +contextual (maxDischargeDepth := 20) [hs]; done) | fail
@[simp] theorem robotRestarted_lineP (r : Nat) {s : State} (hs : Line.bounded s.line) : Line.bounded (robotRestarted r s).line := by
  unfold robotRestarted
  try dsimp only
  (repeat' split) <;>
    first | (simp +contextual (maxDischargeDepth := 20) [hs]; done) | fail
@[simp] theorem robotLost_lineP (x : Side) {s : State} (hs : Line.bounded s.line) : Line.bounded (robotLost x s).line := by
  unfold robotLost
  try dsimp only
  (repeat' split) <;>
    first | (simp +contextual (maxDischargeDepth := 20) [hs]; done) | fail
@[simp] theorem orderTimedOut_lineP (x : Side) (o : Order) {s : State} (hs : Line.bounded s.line) : Line.bounded (orderTimedOut x o s).line := by
  unfold orderTimedOut
  try dsimp only
  (repeat' split) <;>
    first | (simp +contextual (maxDischargeDepth := 20) [hs]; done) | fail

/-! ### Strips -/

@[simp] theorem classifyUp_lineP (i : Nat) (c : ReadClass) {s : State} (hs : Line.bounded s.line) : Line.bounded (classifyUp i c s).line := by
  unfold classifyUp
  try dsimp only
  (repeat' split) <;>
    first | (simp +contextual (maxDischargeDepth := 20) [hs]; done) | fail
@[simp] theorem classifyUnseen_lineP (i : Nat) (c : ReadClass) {s : State} (hs : Line.bounded s.line) : Line.bounded (classifyUnseen i c s).line := by
  unfold classifyUnseen
  try dsimp only
  (repeat' split) <;>
    first | (simp +contextual (maxDischargeDepth := 20) [hs]; done) | fail
@[simp] theorem classifyBroken_lineP (i : Nat) (c : ReadClass) {s : State} (hs : Line.bounded s.line) : Line.bounded (classifyBroken i c s).line := by
  unfold classifyBroken
  try dsimp only
  (repeat' split) <;>
    first | (simp +contextual (maxDischargeDepth := 20) [hs]; done) | fail
@[simp] theorem classifyConfirming_lineP (i : Nat) (c : ReadClass) {s : State} (hs : Line.bounded s.line) : Line.bounded (classifyConfirming i c s).line := by
  unfold classifyConfirming
  try dsimp only
  (repeat' split) <;>
    first | (simp +contextual (maxDischargeDepth := 20) [hs]; done) | fail
@[simp] theorem classify_lineP (i : Nat) {s : State} (hs : Line.bounded s.line) : Line.bounded (classify i s).line := by
  unfold classify
  try dsimp only
  (repeat' split) <;>
    first | (simp +contextual (maxDischargeDepth := 20) [hs]; done) | fail
@[simp] theorem unobserve_lineP (i : Nat) {s : State} (hs : Line.bounded s.line) : Line.bounded (unobserve i s).line := by
  unfold unobserve
  try dsimp only
  (repeat' split) <;>
    first | (simp +contextual (maxDischargeDepth := 20) [hs]; done) | fail
@[simp] theorem failStrip_lineP (k : Nat) {s : State} (hs : Line.bounded s.line) : Line.bounded (failStrip k s).line := by
  unfold failStrip
  try dsimp only
  (repeat' split) <;>
    first | (simp +contextual (maxDischargeDepth := 20) [hs]; done) | fail
@[simp] theorem goodReply_lineP (k : Nat) (l : List Nat) {s : State} (hs : Line.bounded s.line) : Line.bounded (goodReply k l s).line := by
  unfold goodReply
  try dsimp only
  (repeat' split) <;>
    first | (simp +contextual (maxDischargeDepth := 20) [hs]; done) | fail
@[simp] theorem missedReply_lineP (k : Nat) {s : State} (hs : Line.bounded s.line) : Line.bounded (missedReply k s).line := by
  unfold missedReply
  try dsimp only
  (repeat' split) <;>
    first | (simp +contextual (maxDischargeDepth := 20) [hs]; done) | fail

/-! ### Responses -/


/-! ### Shifts -/

@[simp] theorem sweepEnd_lineP (cl : Closing) {s : State} (hs : Line.bounded s.line) : Line.bounded (sweepEnd cl s).line := by
  unfold sweepEnd
  try dsimp only
  (repeat' split) <;>
    first | (simp +contextual (maxDischargeDepth := 20) [hs]; done) | fail
@[simp] theorem sweepOne_lineP  {s : State} (hs : Line.bounded s.line) : Line.bounded (sweepOne s).line := by
  unfold sweepOne
  try dsimp only
  (repeat' split) <;>
    first | (simp +contextual (maxDischargeDepth := 20) [hs]; done) | fail

/-! ### Lockout -/

@[simp] theorem lockRecord_lineP (i : Nat) {s : State} (hs : Line.bounded s.line) : Line.bounded (lockRecord i s).line := by
  unfold lockRecord
  try dsimp only
  (repeat' split) <;>
    first | (simp +contextual (maxDischargeDepth := 20) [hs]; done) | fail
@[simp] theorem rangeRecord_lineP (o n : Option Lockout) (i : Nat) {s : State} (hs : Line.bounded s.line) : Line.bounded (rangeRecord o n i s).line := by
  unfold rangeRecord
  try dsimp only
  (repeat' split) <;>
    first | (simp +contextual (maxDischargeDepth := 20) [hs]; done) | fail
@[simp] theorem applyRange_lineP (n : Option Lockout) {s : State} (hs : Line.bounded s.line) : Line.bounded (applyRange n s).line := by
  unfold applyRange
  try dsimp only
  (repeat' split) <;>
    first | (simp +contextual (maxDischargeDepth := 20) [hs]; done) | fail

/-! ### Carriers -/

@[simp] theorem takeBooking_lineP (t : Telegram) {s : State} (hs : Line.bounded s.line) : Line.bounded (takeBooking t s).line := by
  unfold takeBooking
  try dsimp only
  (repeat' split) <;>
    first | (simp +contextual (maxDischargeDepth := 20) [hs]; done) | fail
@[simp] theorem exchangeRecord_lineP (i : Nat) {s : State} (hs : Line.bounded s.line) : Line.bounded (exchangeRecord i s).line := by
  unfold exchangeRecord
  try dsimp only
  (repeat' split) <;>
    first | (simp +contextual (maxDischargeDepth := 20) [hs]; done) | fail
@[simp] theorem beginExchange_lineP (k n c : Nat) {s : State} (hs : Line.bounded s.line) : Line.bounded (beginExchange k n c s).line := by
  unfold beginExchange
  try dsimp only
  (repeat' split) <;>
    first | (simp +contextual (maxDischargeDepth := 20) [hs]; done) | fail
@[simp] theorem takeExchangeBegin_lineP (t : Telegram) {s : State} (hs : Line.bounded s.line) : Line.bounded (takeExchangeBegin t s).line := by
  unfold takeExchangeBegin
  try dsimp only
  (repeat' split) <;>
    first | (simp +contextual (maxDischargeDepth := 20) [hs]; done) | fail
@[simp] theorem takeExchangeEnd_lineP (t : Telegram) {s : State} (hs : Line.bounded s.line) : Line.bounded (takeExchangeEnd t s).line := by
  unfold takeExchangeEnd
  try dsimp only
  (repeat' split) <;>
    first | (simp +contextual (maxDischargeDepth := 20) [hs]; done) | fail
@[simp] theorem abandonOf_lineP (c k : Nat) {s : State} (hs : Line.bounded s.line) : Line.bounded (abandonOf c k s).line := by
  unfold abandonOf
  try dsimp only
  (repeat' split) <;>
    first | (simp +contextual (maxDischargeDepth := 20) [hs]; done) | fail
@[simp] theorem carrierRestarted_lineP (c : Nat) {s : State} (hs : Line.bounded s.line) : Line.bounded (carrierRestarted c s).line := by
  unfold carrierRestarted
  try dsimp only
  (repeat' split) <;>
    first | (simp +contextual (maxDischargeDepth := 20) [hs]; done) | fail

/-! ### The doff sequencer -/

@[simp] theorem sendClaim_lineP  {s : State} (hs : Line.bounded s.line) : Line.bounded (sendClaim s).line := by
  unfold sendClaim
  try dsimp only
  (repeat' split) <;>
    first | (simp +contextual (maxDischargeDepth := 20) [hs]; done) | fail
@[simp] theorem sendDoffState_lineP  {s : State} (hs : Line.bounded s.line) : Line.bounded (sendDoffState s).line := by
  unfold sendDoffState
  try dsimp only
  (repeat' split) <;>
    first | (simp +contextual (maxDischargeDepth := 20) [hs]; done) | fail
@[simp] theorem claimFull_lineP  {s : State} (hs : Line.bounded s.line) : Line.bounded (claimFull s).line := by
  unfold claimFull
  try dsimp only
  (repeat' split) <;>
    first | (simp +contextual (maxDischargeDepth := 20) [hs]; done) | fail
@[simp] theorem claim_lineP (m : Bool) {s : State} (hs : Line.bounded s.line) : Line.bounded (claim m s).line := by
  unfold claim
  try dsimp only
  (repeat' split) <;>
    first | (simp +contextual (maxDischargeDepth := 20) [hs]; done) | fail
@[simp] theorem fillCheck_lineP  {s : State} (hs : Line.bounded s.line) : Line.bounded (fillCheck s).line := by
  unfold fillCheck
  try dsimp only
  (repeat' split) <;>
    first | (simp +contextual (maxDischargeDepth := 20) [hs]; done) | fail
@[simp] theorem grant_lineP  {s : State} (hs : Line.bounded s.line) : Line.bounded (grant s).line := by
  unfold grant
  try dsimp only
  (repeat' split) <;>
    first | (simp +contextual (maxDischargeDepth := 20) [hs]; done) | fail
@[simp] theorem grantCheck_lineP  {s : State} (hs : Line.bounded s.line) : Line.bounded (grantCheck s).line := by
  unfold grantCheck
  try dsimp only
  (repeat' split) <;>
    first | (simp +contextual (maxDischargeDepth := 20) [hs]; done) | fail
@[simp] theorem withdrawGrant_lineP  {s : State} (hs : Line.bounded s.line) : Line.bounded (withdrawGrant s).line := by
  unfold withdrawGrant
  try dsimp only
  (repeat' split) <;>
    first | (simp +contextual (maxDischargeDepth := 20) [hs]; done) | fail
@[simp] theorem backOffCheck_lineP  {s : State} (hs : Line.bounded s.line) : Line.bounded (backOffCheck s).line := by
  unfold backOffCheck
  try dsimp only
  (repeat' split) <;>
    first | (simp +contextual (maxDischargeDepth := 20) [hs]; done) | fail
@[simp] theorem viewChanged_lineP  {s : State} (hs : Line.bounded s.line) : Line.bounded (viewChanged s).line := by
  unfold viewChanged
  try dsimp only
  (repeat' split) <;>
    first | (simp +contextual (maxDischargeDepth := 20) [hs]; done) | fail
@[simp] theorem takePeer_lineP (p : Peer) {s : State} (hs : Line.bounded s.line) : Line.bounded (takePeer p s).line := by
  unfold takePeer
  try dsimp only
  (repeat' split) <;>
    first | (simp +contextual (maxDischargeDepth := 20) [hs]; done) | fail
@[simp] theorem takeClaim_lineP (t : Telegram) {s : State} (hs : Line.bounded s.line) : Line.bounded (takeClaim t s).line := by
  unfold takeClaim
  try dsimp only
  (repeat' split) <;>
    first | (simp +contextual (maxDischargeDepth := 20) [hs]; done) | fail
@[simp] theorem takeDoffState_lineP (t : Telegram) {s : State} (hs : Line.bounded s.line) : Line.bounded (takeDoffState t s).line := by
  unfold takeDoffState
  try dsimp only
  (repeat' split) <;>
    first | (simp +contextual (maxDischargeDepth := 20) [hs]; done) | fail
@[simp] theorem keepPeers_lineP (k : Peer → Bool) {s : State} (hs : Line.bounded s.line) : Line.bounded (keepPeers k s).line := by
  unfold keepPeers
  try dsimp only
  (repeat' split) <;>
    first | (simp +contextual (maxDischargeDepth := 20) [hs]; done) | fail
@[simp] theorem peerGone_lineP (k : Nat) {s : State} (hs : Line.bounded s.line) : Line.bounded (peerGone k s).line := by
  unfold peerGone
  try dsimp only
  (repeat' split) <;>
    first | (simp +contextual (maxDischargeDepth := 20) [hs]; done) | fail
@[simp] theorem stopTest_lineP  {s : State} (hs : Line.bounded s.line) : Line.bounded (stopTest s).line := by
  unfold stopTest
  try dsimp only
  (repeat' split) <;>
    first | (simp +contextual (maxDischargeDepth := 20) [hs]; done) | fail
@[simp] theorem enterRundown_lineP  {s : State} (hs : Line.bounded s.line) : Line.bounded (enterRundown s).line := by
  unfold enterRundown
  try dsimp only
  (repeat' split) <;>
    first | (simp +contextual (maxDischargeDepth := 20) [hs]; done) | fail
@[simp] theorem announceDoff_lineP  {s : State} (hs : Line.bounded s.line) : Line.bounded (announceDoff s).line := by
  unfold announceDoff
  try dsimp only
  (repeat' split) <;>
    first | (simp +contextual (maxDischargeDepth := 20) [hs]; done) | fail
@[simp] theorem completeDoff_lineP  {s : State} (hs : Line.bounded s.line) : Line.bounded (completeDoff s).line := by
  unfold completeDoff
  try dsimp only
  (repeat' split) <;>
    first | (simp +contextual (maxDischargeDepth := 20) [hs]; done) | fail
@[simp] theorem judge_lineP (n i : Nat) {s : State} (hs : Line.bounded s.line) : Line.bounded (judge n i s).line := by
  unfold judge
  try dsimp only
  (repeat' split) <;>
    first | (simp +contextual (maxDischargeDepth := 20) [hs]; done) | fail
@[simp] theorem settleEnd_lineP  {s : State} (hs : Line.bounded s.line) : Line.bounded (settleEnd s).line := by
  unfold settleEnd
  try dsimp only
  (repeat' split) <;>
    first | (simp +contextual (maxDischargeDepth := 20) [hs]; done) | fail
@[simp] theorem abandon_lineP  {s : State} (hs : Line.bounded s.line) : Line.bounded (abandon s).line := by
  unfold abandon
  try dsimp only
  (repeat' split) <;>
    first | (simp +contextual (maxDischargeDepth := 20) [hs]; done) | fail
@[simp] theorem restartDoff_lineP  {s : State} (hs : Line.bounded s.line) : Line.bounded (restartDoff s).line := by
  unfold restartDoff
  try dsimp only
  (repeat' split) <;>
    first | (simp +contextual (maxDischargeDepth := 20) [hs]; done) | fail

/-! ### The hall line -/



@[simp] theorem received_lineP (bs : List Byte) (b o : Bool) {s : State} (hs : Line.bounded s.line) :
    Line.bounded (received bs b o s).line := by
  have h : ∀ n, Line.bounded { s.line with idle := n, ownSent := none } := fun n => ⟨hs.1, hs.2⟩
  unfold received
  dsimp only
  (repeat' split) <;> simp +contextual (maxDischargeDepth := 20) [h]

@[simp] theorem collide_lineP (o : Outgoing) {s : State} (hs : Line.bounded s.line) : Line.bounded (collide o s).line := by
  have h : Line.bounded { s.line with sending := none } := ⟨hs.1, hs.2⟩
  unfold collide
  dsimp only
  (repeat' split) <;> simp +contextual (maxDischargeDepth := 20) [h]
@[simp] theorem sentWhole_lineP (o : Outgoing) {s : State} (hs : Line.bounded s.line) : Line.bounded (sentWhole o s).line := by
  have h : ∀ n own, Line.bounded { s.line with sending := none, idle := n, ownSent := own } := fun n own => ⟨hs.1, hs.2⟩
  unfold sentWhole
  simp +contextual (maxDischargeDepth := 20) [h]


@[simp] theorem restartCreel_lineP  {s : State} (hs : Line.bounded s.line) : Line.bounded (restartCreel s).line := by
  unfold restartCreel
  try dsimp only
  (repeat' split) <;>
    first | (simp +contextual (maxDischargeDepth := 20) [hs]; done) | fail
@[simp] theorem lineRestart_lineP {s : State} : Line.bounded (lineRestart s).line := by
  have h : Line.bounded s.line.cleared := ⟨by simp [Line.cleared], by simp [Line.cleared]⟩
  unfold lineRestart
  dsimp only
  exact restartDoff_lineP (restartCreel_lineP (restartPiecing_lineP (enqueue_lineP _ _ _ ⟨h.1, h.2⟩)))

/-! ### The clock -/

@[simp] theorem runningSecond_lineP  {s : State} (hs : Line.bounded s.line) : Line.bounded (runningSecond s).line := by
  unfold runningSecond
  try dsimp only
  (repeat' split) <;>
    first | (simp +contextual (maxDischargeDepth := 20) [hs]; done) | fail
@[simp] theorem takeSecond_lineP  {s : State} (hs : Line.bounded s.line) : Line.bounded (takeSecond s).line := by
  unfold takeSecond
  try dsimp only
  (repeat' split) <;>
    first | (simp +contextual (maxDischargeDepth := 20) [hs]; done) | fail

/-! ### Resets -/

@[simp] theorem startBlocks_lineP  {s : State} (hs : Line.bounded s.line) : Line.bounded (startBlocks s).line := by
  unfold startBlocks
  try dsimp only
  (repeat' split) <;>
    first | (simp +contextual (maxDischargeDepth := 20) [hs]; done) | fail
@[simp] theorem started_lineP  {s : State} (hs : Line.bounded s.line) : Line.bounded (started s).line := by
  unfold started
  try dsimp only
  (repeat' split) <;>
    first | (simp +contextual (maxDischargeDepth := 20) [hs]; done) | fail
@[simp] theorem warmBlocks_lineP {s : State} : Line.bounded (warmBlocks s).line := by
  have h : Line.bounded s.line.cleared := ⟨by simp [Line.cleared], by simp [Line.cleared]⟩
  unfold warmBlocks
  simp [h]
@[simp] theorem warmReset_lineP  {s : State} (hs : Line.bounded s.line) : Line.bounded (warmReset s).line := by
  unfold warmReset
  try dsimp only
  (repeat' split) <;>
    first | (simp +contextual (maxDischargeDepth := 20) [hs]; done) | fail

/-! ### Inputs and port -/

@[simp] theorem runActive_lineP {s : State} (hs : Line.bounded s.line) : Line.bounded (runActive s).line :=
  foldl_lineP _ _ (fun s x h => by split <;> simp (maxDischargeDepth := 20) [h]) hs
@[simp] theorem takeRun_lineP (a : Bool) {s : State} (hs : Line.bounded s.line) : Line.bounded (takeRun a s).line := by
  unfold takeRun
  try dsimp only
  (repeat' split) <;>
    first | (simp +contextual (maxDischargeDepth := 20) [hs]; done) | fail
end Sys2Proof.Machine
end

