-- ==== Sys2Proof/Laws/FrameKept.lean ====
section
/-! SUPPORT. The frame interface: every operation keeps the alert list's and the hold-cause set's rules (R177, R178), and leaves
the frame's inputs, latches and the two causes of the part state and the host alone, but for those that own them. -/

namespace Sys2Proof.Machine

/-! ### Raising an alert (R178) -/

theorem alert_is (code : AlertCode) (subject : Option Nat) (a : Alert) :
    Alert.is code subject a = true ↔ (a.code, a.subject) = (code, subject) := by
  simp [Alert.is]

theorem dropLastSuch_sublist {α : Type} (p : α → Bool) (l : List α) : (dropLastSuch p l).Sublist l := by
  have h := (List.eraseP_sublist (p := p) (l := l.reverse)).reverse
  simpa [dropLastSuch] using h

theorem dropLastSuch_length {α : Type} (p : α → Bool) (l : List α) (h : l.any p = true) :
    (dropLastSuch p l).length + 1 = l.length := by
  obtain ⟨a, ha, hp⟩ := List.any_eq_true.1 h
  have hl : 0 < l.length := List.length_pos_of_mem ha
  have := List.length_eraseP_of_mem (List.mem_reverse.2 ha) hp
  simp only [dropLastSuch, List.length_reverse] at this ⊢
  omega

/-- The list after an alert is raised keeps R178's rules. -/
theorem alertsRaised_listed (code : AlertCode) (cls : AlertClass) (subject : Option Nat) (now : Nat) {f : Frame}
    (h : f.listed) : Frame.listed { f with alerts := (alertsRaised code cls subject now f).1 } := by
  obtain ⟨h1, h2, h3⟩ := h
  have fresh : ∀ l : List Alert, l.Sublist f.alerts → f.alerts.any (Alert.is code subject) = false →
      l.length < Config.alertCapacity →
      Frame.listed { f with alerts := l ++ [{ code := code, cls := cls, subject := subject, raised := now, repeats := 1 }] } := by
    intro l hl hn hc
    refine ⟨by simp; omega, ?_, ?_⟩
    · simp only [List.map_append, List.map_cons, List.map_nil]
      rw [List.nodup_append]
      refine ⟨h2.sublist (hl.map _), by simp, ?_⟩
      intro a ha b hb
      obtain ⟨x, hx, rfl⟩ := List.mem_map.1 ha
      rw [List.mem_singleton.1 hb]
      intro e
      have : f.alerts.any (Alert.is code subject) = true :=
        List.any_eq_true.2 ⟨x, hl.subset hx, (alert_is _ _ _).2 e⟩
      rw [this] at hn; cases hn
    · intro a ha
      rcases List.mem_append.1 ha with ha | ha
      · exact h3 a (hl.subset ha)
      · rw [List.mem_singleton.1 ha]; simp [Config.max8]
  unfold alertsRaised
  dsimp only
  split
  · refine ⟨by simpa using h1, ?_, ?_⟩
    · have : (f.alerts.map fun a => if Alert.is code subject a = true then
          { a with repeats := addCapped Config.max8 a.repeats 1 } else a).map (fun a => (a.code, a.subject)) =
          f.alerts.map (fun a => (a.code, a.subject)) := by
        rw [List.map_map]
        refine List.map_congr_left fun a _ => ?_
        simp only [Function.comp_apply]
        split <;> rfl
      rw [this]; exact h2
    · intro a ha
      obtain ⟨x, hx, rfl⟩ := List.mem_map.1 ha
      have := h3 x hx
      split
      · simp only [addCapped, Config.max8] at this ⊢; omega
      · exact this
  · rename_i hn
    have hn' : f.alerts.any (Alert.is code subject) = false := by simpa using hn
    split
    · rename_i hc; exact fresh _ (List.Sublist.refl _) hn' hc
    · split
      · rename_i hc
        have hc' := Bool.and_eq_true_iff.1 hc
        have := dropLastSuch_length _ _ hc'.2
        exact fresh _ (dropLastSuch_sublist _ _) hn' (by omega)
      · exact ⟨h1, h2, h3⟩

theorem raised_sound (code : AlertCode) (cls : AlertClass) (subject : Option Nat) (now : Nat) {f : Frame}
    (h : f.sound) : (f.raised code cls subject now).sound :=
  ⟨alertsRaised_listed code cls subject now h.1, rfl⟩

/-! ### Holds, alerts and fault latches -/

@[simp] theorem addHold_frameP (c : HoldCause) (hc : c ≠ .alertStop) {s : State} (hs : Frame.sound s.frame) :
    Frame.sound (addHold c s).frame := by
  cases c <;> first | exact absurd rfl hc | exact hs
@[simp] theorem addHold_inputs (c : HoldCause) (s : State) :
    (addHold c s).frame.run = s.frame.run ∧ (addHold c s).frame.maint = s.frame.maint ∧
    (addHold c s).frame.levels = s.frame.levels ∧ (addHold c s).frame.latches = s.frame.latches ∧
    (addHold c s).frame.resetLow = s.frame.resetLow := ⟨rfl, rfl, rfl, rfl, rfl⟩
@[simp] theorem addHold_notStarted (c : HoldCause) (h : c ≠ .notStarted) (s : State) :
    (addHold c s).frame.holds.notStarted = s.frame.holds.notStarted := by
  cases c <;> first | exact absurd rfl h | rfl
@[simp] theorem addHold_hostHold (c : HoldCause) (h : c ≠ .hostHold) (s : State) :
    (addHold c s).frame.holds.hostHold = s.frame.holds.hostHold := by
  cases c <;> first | exact absurd rfl h | rfl
@[simp] theorem removeHold_frameP (c : HoldCause) (hc : c ≠ .alertStop) {s : State} (hs : Frame.sound s.frame) :
    Frame.sound (removeHold c s).frame := by
  cases c <;> first | exact absurd rfl hc | exact hs
@[simp] theorem removeHold_inputs (c : HoldCause) (s : State) :
    (removeHold c s).frame.run = s.frame.run ∧ (removeHold c s).frame.maint = s.frame.maint ∧
    (removeHold c s).frame.levels = s.frame.levels ∧ (removeHold c s).frame.latches = s.frame.latches ∧
    (removeHold c s).frame.resetLow = s.frame.resetLow := ⟨rfl, rfl, rfl, rfl, rfl⟩
@[simp] theorem removeHold_notStarted (c : HoldCause) (h : c ≠ .notStarted) (s : State) :
    (removeHold c s).frame.holds.notStarted = s.frame.holds.notStarted := by
  cases c <;> first | exact absurd rfl h | rfl
@[simp] theorem removeHold_hostHold (c : HoldCause) (h : c ≠ .hostHold) (s : State) :
    (removeHold c s).frame.holds.hostHold = s.frame.holds.hostHold := by
  cases c <;> first | exact absurd rfl h | rfl
@[simp] theorem raiseAlert_frameP (code : AlertCode) (cls : AlertClass) (subject : Option Nat) {s : State}
    (hs : Frame.sound s.frame) : Frame.sound (raiseAlert code cls subject s).frame := raised_sound _ _ _ _ hs
@[simp] theorem raiseAlert_inputs (code : AlertCode) (cls : AlertClass) (subject : Option Nat) (s : State) :
    (raiseAlert code cls subject s).frame.run = s.frame.run ∧
    (raiseAlert code cls subject s).frame.maint = s.frame.maint ∧
    (raiseAlert code cls subject s).frame.levels = s.frame.levels ∧
    (raiseAlert code cls subject s).frame.latches = s.frame.latches ∧
    (raiseAlert code cls subject s).frame.resetLow = s.frame.resetLow ∧
    (raiseAlert code cls subject s).frame.holds.notStarted = s.frame.holds.notStarted ∧
    (raiseAlert code cls subject s).frame.holds.hostHold = s.frame.holds.hostHold := ⟨rfl, rfl, rfl, rfl, rfl, rfl, rfl⟩
@[simp] theorem setLatch_frameP (n : Nat) (v : Bool) {s : State} (hs : Frame.sound s.frame) :
    Frame.sound (setLatch n v s).frame := hs
@[simp] theorem setLatch_inputs (n : Nat) (v : Bool) (s : State) :
    (setLatch n v s).frame.run = s.frame.run ∧ (setLatch n v s).frame.maint = s.frame.maint ∧
    (setLatch n v s).frame.levels = s.frame.levels ∧ (setLatch n v s).frame.resetLow = s.frame.resetLow ∧
    (setLatch n v s).frame.holds.notStarted = s.frame.holds.notStarted ∧
    (setLatch n v s).frame.holds.hostHold = s.frame.holds.hostHold := by simp [setLatch]
@[simp] theorem fault_ne_alertStop (n : Nat) : HoldCause.fault n ≠ .alertStop := by
  rcases n with _ | _ | _ | n <;> simp [HoldCause.fault]
@[simp] theorem fault_ne_notStarted (n : Nat) : HoldCause.fault n ≠ .notStarted := by
  rcases n with _ | _ | _ | n <;> simp [HoldCause.fault]
@[simp] theorem fault_ne_hostHold (n : Nat) : HoldCause.fault n ≠ .hostHold := by
  rcases n with _ | _ | _ | n <;> simp [HoldCause.fault]
@[simp] theorem activeEdge_frameP (n : Nat) (f : FaultSetup) {s : State} (hs : Frame.sound s.frame) :
    Frame.sound (activeEdge n f s).frame := by
  unfold activeEdge
  dsimp only
  split <;> simp (maxDischargeDepth := 20) [hs]
@[simp] theorem activeEdge_inputs (n : Nat) (f : FaultSetup) (s : State) :
    (activeEdge n f s).frame.run = s.frame.run ∧ (activeEdge n f s).frame.maint = s.frame.maint ∧
    (activeEdge n f s).frame.levels = s.frame.levels ∧ (activeEdge n f s).frame.resetLow = s.frame.resetLow ∧
    (activeEdge n f s).frame.holds.notStarted = s.frame.holds.notStarted ∧
    (activeEdge n f s).frame.holds.hostHold = s.frame.holds.hostHold := by
  unfold activeEdge
  try dsimp only
  (repeat' split) <;> simp
@[simp] theorem clearLatch_frameP (n : Nat) (f : FaultSetup) {s : State} (hs : Frame.sound s.frame) :
    Frame.sound (clearLatch n f s).frame := by
  unfold clearLatch
  try dsimp only
  (repeat' split) <;> first | (simp +contextual (maxDischargeDepth := 20) [hs]; done) | fail
@[simp] theorem clearLatch_inputs (n : Nat) (f : FaultSetup) (s : State) :
    (clearLatch n f s).frame.run = s.frame.run ∧ (clearLatch n f s).frame.maint = s.frame.maint ∧
    (clearLatch n f s).frame.levels = s.frame.levels ∧ (clearLatch n f s).frame.resetLow = s.frame.resetLow ∧
    (clearLatch n f s).frame.holds.notStarted = s.frame.holds.notStarted ∧
    (clearLatch n f s).frame.holds.hostHold = s.frame.holds.hostHold := by
  unfold clearLatch
  try dsimp only
  (repeat' split) <;> simp
@[simp] theorem resampleOne_frameP (n : Nat) {s : State} (hs : Frame.sound s.frame) :
    Frame.sound (resampleOne n s).frame := by
  unfold resampleOne
  try dsimp only
  (repeat' split) <;> first | (simp +contextual (maxDischargeDepth := 20) [hs]; done) | fail
@[simp] theorem resampleOne_inputs (n : Nat) (s : State) :
    (resampleOne n s).frame.run = s.frame.run ∧ (resampleOne n s).frame.maint = s.frame.maint ∧
    (resampleOne n s).frame.levels = s.frame.levels ∧ (resampleOne n s).frame.resetLow = s.frame.resetLow ∧
    (resampleOne n s).frame.holds.notStarted = s.frame.holds.notStarted ∧
    (resampleOne n s).frame.holds.hostHold = s.frame.holds.hostHold := by
  unfold resampleOne
  try dsimp only
  (repeat' split) <;> simp
@[simp] theorem resampleFaults_frameP  {s : State} (hs : Frame.sound s.frame) :
    Frame.sound (resampleFaults s).frame := by
  unfold resampleFaults
  try dsimp only
  (repeat' split) <;> first | (simp +contextual (maxDischargeDepth := 20) [hs]; done) | fail
@[simp] theorem resampleFaults_inputs (s : State) :
    (resampleFaults s).frame.run = s.frame.run ∧ (resampleFaults s).frame.maint = s.frame.maint ∧
    (resampleFaults s).frame.levels = s.frame.levels ∧ (resampleFaults s).frame.resetLow = s.frame.resetLow ∧
    (resampleFaults s).frame.holds.notStarted = s.frame.holds.notStarted ∧
    (resampleFaults s).frame.holds.hostHold = s.frame.holds.hostHold := by
  unfold resampleFaults
  try dsimp only
  (repeat' split) <;> simp

/-! ### The outgoing queue -/

@[simp] theorem telegramDropped_frameP  {s : State} (hs : Frame.sound s.frame) :
    Frame.sound (telegramDropped s).frame := by
  unfold telegramDropped
  try dsimp only
  (repeat' split) <;> first | (simp +contextual (maxDischargeDepth := 20) [hs]; done) | fail
@[simp] theorem telegramDropped_inputs (s : State) :
    (telegramDropped s).frame.run = s.frame.run ∧ (telegramDropped s).frame.maint = s.frame.maint ∧
    (telegramDropped s).frame.levels = s.frame.levels ∧ (telegramDropped s).frame.latches = s.frame.latches ∧
    (telegramDropped s).frame.resetLow = s.frame.resetLow ∧
    (telegramDropped s).frame.holds.notStarted = s.frame.holds.notStarted ∧
    (telegramDropped s).frame.holds.hostHold = s.frame.holds.hostHold := by
  unfold telegramDropped
  try dsimp only
  (repeat' split) <;> simp
@[simp] theorem joinLine_frameP (t : Telegram) {s : State} (hs : Frame.sound s.frame) :
    Frame.sound (joinLine t s).frame := by
  unfold joinLine
  try dsimp only
  (repeat' split) <;> first | (simp +contextual (maxDischargeDepth := 20) [hs]; done) | fail
@[simp] theorem joinLine_inputs (t : Telegram) (s : State) :
    (joinLine t s).frame.run = s.frame.run ∧ (joinLine t s).frame.maint = s.frame.maint ∧
    (joinLine t s).frame.levels = s.frame.levels ∧ (joinLine t s).frame.latches = s.frame.latches ∧
    (joinLine t s).frame.resetLow = s.frame.resetLow ∧
    (joinLine t s).frame.holds.notStarted = s.frame.holds.notStarted ∧
    (joinLine t s).frame.holds.hostHold = s.frame.holds.hostHold := by
  unfold joinLine
  try dsimp only
  (repeat' split) <;> simp
@[simp] theorem enqueue_frameP (k : Kind) (d : Nat) (p : List Byte) {s : State} (hs : Frame.sound s.frame) :
    Frame.sound (enqueue k d p s).frame := by
  unfold enqueue
  try dsimp only
  (repeat' split) <;> first | (simp +contextual (maxDischargeDepth := 20) [hs]; done) | fail
@[simp] theorem enqueue_inputs (k : Kind) (d : Nat) (p : List Byte) (s : State) :
    (enqueue k d p s).frame.run = s.frame.run ∧ (enqueue k d p s).frame.maint = s.frame.maint ∧
    (enqueue k d p s).frame.levels = s.frame.levels ∧ (enqueue k d p s).frame.latches = s.frame.latches ∧
    (enqueue k d p s).frame.resetLow = s.frame.resetLow ∧
    (enqueue k d p s).frame.holds.notStarted = s.frame.holds.notStarted ∧
    (enqueue k d p s).frame.holds.hostHold = s.frame.holds.hostHold := by
  unfold enqueue
  try dsimp only
  (repeat' split) <;> simp
@[simp] theorem returnToQueue_frameP (o : Outgoing) {s : State} (hs : Frame.sound s.frame) :
    Frame.sound (returnToQueue o s).frame := by
  unfold returnToQueue
  try dsimp only
  (repeat' split) <;> first | (simp +contextual (maxDischargeDepth := 20) [hs]; done) | fail
@[simp] theorem returnToQueue_inputs (o : Outgoing) (s : State) :
    (returnToQueue o s).frame.run = s.frame.run ∧ (returnToQueue o s).frame.maint = s.frame.maint ∧
    (returnToQueue o s).frame.levels = s.frame.levels ∧ (returnToQueue o s).frame.latches = s.frame.latches ∧
    (returnToQueue o s).frame.resetLow = s.frame.resetLow ∧
    (returnToQueue o s).frame.holds.notStarted = s.frame.holds.notStarted ∧
    (returnToQueue o s).frame.holds.hostHold = s.frame.holds.hostHold := by
  unfold returnToQueue
  try dsimp only
  (repeat' split) <;> simp

/-! ### Tables -/

@[simp] theorem endsDownCheck_frameP  {s : State} (hs : Frame.sound s.frame) :
    Frame.sound (endsDownCheck s).frame := by
  unfold endsDownCheck
  try dsimp only
  (repeat' split) <;> first | (simp +contextual (maxDischargeDepth := 20) [hs]; done) | fail
@[simp] theorem endsDownCheck_inputs (s : State) :
    (endsDownCheck s).frame.run = s.frame.run ∧ (endsDownCheck s).frame.maint = s.frame.maint ∧
    (endsDownCheck s).frame.levels = s.frame.levels ∧ (endsDownCheck s).frame.latches = s.frame.latches ∧
    (endsDownCheck s).frame.resetLow = s.frame.resetLow ∧
    (endsDownCheck s).frame.holds.notStarted = s.frame.holds.notStarted ∧
    (endsDownCheck s).frame.holds.hostHold = s.frame.holds.hostHold := by
  unfold endsDownCheck
  try dsimp only
  (repeat' split) <;> simp
@[simp] theorem enter_frameP (i : Nat) (st : SpState) {s : State} (hs : Frame.sound s.frame) :
    Frame.sound (enter i st s).frame := by
  unfold enter
  try dsimp only
  (repeat' split) <;> first | (simp +contextual (maxDischargeDepth := 20) [hs]; done) | fail
@[simp] theorem enter_inputs (i : Nat) (st : SpState) (s : State) :
    (enter i st s).frame.run = s.frame.run ∧ (enter i st s).frame.maint = s.frame.maint ∧
    (enter i st s).frame.levels = s.frame.levels ∧ (enter i st s).frame.latches = s.frame.latches ∧
    (enter i st s).frame.resetLow = s.frame.resetLow ∧
    (enter i st s).frame.holds.notStarted = s.frame.holds.notStarted ∧
    (enter i st s).frame.holds.hostHold = s.frame.holds.hostHold := by
  unfold enter
  try dsimp only
  (repeat' split) <;> simp
@[simp] theorem bookEnter_frameP (i : Nat) (st : SpState) {s : State} (hs : Frame.sound s.frame) :
    Frame.sound (bookEnter i st s).frame := by
  unfold bookEnter
  try dsimp only
  (repeat' split) <;> first | (simp +contextual (maxDischargeDepth := 20) [hs]; done) | fail
@[simp] theorem bookEnter_inputs (i : Nat) (st : SpState) (s : State) :
    (bookEnter i st s).frame.run = s.frame.run ∧ (bookEnter i st s).frame.maint = s.frame.maint ∧
    (bookEnter i st s).frame.levels = s.frame.levels ∧ (bookEnter i st s).frame.latches = s.frame.latches ∧
    (bookEnter i st s).frame.resetLow = s.frame.resetLow ∧
    (bookEnter i st s).frame.holds.notStarted = s.frame.holds.notStarted ∧
    (bookEnter i st s).frame.holds.hostHold = s.frame.holds.hostHold := by
  unfold bookEnter
  try dsimp only
  (repeat' split) <;> simp

/-! ### Folds -/

@[simp] theorem each_frameP (l : List Nat) (f : Nat → State → State)
    (h : ∀ i s, Frame.sound s.frame → Frame.sound (f i s).frame) {s : State} (hs : Frame.sound s.frame) :
    Frame.sound (each l f s).frame := each_keepsProp (fun s => Frame.sound s.frame) l f h hs
@[simp] theorem foldl_frameP {β : Type} (l : List β) (f : State → β → State)
    (h : ∀ s b, Frame.sound s.frame → Frame.sound (f s b).frame) {s : State} (hs : Frame.sound s.frame) :
    Frame.sound (l.foldl f s).frame := foldl_keepsProp (fun s => Frame.sound s.frame) l f h hs
@[simp] theorem each_run (l : List Nat) (f : Nat → State → State) (h : ∀ i s, (f i s).frame.run = s.frame.run)
    (s : State) : (each l f s).frame.run = s.frame.run := each_keeps (fun s => s.frame.run) l f h s
@[simp] theorem foldl_run {β : Type} (l : List β) (f : State → β → State) (h : ∀ s b, (f s b).frame.run = s.frame.run)
    (s : State) : (l.foldl f s).frame.run = s.frame.run := foldl_keeps (fun s => s.frame.run) l f h s
@[simp] theorem each_maint (l : List Nat) (f : Nat → State → State) (h : ∀ i s, (f i s).frame.maint = s.frame.maint)
    (s : State) : (each l f s).frame.maint = s.frame.maint := each_keeps (fun s => s.frame.maint) l f h s
@[simp] theorem foldl_maint {β : Type} (l : List β) (f : State → β → State) (h : ∀ s b, (f s b).frame.maint = s.frame.maint)
    (s : State) : (l.foldl f s).frame.maint = s.frame.maint := foldl_keeps (fun s => s.frame.maint) l f h s
@[simp] theorem each_levels (l : List Nat) (f : Nat → State → State) (h : ∀ i s, (f i s).frame.levels = s.frame.levels)
    (s : State) : (each l f s).frame.levels = s.frame.levels := each_keeps (fun s => s.frame.levels) l f h s
@[simp] theorem foldl_levels {β : Type} (l : List β) (f : State → β → State) (h : ∀ s b, (f s b).frame.levels = s.frame.levels)
    (s : State) : (l.foldl f s).frame.levels = s.frame.levels := foldl_keeps (fun s => s.frame.levels) l f h s
@[simp] theorem each_latches (l : List Nat) (f : Nat → State → State) (h : ∀ i s, (f i s).frame.latches = s.frame.latches)
    (s : State) : (each l f s).frame.latches = s.frame.latches := each_keeps (fun s => s.frame.latches) l f h s
@[simp] theorem foldl_latches {β : Type} (l : List β) (f : State → β → State) (h : ∀ s b, (f s b).frame.latches = s.frame.latches)
    (s : State) : (l.foldl f s).frame.latches = s.frame.latches := foldl_keeps (fun s => s.frame.latches) l f h s
@[simp] theorem each_resetLow (l : List Nat) (f : Nat → State → State) (h : ∀ i s, (f i s).frame.resetLow = s.frame.resetLow)
    (s : State) : (each l f s).frame.resetLow = s.frame.resetLow := each_keeps (fun s => s.frame.resetLow) l f h s
@[simp] theorem foldl_resetLow {β : Type} (l : List β) (f : State → β → State) (h : ∀ s b, (f s b).frame.resetLow = s.frame.resetLow)
    (s : State) : (l.foldl f s).frame.resetLow = s.frame.resetLow := foldl_keeps (fun s => s.frame.resetLow) l f h s
@[simp] theorem each_notStarted (l : List Nat) (f : Nat → State → State) (h : ∀ i s, (f i s).frame.holds.notStarted = s.frame.holds.notStarted)
    (s : State) : (each l f s).frame.holds.notStarted = s.frame.holds.notStarted := each_keeps (fun s => s.frame.holds.notStarted) l f h s
@[simp] theorem foldl_notStarted {β : Type} (l : List β) (f : State → β → State) (h : ∀ s b, (f s b).frame.holds.notStarted = s.frame.holds.notStarted)
    (s : State) : (l.foldl f s).frame.holds.notStarted = s.frame.holds.notStarted := foldl_keeps (fun s => s.frame.holds.notStarted) l f h s
@[simp] theorem each_hostHold (l : List Nat) (f : Nat → State → State) (h : ∀ i s, (f i s).frame.holds.hostHold = s.frame.holds.hostHold)
    (s : State) : (each l f s).frame.holds.hostHold = s.frame.holds.hostHold := each_keeps (fun s => s.frame.holds.hostHold) l f h s
@[simp] theorem foldl_hostHold {β : Type} (l : List β) (f : State → β → State) (h : ∀ s b, (f s b).frame.holds.hostHold = s.frame.holds.hostHold)
    (s : State) : (l.foldl f s).frame.holds.hostHold = s.frame.holds.hostHold := foldl_keeps (fun s => s.frame.holds.hostHold) l f h s

/-! ### Piecing -/

@[simp] theorem joinQueue_frameP (i : Nat) {s : State} (hs : Frame.sound s.frame) :
    Frame.sound (joinQueue i s).frame := by
  unfold joinQueue
  try dsimp only
  (repeat' split) <;> first | (simp +contextual (maxDischargeDepth := 20) [hs]; done) | fail
@[simp] theorem joinQueue_inputs (i : Nat) (s : State) :
    (joinQueue i s).frame.run = s.frame.run ∧ (joinQueue i s).frame.maint = s.frame.maint ∧
    (joinQueue i s).frame.levels = s.frame.levels ∧ (joinQueue i s).frame.latches = s.frame.latches ∧
    (joinQueue i s).frame.resetLow = s.frame.resetLow ∧
    (joinQueue i s).frame.holds.notStarted = s.frame.holds.notStarted ∧
    (joinQueue i s).frame.holds.hostHold = s.frame.holds.hostHold := by
  unfold joinQueue
  try dsimp only
  (repeat' split) <;> simp
@[simp] theorem refillSide_frameP (n : Nat) (x : Side) {s : State} (hs : Frame.sound s.frame) :
    Frame.sound (refillSide n x s).frame := by
  induction n generalizing s with
  | zero => exact hs
  | succ n ih =>
    unfold refillSide
    (repeat' split) <;> simp (maxDischargeDepth := 20) [hs, ih]
@[simp] theorem refillSide_inputs (n : Nat) (x : Side) (s : State) :
    (refillSide n x s).frame.run = s.frame.run ∧ (refillSide n x s).frame.maint = s.frame.maint ∧
    (refillSide n x s).frame.levels = s.frame.levels ∧ (refillSide n x s).frame.latches = s.frame.latches ∧
    (refillSide n x s).frame.resetLow = s.frame.resetLow ∧
    (refillSide n x s).frame.holds.notStarted = s.frame.holds.notStarted ∧
    (refillSide n x s).frame.holds.hostHold = s.frame.holds.hostHold := by
  induction n generalizing s with
  | zero => simp [refillSide]
  | succ n ih =>
    unfold refillSide
    (repeat' split) <;> simp [ih]
@[simp] theorem refill_frameP  {s : State} (hs : Frame.sound s.frame) :
    Frame.sound (refill s).frame := by
  unfold refill
  try dsimp only
  (repeat' split) <;> first | (simp +contextual (maxDischargeDepth := 20) [hs]; done) | fail
@[simp] theorem refill_inputs (s : State) :
    (refill s).frame.run = s.frame.run ∧ (refill s).frame.maint = s.frame.maint ∧
    (refill s).frame.levels = s.frame.levels ∧ (refill s).frame.latches = s.frame.latches ∧
    (refill s).frame.resetLow = s.frame.resetLow ∧ (refill s).frame.holds.notStarted = s.frame.holds.notStarted ∧
    (refill s).frame.holds.hostHold = s.frame.holds.hostHold := by
  unfold refill
  try dsimp only
  (repeat' split) <;> simp
@[simp] theorem makeRogue_frameP (i : Nat) {s : State} (hs : Frame.sound s.frame) :
    Frame.sound (makeRogue i s).frame := by
  unfold makeRogue
  try dsimp only
  (repeat' split) <;> first | (simp +contextual (maxDischargeDepth := 20) [hs]; done) | fail
@[simp] theorem makeRogue_inputs (i : Nat) (s : State) :
    (makeRogue i s).frame.run = s.frame.run ∧ (makeRogue i s).frame.maint = s.frame.maint ∧
    (makeRogue i s).frame.levels = s.frame.levels ∧ (makeRogue i s).frame.latches = s.frame.latches ∧
    (makeRogue i s).frame.resetLow = s.frame.resetLow ∧
    (makeRogue i s).frame.holds.notStarted = s.frame.holds.notStarted ∧
    (makeRogue i s).frame.holds.hostHold = s.frame.holds.hostHold := by
  unfold makeRogue
  try dsimp only
  (repeat' split) <;> simp
@[simp] theorem place_frameP (k : Placement) (i : Nat) {s : State} (hs : Frame.sound s.frame) :
    Frame.sound (place k i s).frame := by
  unfold place
  try dsimp only
  (repeat' split) <;> first | (simp +contextual (maxDischargeDepth := 20) [hs]; done) | fail
@[simp] theorem place_inputs (k : Placement) (i : Nat) (s : State) :
    (place k i s).frame.run = s.frame.run ∧ (place k i s).frame.maint = s.frame.maint ∧
    (place k i s).frame.levels = s.frame.levels ∧ (place k i s).frame.latches = s.frame.latches ∧
    (place k i s).frame.resetLow = s.frame.resetLow ∧
    (place k i s).frame.holds.notStarted = s.frame.holds.notStarted ∧
    (place k i s).frame.holds.hostHold = s.frame.holds.hostHold := by
  unfold place
  try dsimp only
  (repeat' split) <;> simp
@[simp] theorem failedPiecing_frameP (i : Nat) {s : State} (hs : Frame.sound s.frame) :
    Frame.sound (failedPiecing i s).frame := by
  unfold failedPiecing
  try dsimp only
  (repeat' split) <;> first | (simp +contextual (maxDischargeDepth := 20) [hs]; done) | fail
@[simp] theorem failedPiecing_inputs (i : Nat) (s : State) :
    (failedPiecing i s).frame.run = s.frame.run ∧ (failedPiecing i s).frame.maint = s.frame.maint ∧
    (failedPiecing i s).frame.levels = s.frame.levels ∧ (failedPiecing i s).frame.latches = s.frame.latches ∧
    (failedPiecing i s).frame.resetLow = s.frame.resetLow ∧
    (failedPiecing i s).frame.holds.notStarted = s.frame.holds.notStarted ∧
    (failedPiecing i s).frame.holds.hostHold = s.frame.holds.hostHold := by
  unfold failedPiecing
  try dsimp only
  (repeat' split) <;> simp
@[simp] theorem returnToPiecing_frameP (i : Nat) {s : State} (hs : Frame.sound s.frame) :
    Frame.sound (returnToPiecing i s).frame := by
  unfold returnToPiecing
  try dsimp only
  (repeat' split) <;> first | (simp +contextual (maxDischargeDepth := 20) [hs]; done) | fail
@[simp] theorem returnToPiecing_inputs (i : Nat) (s : State) :
    (returnToPiecing i s).frame.run = s.frame.run ∧ (returnToPiecing i s).frame.maint = s.frame.maint ∧
    (returnToPiecing i s).frame.levels = s.frame.levels ∧ (returnToPiecing i s).frame.latches = s.frame.latches ∧
    (returnToPiecing i s).frame.resetLow = s.frame.resetLow ∧
    (returnToPiecing i s).frame.holds.notStarted = s.frame.holds.notStarted ∧
    (returnToPiecing i s).frame.holds.hostHold = s.frame.holds.hostHold := by
  unfold returnToPiecing
  try dsimp only
  (repeat' split) <;> simp
@[simp] theorem pieceCall_frameP (x : Side) {s : State} (hs : Frame.sound s.frame) :
    Frame.sound (pieceCall x s).frame := by
  unfold pieceCall
  try dsimp only
  (repeat' split) <;> first | (simp +contextual (maxDischargeDepth := 20) [hs]; done) | fail
@[simp] theorem pieceCall_inputs (x : Side) (s : State) :
    (pieceCall x s).frame.run = s.frame.run ∧ (pieceCall x s).frame.maint = s.frame.maint ∧
    (pieceCall x s).frame.levels = s.frame.levels ∧ (pieceCall x s).frame.latches = s.frame.latches ∧
    (pieceCall x s).frame.resetLow = s.frame.resetLow ∧
    (pieceCall x s).frame.holds.notStarted = s.frame.holds.notStarted ∧
    (pieceCall x s).frame.holds.hostHold = s.frame.holds.hostHold := by
  unfold pieceCall
  try dsimp only
  (repeat' split) <;> simp
@[simp] theorem enterCalling_frameP (x : Side) {s : State} (hs : Frame.sound s.frame) :
    Frame.sound (enterCalling x s).frame := by
  unfold enterCalling
  try dsimp only
  (repeat' split) <;> first | (simp +contextual (maxDischargeDepth := 20) [hs]; done) | fail
@[simp] theorem enterCalling_inputs (x : Side) (s : State) :
    (enterCalling x s).frame.run = s.frame.run ∧ (enterCalling x s).frame.maint = s.frame.maint ∧
    (enterCalling x s).frame.levels = s.frame.levels ∧ (enterCalling x s).frame.latches = s.frame.latches ∧
    (enterCalling x s).frame.resetLow = s.frame.resetLow ∧
    (enterCalling x s).frame.holds.notStarted = s.frame.holds.notStarted ∧
    (enterCalling x s).frame.holds.hostHold = s.frame.holds.hostHold := by
  unfold enterCalling
  try dsimp only
  (repeat' split) <;> simp
@[simp] theorem callOrIdle_frameP (x : Side) {s : State} (hs : Frame.sound s.frame) :
    Frame.sound (callOrIdle x s).frame := by
  unfold callOrIdle
  try dsimp only
  (repeat' split) <;> first | (simp +contextual (maxDischargeDepth := 20) [hs]; done) | fail
@[simp] theorem callOrIdle_inputs (x : Side) (s : State) :
    (callOrIdle x s).frame.run = s.frame.run ∧ (callOrIdle x s).frame.maint = s.frame.maint ∧
    (callOrIdle x s).frame.levels = s.frame.levels ∧ (callOrIdle x s).frame.latches = s.frame.latches ∧
    (callOrIdle x s).frame.resetLow = s.frame.resetLow ∧
    (callOrIdle x s).frame.holds.notStarted = s.frame.holds.notStarted ∧
    (callOrIdle x s).frame.holds.hostHold = s.frame.holds.hostHold := by
  unfold callOrIdle
  try dsimp only
  (repeat' split) <;> simp
@[simp] theorem sendRelease_frameP (x : Side) {s : State} (hs : Frame.sound s.frame) :
    Frame.sound (sendRelease x s).frame := by
  unfold sendRelease
  try dsimp only
  (repeat' split) <;> first | (simp +contextual (maxDischargeDepth := 20) [hs]; done) | fail
@[simp] theorem sendRelease_inputs (x : Side) (s : State) :
    (sendRelease x s).frame.run = s.frame.run ∧ (sendRelease x s).frame.maint = s.frame.maint ∧
    (sendRelease x s).frame.levels = s.frame.levels ∧ (sendRelease x s).frame.latches = s.frame.latches ∧
    (sendRelease x s).frame.resetLow = s.frame.resetLow ∧
    (sendRelease x s).frame.holds.notStarted = s.frame.holds.notStarted ∧
    (sendRelease x s).frame.holds.hostHold = s.frame.holds.hostHold := by
  unfold sendRelease
  try dsimp only
  (repeat' split) <;> simp
@[simp] theorem sendCancel_frameP (x : Side) {s : State} (hs : Frame.sound s.frame) :
    Frame.sound (sendCancel x s).frame := by
  unfold sendCancel
  try dsimp only
  (repeat' split) <;> first | (simp +contextual (maxDischargeDepth := 20) [hs]; done) | fail
@[simp] theorem sendCancel_inputs (x : Side) (s : State) :
    (sendCancel x s).frame.run = s.frame.run ∧ (sendCancel x s).frame.maint = s.frame.maint ∧
    (sendCancel x s).frame.levels = s.frame.levels ∧ (sendCancel x s).frame.latches = s.frame.latches ∧
    (sendCancel x s).frame.resetLow = s.frame.resetLow ∧
    (sendCancel x s).frame.holds.notStarted = s.frame.holds.notStarted ∧
    (sendCancel x s).frame.holds.hostHold = s.frame.holds.hostHold := by
  unfold sendCancel
  try dsimp only
  (repeat' split) <;> simp
@[simp] theorem issueOrder_frameP (x : Side) (i : Nat) (asc : Bool) {s : State} (hs : Frame.sound s.frame) :
    Frame.sound (issueOrder x i asc s).frame := by
  unfold issueOrder
  try dsimp only
  (repeat' split) <;> first | (simp +contextual (maxDischargeDepth := 20) [hs]; done) | fail
@[simp] theorem issueOrder_inputs (x : Side) (i : Nat) (asc : Bool) (s : State) :
    (issueOrder x i asc s).frame.run = s.frame.run ∧ (issueOrder x i asc s).frame.maint = s.frame.maint ∧
    (issueOrder x i asc s).frame.levels = s.frame.levels ∧ (issueOrder x i asc s).frame.latches = s.frame.latches ∧
    (issueOrder x i asc s).frame.resetLow = s.frame.resetLow ∧
    (issueOrder x i asc s).frame.holds.notStarted = s.frame.holds.notStarted ∧
    (issueOrder x i asc s).frame.holds.hostHold = s.frame.holds.hostHold := by
  unfold issueOrder
  try dsimp only
  (repeat' split) <;> simp
@[simp] theorem decideNext_frameP (x : Side) {s : State} (hs : Frame.sound s.frame) :
    Frame.sound (decideNext x s).frame := by
  unfold decideNext
  try dsimp only
  (repeat' split) <;> first | (simp +contextual (maxDischargeDepth := 20) [hs]; done) | fail
@[simp] theorem decideNext_inputs (x : Side) (s : State) :
    (decideNext x s).frame.run = s.frame.run ∧ (decideNext x s).frame.maint = s.frame.maint ∧
    (decideNext x s).frame.levels = s.frame.levels ∧ (decideNext x s).frame.latches = s.frame.latches ∧
    (decideNext x s).frame.resetLow = s.frame.resetLow ∧
    (decideNext x s).frame.holds.notStarted = s.frame.holds.notStarted ∧
    (decideNext x s).frame.holds.hostHold = s.frame.holds.hostHold := by
  unfold decideNext
  try dsimp only
  (repeat' split) <;> simp
@[simp] theorem notifyOne_frameP (s0 : State) (x : Side) {s : State} (hs : Frame.sound s.frame) :
    Frame.sound (notifyOne s0 x s).frame := by
  unfold notifyOne
  try dsimp only
  (repeat' split) <;> first | (simp +contextual (maxDischargeDepth := 20) [hs]; done) | fail
@[simp] theorem notifyOne_inputs (s0 : State) (x : Side) (s : State) :
    (notifyOne s0 x s).frame.run = s.frame.run ∧ (notifyOne s0 x s).frame.maint = s.frame.maint ∧
    (notifyOne s0 x s).frame.levels = s.frame.levels ∧ (notifyOne s0 x s).frame.latches = s.frame.latches ∧
    (notifyOne s0 x s).frame.resetLow = s.frame.resetLow ∧
    (notifyOne s0 x s).frame.holds.notStarted = s.frame.holds.notStarted ∧
    (notifyOne s0 x s).frame.holds.hostHold = s.frame.holds.hostHold := by
  unfold notifyOne
  try dsimp only
  (repeat' split) <;> simp
@[simp] theorem notify_frameP (s0 : State) {s : State} (hs : Frame.sound s.frame) :
    Frame.sound (notify s0 s).frame := by
  unfold notify
  try dsimp only
  (repeat' split) <;> first | (simp +contextual (maxDischargeDepth := 20) [hs]; done) | fail
@[simp] theorem notify_inputs (s0 s : State) :
    (notify s0 s).frame.run = s.frame.run ∧ (notify s0 s).frame.maint = s.frame.maint ∧
    (notify s0 s).frame.levels = s.frame.levels ∧ (notify s0 s).frame.latches = s.frame.latches ∧
    (notify s0 s).frame.resetLow = s.frame.resetLow ∧
    (notify s0 s).frame.holds.notStarted = s.frame.holds.notStarted ∧
    (notify s0 s).frame.holds.hostHold = s.frame.holds.hostHold := by
  unfold notify
  try dsimp only
  (repeat' split) <;> simp
@[simp] theorem piecingEvent_frameP (f : State → State) (h : ∀ s, Frame.sound s.frame → Frame.sound (f s).frame)
    {s : State} (hs : Frame.sound s.frame) : Frame.sound (piecingEvent f s).frame := by
  unfold piecingEvent
  simp (maxDischargeDepth := 20) [hs, h]
@[simp] theorem piecingEvent_run (f : State → State) (h : ∀ s, (f s).frame.run = s.frame.run) (s : State) :
    (piecingEvent f s).frame.run = s.frame.run := by simp [piecingEvent, h]
@[simp] theorem piecingEvent_maint (f : State → State) (h : ∀ s, (f s).frame.maint = s.frame.maint) (s : State) :
    (piecingEvent f s).frame.maint = s.frame.maint := by simp [piecingEvent, h]
@[simp] theorem piecingEvent_levels (f : State → State) (h : ∀ s, (f s).frame.levels = s.frame.levels) (s : State) :
    (piecingEvent f s).frame.levels = s.frame.levels := by simp [piecingEvent, h]
@[simp] theorem piecingEvent_latches (f : State → State) (h : ∀ s, (f s).frame.latches = s.frame.latches) (s : State) :
    (piecingEvent f s).frame.latches = s.frame.latches := by simp [piecingEvent, h]
@[simp] theorem piecingEvent_resetLow (f : State → State) (h : ∀ s, (f s).frame.resetLow = s.frame.resetLow) (s : State) :
    (piecingEvent f s).frame.resetLow = s.frame.resetLow := by simp [piecingEvent, h]
@[simp] theorem piecingEvent_notStarted (f : State → State) (h : ∀ s, (f s).frame.holds.notStarted = s.frame.holds.notStarted) (s : State) :
    (piecingEvent f s).frame.holds.notStarted = s.frame.holds.notStarted := by simp [piecingEvent, h]
@[simp] theorem piecingEvent_hostHold (f : State → State) (h : ∀ s, (f s).frame.holds.hostHold = s.frame.holds.hostHold) (s : State) :
    (piecingEvent f s).frame.holds.hostHold = s.frame.holds.hostHold := by simp [piecingEvent, h]
@[simp] theorem withdrawOf_frameP (x : Side) (i : Nat) {s : State} (hs : Frame.sound s.frame) :
    Frame.sound (withdrawOf x i s).frame := by
  unfold withdrawOf
  try dsimp only
  (repeat' split) <;> first | (simp +contextual (maxDischargeDepth := 20) [hs]; done) | fail
@[simp] theorem withdrawOf_inputs (x : Side) (i : Nat) (s : State) :
    (withdrawOf x i s).frame.run = s.frame.run ∧ (withdrawOf x i s).frame.maint = s.frame.maint ∧
    (withdrawOf x i s).frame.levels = s.frame.levels ∧ (withdrawOf x i s).frame.latches = s.frame.latches ∧
    (withdrawOf x i s).frame.resetLow = s.frame.resetLow ∧
    (withdrawOf x i s).frame.holds.notStarted = s.frame.holds.notStarted ∧
    (withdrawOf x i s).frame.holds.hostHold = s.frame.holds.hostHold := by
  unfold withdrawOf
  try dsimp only
  (repeat' split) <;> simp
@[simp] theorem withdrawOrder_frameP (i : Nat) {s : State} (hs : Frame.sound s.frame) :
    Frame.sound (withdrawOrder i s).frame := by
  unfold withdrawOrder
  try dsimp only
  (repeat' split) <;> first | (simp +contextual (maxDischargeDepth := 20) [hs]; done) | fail
@[simp] theorem withdrawOrder_inputs (i : Nat) (s : State) :
    (withdrawOrder i s).frame.run = s.frame.run ∧ (withdrawOrder i s).frame.maint = s.frame.maint ∧
    (withdrawOrder i s).frame.levels = s.frame.levels ∧ (withdrawOrder i s).frame.latches = s.frame.latches ∧
    (withdrawOrder i s).frame.resetLow = s.frame.resetLow ∧
    (withdrawOrder i s).frame.holds.notStarted = s.frame.holds.notStarted ∧
    (withdrawOrder i s).frame.holds.hostHold = s.frame.holds.hostHold := by
  unfold withdrawOrder
  try dsimp only
  (repeat' split) <;> simp
@[simp] theorem returnOrdered_frameP (x : Side) {s : State} (hs : Frame.sound s.frame) :
    Frame.sound (returnOrdered x s).frame := by
  unfold returnOrdered
  try dsimp only
  (repeat' split) <;> first | (simp +contextual (maxDischargeDepth := 20) [hs]; done) | fail
@[simp] theorem returnOrdered_inputs (x : Side) (s : State) :
    (returnOrdered x s).frame.run = s.frame.run ∧ (returnOrdered x s).frame.maint = s.frame.maint ∧
    (returnOrdered x s).frame.levels = s.frame.levels ∧ (returnOrdered x s).frame.latches = s.frame.latches ∧
    (returnOrdered x s).frame.resetLow = s.frame.resetLow ∧
    (returnOrdered x s).frame.holds.notStarted = s.frame.holds.notStarted ∧
    (returnOrdered x s).frame.holds.hostHold = s.frame.holds.hostHold := by
  unfold returnOrdered
  try dsimp only
  (repeat' split) <;> simp
@[simp] theorem suspendOne_frameP (x : Side) {s : State} (hs : Frame.sound s.frame) :
    Frame.sound (suspendOne x s).frame := by
  unfold suspendOne
  try dsimp only
  (repeat' split) <;> first | (simp +contextual (maxDischargeDepth := 20) [hs]; done) | fail
@[simp] theorem suspendOne_inputs (x : Side) (s : State) :
    (suspendOne x s).frame.run = s.frame.run ∧ (suspendOne x s).frame.maint = s.frame.maint ∧
    (suspendOne x s).frame.levels = s.frame.levels ∧ (suspendOne x s).frame.latches = s.frame.latches ∧
    (suspendOne x s).frame.resetLow = s.frame.resetLow ∧
    (suspendOne x s).frame.holds.notStarted = s.frame.holds.notStarted ∧
    (suspendOne x s).frame.holds.hostHold = s.frame.holds.hostHold := by
  unfold suspendOne
  try dsimp only
  (repeat' split) <;> simp
@[simp] theorem suspendEngagements_frameP  {s : State} (hs : Frame.sound s.frame) :
    Frame.sound (suspendEngagements s).frame := by
  unfold suspendEngagements
  try dsimp only
  (repeat' split) <;> first | (simp +contextual (maxDischargeDepth := 20) [hs]; done) | fail
@[simp] theorem suspendEngagements_inputs (s : State) :
    (suspendEngagements s).frame.run = s.frame.run ∧ (suspendEngagements s).frame.maint = s.frame.maint ∧
    (suspendEngagements s).frame.levels = s.frame.levels ∧ (suspendEngagements s).frame.latches = s.frame.latches ∧
    (suspendEngagements s).frame.resetLow = s.frame.resetLow ∧
    (suspendEngagements s).frame.holds.notStarted = s.frame.holds.notStarted ∧
    (suspendEngagements s).frame.holds.hostHold = s.frame.holds.hostHold := by
  unfold suspendEngagements
  try dsimp only
  (repeat' split) <;> simp
@[simp] theorem resumeEngagements_frameP {s : State} (hs : Frame.sound s.frame) :
    Frame.sound (resumeEngagements s).frame :=
  foldl_frameP _ _ (fun s x h => by split <;> simp (maxDischargeDepth := 20) [h]) hs
@[simp] theorem resumeEngagements_inputs (s : State) :
    (resumeEngagements s).frame.run = s.frame.run ∧ (resumeEngagements s).frame.maint = s.frame.maint ∧
    (resumeEngagements s).frame.levels = s.frame.levels ∧ (resumeEngagements s).frame.latches = s.frame.latches ∧
    (resumeEngagements s).frame.resetLow = s.frame.resetLow ∧
    (resumeEngagements s).frame.holds.notStarted = s.frame.holds.notStarted ∧
    (resumeEngagements s).frame.holds.hostHold = s.frame.holds.hostHold :=
  ⟨foldl_keeps (fun s => s.frame.run) _ _ (fun s x => by split <;> simp) s,
   foldl_keeps (fun s => s.frame.maint) _ _ (fun s x => by split <;> simp) s,
   foldl_keeps (fun s => s.frame.levels) _ _ (fun s x => by split <;> simp) s,
   foldl_keeps (fun s => s.frame.latches) _ _ (fun s x => by split <;> simp) s,
   foldl_keeps (fun s => s.frame.resetLow) _ _ (fun s x => by split <;> simp) s,
   foldl_keeps (fun s => s.frame.holds.notStarted) _ _ (fun s x => by split <;> simp) s,
   foldl_keeps (fun s => s.frame.holds.hostHold) _ _ (fun s x => by split <;> simp) s⟩
@[simp] theorem endEngagement_frameP (x : Side) {s : State} (hs : Frame.sound s.frame) :
    Frame.sound (endEngagement x s).frame := by
  unfold endEngagement
  try dsimp only
  (repeat' split) <;> first | (simp +contextual (maxDischargeDepth := 20) [hs]; done) | fail
@[simp] theorem endEngagement_inputs (x : Side) (s : State) :
    (endEngagement x s).frame.run = s.frame.run ∧ (endEngagement x s).frame.maint = s.frame.maint ∧
    (endEngagement x s).frame.levels = s.frame.levels ∧ (endEngagement x s).frame.latches = s.frame.latches ∧
    (endEngagement x s).frame.resetLow = s.frame.resetLow ∧
    (endEngagement x s).frame.holds.notStarted = s.frame.holds.notStarted ∧
    (endEngagement x s).frame.holds.hostHold = s.frame.holds.hostHold := by
  unfold endEngagement
  try dsimp only
  (repeat' split) <;> simp
@[simp] theorem restartEngagement_frameP (x : Side) {s : State} (hs : Frame.sound s.frame) :
    Frame.sound (restartEngagement x s).frame := by
  unfold restartEngagement
  try dsimp only
  (repeat' split) <;> first | (simp +contextual (maxDischargeDepth := 20) [hs]; done) | fail
@[simp] theorem restartEngagement_inputs (x : Side) (s : State) :
    (restartEngagement x s).frame.run = s.frame.run ∧ (restartEngagement x s).frame.maint = s.frame.maint ∧
    (restartEngagement x s).frame.levels = s.frame.levels ∧
    (restartEngagement x s).frame.latches = s.frame.latches ∧
    (restartEngagement x s).frame.resetLow = s.frame.resetLow ∧
    (restartEngagement x s).frame.holds.notStarted = s.frame.holds.notStarted ∧
    (restartEngagement x s).frame.holds.hostHold = s.frame.holds.hostHold := by
  unfold restartEngagement
  try dsimp only
  (repeat' split) <;> simp
@[simp] theorem restartPiecing_frameP  {s : State} (hs : Frame.sound s.frame) :
    Frame.sound (restartPiecing s).frame := by
  unfold restartPiecing
  try dsimp only
  (repeat' split) <;> first | (simp +contextual (maxDischargeDepth := 20) [hs]; done) | fail
@[simp] theorem restartPiecing_inputs (s : State) :
    (restartPiecing s).frame.run = s.frame.run ∧ (restartPiecing s).frame.maint = s.frame.maint ∧
    (restartPiecing s).frame.levels = s.frame.levels ∧ (restartPiecing s).frame.latches = s.frame.latches ∧
    (restartPiecing s).frame.resetLow = s.frame.resetLow ∧
    (restartPiecing s).frame.holds.notStarted = s.frame.holds.notStarted ∧
    (restartPiecing s).frame.holds.hostHold = s.frame.holds.hostHold := by
  unfold restartPiecing
  try dsimp only
  (repeat' split) <;> simp

/-! ### The creel -/

@[simp] theorem announceDue_frameP  {s : State} (hs : Frame.sound s.frame) :
    Frame.sound (announceDue s).frame := by
  unfold announceDue
  try dsimp only
  (repeat' split) <;> first | (simp +contextual (maxDischargeDepth := 20) [hs]; done) | fail
@[simp] theorem announceDue_inputs (s : State) :
    (announceDue s).frame.run = s.frame.run ∧ (announceDue s).frame.maint = s.frame.maint ∧
    (announceDue s).frame.levels = s.frame.levels ∧ (announceDue s).frame.latches = s.frame.latches ∧
    (announceDue s).frame.resetLow = s.frame.resetLow ∧
    (announceDue s).frame.holds.notStarted = s.frame.holds.notStarted ∧
    (announceDue s).frame.holds.hostHold = s.frame.holds.hostHold := by
  unfold announceDue
  try dsimp only
  (repeat' split) <;> simp
@[simp] theorem rebuildDue_frameP  {s : State} (hs : Frame.sound s.frame) :
    Frame.sound (rebuildDue s).frame := by
  unfold rebuildDue
  try dsimp only
  (repeat' split) <;> first | (simp +contextual (maxDischargeDepth := 20) [hs]; done) | fail
@[simp] theorem rebuildDue_inputs (s : State) :
    (rebuildDue s).frame.run = s.frame.run ∧ (rebuildDue s).frame.maint = s.frame.maint ∧
    (rebuildDue s).frame.levels = s.frame.levels ∧ (rebuildDue s).frame.latches = s.frame.latches ∧
    (rebuildDue s).frame.resetLow = s.frame.resetLow ∧
    (rebuildDue s).frame.holds.notStarted = s.frame.holds.notStarted ∧
    (rebuildDue s).frame.holds.hostHold = s.frame.holds.hostHold := by
  unfold rebuildDue
  try dsimp only
  (repeat' split) <;> simp
@[simp] theorem emptyAlert_frameP (i : Nat) {s : State} (hs : Frame.sound s.frame) :
    Frame.sound (emptyAlert i s).frame := by
  unfold emptyAlert
  try dsimp only
  (repeat' split) <;> first | (simp +contextual (maxDischargeDepth := 20) [hs]; done) | fail
@[simp] theorem emptyAlert_inputs (i : Nat) (s : State) :
    (emptyAlert i s).frame.run = s.frame.run ∧ (emptyAlert i s).frame.maint = s.frame.maint ∧
    (emptyAlert i s).frame.levels = s.frame.levels ∧ (emptyAlert i s).frame.latches = s.frame.latches ∧
    (emptyAlert i s).frame.resetLow = s.frame.resetLow ∧
    (emptyAlert i s).frame.holds.notStarted = s.frame.holds.notStarted ∧
    (emptyAlert i s).frame.holds.hostHold = s.frame.holds.hostHold := by
  unfold emptyAlert
  try dsimp only
  (repeat' split) <;> simp
@[simp] theorem marginOne_frameP (i : Nat) {s : State} (hs : Frame.sound s.frame) :
    Frame.sound (marginOne i s).frame := by
  unfold marginOne
  try dsimp only
  (repeat' split) <;> first | (simp +contextual (maxDischargeDepth := 20) [hs]; done) | fail
@[simp] theorem marginOne_inputs (i : Nat) (s : State) :
    (marginOne i s).frame.run = s.frame.run ∧ (marginOne i s).frame.maint = s.frame.maint ∧
    (marginOne i s).frame.levels = s.frame.levels ∧ (marginOne i s).frame.latches = s.frame.latches ∧
    (marginOne i s).frame.resetLow = s.frame.resetLow ∧
    (marginOne i s).frame.holds.notStarted = s.frame.holds.notStarted ∧
    (marginOne i s).frame.holds.hostHold = s.frame.holds.hostHold := by
  unfold marginOne
  try dsimp only
  (repeat' split) <;> simp
@[simp] theorem recomputeSection_frameP (k : Nat) {s : State} (hs : Frame.sound s.frame) :
    Frame.sound (recomputeSection k s).frame := by
  unfold recomputeSection
  try dsimp only
  (repeat' split) <;> first | (simp +contextual (maxDischargeDepth := 20) [hs]; done) | fail
@[simp] theorem recomputeSection_inputs (k : Nat) (s : State) :
    (recomputeSection k s).frame.run = s.frame.run ∧ (recomputeSection k s).frame.maint = s.frame.maint ∧
    (recomputeSection k s).frame.levels = s.frame.levels ∧ (recomputeSection k s).frame.latches = s.frame.latches ∧
    (recomputeSection k s).frame.resetLow = s.frame.resetLow ∧
    (recomputeSection k s).frame.holds.notStarted = s.frame.holds.notStarted ∧
    (recomputeSection k s).frame.holds.hostHold = s.frame.holds.hostHold := by
  unfold recomputeSection
  try dsimp only
  (repeat' split) <;> simp
@[simp] theorem recomputeAll_frameP  {s : State} (hs : Frame.sound s.frame) :
    Frame.sound (recomputeAll s).frame := by
  unfold recomputeAll
  try dsimp only
  (repeat' split) <;> first | (simp +contextual (maxDischargeDepth := 20) [hs]; done) | fail
@[simp] theorem recomputeAll_inputs (s : State) :
    (recomputeAll s).frame.run = s.frame.run ∧ (recomputeAll s).frame.maint = s.frame.maint ∧
    (recomputeAll s).frame.levels = s.frame.levels ∧ (recomputeAll s).frame.latches = s.frame.latches ∧
    (recomputeAll s).frame.resetLow = s.frame.resetLow ∧
    (recomputeAll s).frame.holds.notStarted = s.frame.holds.notStarted ∧
    (recomputeAll s).frame.holds.hostHold = s.frame.holds.hostHold := by
  unfold recomputeAll
  try dsimp only
  (repeat' split) <;> simp
@[simp] theorem recomputeOne_frameP (k : Nat) {s : State} (hs : Frame.sound s.frame) :
    Frame.sound (recomputeOne k s).frame := by
  unfold recomputeOne
  try dsimp only
  (repeat' split) <;> first | (simp +contextual (maxDischargeDepth := 20) [hs]; done) | fail
@[simp] theorem recomputeOne_inputs (k : Nat) (s : State) :
    (recomputeOne k s).frame.run = s.frame.run ∧ (recomputeOne k s).frame.maint = s.frame.maint ∧
    (recomputeOne k s).frame.levels = s.frame.levels ∧ (recomputeOne k s).frame.latches = s.frame.latches ∧
    (recomputeOne k s).frame.resetLow = s.frame.resetLow ∧
    (recomputeOne k s).frame.holds.notStarted = s.frame.holds.notStarted ∧
    (recomputeOne k s).frame.holds.hostHold = s.frame.holds.hostHold := by
  unfold recomputeOne
  try dsimp only
  (repeat' split) <;> simp
@[simp] theorem goneEmpty_frameP (i : Nat) {s : State} (hs : Frame.sound s.frame) :
    Frame.sound (goneEmpty i s).frame := by
  unfold goneEmpty
  try dsimp only
  (repeat' split) <;> first | (simp +contextual (maxDischargeDepth := 20) [hs]; done) | fail
@[simp] theorem goneEmpty_inputs (i : Nat) (s : State) :
    (goneEmpty i s).frame.run = s.frame.run ∧ (goneEmpty i s).frame.maint = s.frame.maint ∧
    (goneEmpty i s).frame.levels = s.frame.levels ∧ (goneEmpty i s).frame.latches = s.frame.latches ∧
    (goneEmpty i s).frame.resetLow = s.frame.resetLow ∧
    (goneEmpty i s).frame.holds.notStarted = s.frame.holds.notStarted ∧
    (goneEmpty i s).frame.holds.hostHold = s.frame.holds.hostHold := by
  unfold goneEmpty
  try dsimp only
  (repeat' split) <;> simp
@[simp] theorem goDown_frameP (k : Placement) (i : Nat) {s : State} (hs : Frame.sound s.frame) :
    Frame.sound (goDown k i s).frame := by
  unfold goDown
  try dsimp only
  (repeat' split) <;> first | (simp +contextual (maxDischargeDepth := 20) [hs]; done) | fail
@[simp] theorem goDown_inputs (k : Placement) (i : Nat) (s : State) :
    (goDown k i s).frame.run = s.frame.run ∧ (goDown k i s).frame.maint = s.frame.maint ∧
    (goDown k i s).frame.levels = s.frame.levels ∧ (goDown k i s).frame.latches = s.frame.latches ∧
    (goDown k i s).frame.resetLow = s.frame.resetLow ∧
    (goDown k i s).frame.holds.notStarted = s.frame.holds.notStarted ∧
    (goDown k i s).frame.holds.hostHold = s.frame.holds.hostHold := by
  unfold goDown
  try dsimp only
  (repeat' split) <;> simp
@[simp] theorem leaveNormal_frameP (k : Nat) {s : State} (hs : Frame.sound s.frame) :
    Frame.sound (leaveNormal k s).frame := by
  unfold leaveNormal
  try dsimp only
  (repeat' split) <;> first | (simp +contextual (maxDischargeDepth := 20) [hs]; done) | fail
@[simp] theorem leaveNormal_inputs (k : Nat) (s : State) :
    (leaveNormal k s).frame.run = s.frame.run ∧ (leaveNormal k s).frame.maint = s.frame.maint ∧
    (leaveNormal k s).frame.levels = s.frame.levels ∧ (leaveNormal k s).frame.latches = s.frame.latches ∧
    (leaveNormal k s).frame.resetLow = s.frame.resetLow ∧
    (leaveNormal k s).frame.holds.notStarted = s.frame.holds.notStarted ∧
    (leaveNormal k s).frame.holds.hostHold = s.frame.holds.hostHold := by
  unfold leaveNormal
  try dsimp only
  (repeat' split) <;> simp
@[simp] theorem enterNormal_frameP (k : Nat) {s : State} (hs : Frame.sound s.frame) :
    Frame.sound (enterNormal k s).frame := by
  unfold enterNormal
  try dsimp only
  (repeat' split) <;> first | (simp +contextual (maxDischargeDepth := 20) [hs]; done) | fail
@[simp] theorem enterNormal_inputs (k : Nat) (s : State) :
    (enterNormal k s).frame.run = s.frame.run ∧ (enterNormal k s).frame.maint = s.frame.maint ∧
    (enterNormal k s).frame.levels = s.frame.levels ∧ (enterNormal k s).frame.latches = s.frame.latches ∧
    (enterNormal k s).frame.resetLow = s.frame.resetLow ∧
    (enterNormal k s).frame.holds.notStarted = s.frame.holds.notStarted ∧
    (enterNormal k s).frame.holds.hostHold = s.frame.holds.hostHold := by
  unfold enterNormal
  try dsimp only
  (repeat' split) <;> simp
@[simp] theorem freshBreak_frameP (i : Nat) {s : State} (hs : Frame.sound s.frame) :
    Frame.sound (freshBreak i s).frame := by
  unfold freshBreak
  try dsimp only
  (repeat' split) <;> first | (simp +contextual (maxDischargeDepth := 20) [hs]; done) | fail
@[simp] theorem freshBreak_inputs (i : Nat) (s : State) :
    (freshBreak i s).frame.run = s.frame.run ∧ (freshBreak i s).frame.maint = s.frame.maint ∧
    (freshBreak i s).frame.levels = s.frame.levels ∧ (freshBreak i s).frame.latches = s.frame.latches ∧
    (freshBreak i s).frame.resetLow = s.frame.resetLow ∧
    (freshBreak i s).frame.holds.notStarted = s.frame.holds.notStarted ∧
    (freshBreak i s).frame.holds.hostHold = s.frame.holds.hostHold := by
  unfold freshBreak
  try dsimp only
  (repeat' split) <;> simp
@[simp] theorem freshIf_frameP (w : SpState → Bool) (i : Nat) {s : State} (hs : Frame.sound s.frame) :
    Frame.sound (freshIf w i s).frame := by
  unfold freshIf
  try dsimp only
  (repeat' split) <;> first | (simp +contextual (maxDischargeDepth := 20) [hs]; done) | fail
@[simp] theorem freshIf_inputs (w : SpState → Bool) (i : Nat) (s : State) :
    (freshIf w i s).frame.run = s.frame.run ∧ (freshIf w i s).frame.maint = s.frame.maint ∧
    (freshIf w i s).frame.levels = s.frame.levels ∧ (freshIf w i s).frame.latches = s.frame.latches ∧
    (freshIf w i s).frame.resetLow = s.frame.resetLow ∧
    (freshIf w i s).frame.holds.notStarted = s.frame.holds.notStarted ∧
    (freshIf w i s).frame.holds.hostHold = s.frame.holds.hostHold := by
  unfold freshIf
  try dsimp only
  (repeat' split) <;> simp
@[simp] theorem endLoaded_frameP (k : Nat) {s : State} (hs : Frame.sound s.frame) :
    Frame.sound (endLoaded k s).frame := by
  unfold endLoaded
  try dsimp only
  (repeat' split) <;> first | (simp +contextual (maxDischargeDepth := 20) [hs]; done) | fail
@[simp] theorem endLoaded_inputs (k : Nat) (s : State) :
    (endLoaded k s).frame.run = s.frame.run ∧ (endLoaded k s).frame.maint = s.frame.maint ∧
    (endLoaded k s).frame.levels = s.frame.levels ∧ (endLoaded k s).frame.latches = s.frame.latches ∧
    (endLoaded k s).frame.resetLow = s.frame.resetLow ∧
    (endLoaded k s).frame.holds.notStarted = s.frame.holds.notStarted ∧
    (endLoaded k s).frame.holds.hostHold = s.frame.holds.hostHold := by
  unfold endLoaded
  try dsimp only
  (repeat' split) <;> simp
@[simp] theorem endNotLoaded_frameP (k : Nat) {s : State} (hs : Frame.sound s.frame) :
    Frame.sound (endNotLoaded k s).frame := by
  unfold endNotLoaded
  try dsimp only
  (repeat' split) <;> first | (simp +contextual (maxDischargeDepth := 20) [hs]; done) | fail
@[simp] theorem endNotLoaded_inputs (k : Nat) (s : State) :
    (endNotLoaded k s).frame.run = s.frame.run ∧ (endNotLoaded k s).frame.maint = s.frame.maint ∧
    (endNotLoaded k s).frame.levels = s.frame.levels ∧ (endNotLoaded k s).frame.latches = s.frame.latches ∧
    (endNotLoaded k s).frame.resetLow = s.frame.resetLow ∧
    (endNotLoaded k s).frame.holds.notStarted = s.frame.holds.notStarted ∧
    (endNotLoaded k s).frame.holds.hostHold = s.frame.holds.hostHold := by
  unfold endNotLoaded
  try dsimp only
  (repeat' split) <;> simp
@[simp] theorem endUnknown_frameP (k : Nat) {s : State} (hs : Frame.sound s.frame) :
    Frame.sound (endUnknown k s).frame := by
  unfold endUnknown
  try dsimp only
  (repeat' split) <;> first | (simp +contextual (maxDischargeDepth := 20) [hs]; done) | fail
@[simp] theorem endUnknown_inputs (k : Nat) (s : State) :
    (endUnknown k s).frame.run = s.frame.run ∧ (endUnknown k s).frame.maint = s.frame.maint ∧
    (endUnknown k s).frame.levels = s.frame.levels ∧ (endUnknown k s).frame.latches = s.frame.latches ∧
    (endUnknown k s).frame.resetLow = s.frame.resetLow ∧
    (endUnknown k s).frame.holds.notStarted = s.frame.holds.notStarted ∧
    (endUnknown k s).frame.holds.hostHold = s.frame.holds.hostHold := by
  unfold endUnknown
  try dsimp only
  (repeat' split) <;> simp

/-! ### Robots -/

@[simp] theorem takeOffer_frameP (t : Telegram) {s : State} (hs : Frame.sound s.frame) :
    Frame.sound (takeOffer t s).frame := by
  unfold takeOffer
  try dsimp only
  (repeat' split) <;> first | (simp +contextual (maxDischargeDepth := 20) [hs]; done) | fail
@[simp] theorem takeOffer_inputs (t : Telegram) (s : State) :
    (takeOffer t s).frame.run = s.frame.run ∧ (takeOffer t s).frame.maint = s.frame.maint ∧
    (takeOffer t s).frame.levels = s.frame.levels ∧ (takeOffer t s).frame.latches = s.frame.latches ∧
    (takeOffer t s).frame.resetLow = s.frame.resetLow ∧
    (takeOffer t s).frame.holds.notStarted = s.frame.holds.notStarted ∧
    (takeOffer t s).frame.holds.hostHold = s.frame.holds.hostHold := by
  unfold takeOffer
  try dsimp only
  (repeat' split) <;> simp
@[simp] theorem takeArrival_frameP (t : Telegram) {s : State} (hs : Frame.sound s.frame) :
    Frame.sound (takeArrival t s).frame := by
  unfold takeArrival
  try dsimp only
  (repeat' split) <;> first | (simp +contextual (maxDischargeDepth := 20) [hs]; done) | fail
@[simp] theorem takeArrival_inputs (t : Telegram) (s : State) :
    (takeArrival t s).frame.run = s.frame.run ∧ (takeArrival t s).frame.maint = s.frame.maint ∧
    (takeArrival t s).frame.levels = s.frame.levels ∧ (takeArrival t s).frame.latches = s.frame.latches ∧
    (takeArrival t s).frame.resetLow = s.frame.resetLow ∧
    (takeArrival t s).frame.holds.notStarted = s.frame.holds.notStarted ∧
    (takeArrival t s).frame.holds.hostHold = s.frame.holds.hostHold := by
  unfold takeArrival
  try dsimp only
  (repeat' split) <;> simp
@[simp] theorem applyResult_frameP (o : WorkOutcome) (i : Nat) {s : State} (hs : Frame.sound s.frame) :
    Frame.sound (applyResult o i s).frame := by
  unfold applyResult
  try dsimp only
  (repeat' split) <;> first | (simp +contextual (maxDischargeDepth := 20) [hs]; done) | fail
@[simp] theorem applyResult_inputs (o : WorkOutcome) (i : Nat) (s : State) :
    (applyResult o i s).frame.run = s.frame.run ∧ (applyResult o i s).frame.maint = s.frame.maint ∧
    (applyResult o i s).frame.levels = s.frame.levels ∧ (applyResult o i s).frame.latches = s.frame.latches ∧
    (applyResult o i s).frame.resetLow = s.frame.resetLow ∧
    (applyResult o i s).frame.holds.notStarted = s.frame.holds.notStarted ∧
    (applyResult o i s).frame.holds.hostHold = s.frame.holds.hostHold := by
  unfold applyResult
  try dsimp only
  (repeat' split) <;> simp
@[simp] theorem matchedResult_frameP (x : Side) (o : Order) (w : WorkOutcome) (p : Nat) {s : State} (hs : Frame.sound s.frame) :
    Frame.sound (matchedResult x o w p s).frame := by
  unfold matchedResult
  try dsimp only
  (repeat' split) <;> first | (simp +contextual (maxDischargeDepth := 20) [hs]; done) | fail
@[simp] theorem matchedResult_inputs (x : Side) (o : Order) (w : WorkOutcome) (p : Nat) (s : State) :
    (matchedResult x o w p s).frame.run = s.frame.run ∧ (matchedResult x o w p s).frame.maint = s.frame.maint ∧
    (matchedResult x o w p s).frame.levels = s.frame.levels ∧
    (matchedResult x o w p s).frame.latches = s.frame.latches ∧
    (matchedResult x o w p s).frame.resetLow = s.frame.resetLow ∧
    (matchedResult x o w p s).frame.holds.notStarted = s.frame.holds.notStarted ∧
    (matchedResult x o w p s).frame.holds.hostHold = s.frame.holds.hostHold := by
  unfold matchedResult
  try dsimp only
  (repeat' split) <;> simp
@[simp] theorem takeResult_frameP (t : Telegram) {s : State} (hs : Frame.sound s.frame) :
    Frame.sound (takeResult t s).frame := by
  unfold takeResult
  try dsimp only
  (repeat' split) <;> first | (simp +contextual (maxDischargeDepth := 20) [hs]; done) | fail
@[simp] theorem takeResult_inputs (t : Telegram) (s : State) :
    (takeResult t s).frame.run = s.frame.run ∧ (takeResult t s).frame.maint = s.frame.maint ∧
    (takeResult t s).frame.levels = s.frame.levels ∧ (takeResult t s).frame.latches = s.frame.latches ∧
    (takeResult t s).frame.resetLow = s.frame.resetLow ∧
    (takeResult t s).frame.holds.notStarted = s.frame.holds.notStarted ∧
    (takeResult t s).frame.holds.hostHold = s.frame.holds.hostHold := by
  unfold takeResult
  try dsimp only
  (repeat' split) <;> simp
@[simp] theorem takeWithdraw_frameP (t : Telegram) {s : State} (hs : Frame.sound s.frame) :
    Frame.sound (takeWithdraw t s).frame := by
  unfold takeWithdraw
  try dsimp only
  (repeat' split) <;> first | (simp +contextual (maxDischargeDepth := 20) [hs]; done) | fail
@[simp] theorem takeWithdraw_inputs (t : Telegram) (s : State) :
    (takeWithdraw t s).frame.run = s.frame.run ∧ (takeWithdraw t s).frame.maint = s.frame.maint ∧
    (takeWithdraw t s).frame.levels = s.frame.levels ∧ (takeWithdraw t s).frame.latches = s.frame.latches ∧
    (takeWithdraw t s).frame.resetLow = s.frame.resetLow ∧
    (takeWithdraw t s).frame.holds.notStarted = s.frame.holds.notStarted ∧
    (takeWithdraw t s).frame.holds.hostHold = s.frame.holds.hostHold := by
  unfold takeWithdraw
  try dsimp only
  (repeat' split) <;> simp
@[simp] theorem robotRestarted_frameP (r : Nat) {s : State} (hs : Frame.sound s.frame) :
    Frame.sound (robotRestarted r s).frame := by
  unfold robotRestarted
  try dsimp only
  (repeat' split) <;> first | (simp +contextual (maxDischargeDepth := 20) [hs]; done) | fail
@[simp] theorem robotRestarted_inputs (r : Nat) (s : State) :
    (robotRestarted r s).frame.run = s.frame.run ∧ (robotRestarted r s).frame.maint = s.frame.maint ∧
    (robotRestarted r s).frame.levels = s.frame.levels ∧ (robotRestarted r s).frame.latches = s.frame.latches ∧
    (robotRestarted r s).frame.resetLow = s.frame.resetLow ∧
    (robotRestarted r s).frame.holds.notStarted = s.frame.holds.notStarted ∧
    (robotRestarted r s).frame.holds.hostHold = s.frame.holds.hostHold := by
  unfold robotRestarted
  try dsimp only
  (repeat' split) <;> simp
@[simp] theorem robotLost_frameP (x : Side) {s : State} (hs : Frame.sound s.frame) :
    Frame.sound (robotLost x s).frame := by
  unfold robotLost
  try dsimp only
  (repeat' split) <;> first | (simp +contextual (maxDischargeDepth := 20) [hs]; done) | fail
@[simp] theorem robotLost_inputs (x : Side) (s : State) :
    (robotLost x s).frame.run = s.frame.run ∧ (robotLost x s).frame.maint = s.frame.maint ∧
    (robotLost x s).frame.levels = s.frame.levels ∧ (robotLost x s).frame.latches = s.frame.latches ∧
    (robotLost x s).frame.resetLow = s.frame.resetLow ∧
    (robotLost x s).frame.holds.notStarted = s.frame.holds.notStarted ∧
    (robotLost x s).frame.holds.hostHold = s.frame.holds.hostHold := by
  unfold robotLost
  try dsimp only
  (repeat' split) <;> simp
@[simp] theorem orderTimedOut_frameP (x : Side) (o : Order) {s : State} (hs : Frame.sound s.frame) :
    Frame.sound (orderTimedOut x o s).frame := by
  unfold orderTimedOut
  try dsimp only
  (repeat' split) <;> first | (simp +contextual (maxDischargeDepth := 20) [hs]; done) | fail
@[simp] theorem orderTimedOut_inputs (x : Side) (o : Order) (s : State) :
    (orderTimedOut x o s).frame.run = s.frame.run ∧ (orderTimedOut x o s).frame.maint = s.frame.maint ∧
    (orderTimedOut x o s).frame.levels = s.frame.levels ∧ (orderTimedOut x o s).frame.latches = s.frame.latches ∧
    (orderTimedOut x o s).frame.resetLow = s.frame.resetLow ∧
    (orderTimedOut x o s).frame.holds.notStarted = s.frame.holds.notStarted ∧
    (orderTimedOut x o s).frame.holds.hostHold = s.frame.holds.hostHold := by
  unfold orderTimedOut
  try dsimp only
  (repeat' split) <;> simp

/-! ### Strips -/

@[simp] theorem classifyUp_frameP (i : Nat) (c : ReadClass) {s : State} (hs : Frame.sound s.frame) :
    Frame.sound (classifyUp i c s).frame := by
  unfold classifyUp
  try dsimp only
  (repeat' split) <;> first | (simp +contextual (maxDischargeDepth := 20) [hs]; done) | fail
@[simp] theorem classifyUp_inputs (i : Nat) (c : ReadClass) (s : State) :
    (classifyUp i c s).frame.run = s.frame.run ∧ (classifyUp i c s).frame.maint = s.frame.maint ∧
    (classifyUp i c s).frame.levels = s.frame.levels ∧ (classifyUp i c s).frame.latches = s.frame.latches ∧
    (classifyUp i c s).frame.resetLow = s.frame.resetLow ∧
    (classifyUp i c s).frame.holds.notStarted = s.frame.holds.notStarted ∧
    (classifyUp i c s).frame.holds.hostHold = s.frame.holds.hostHold := by
  unfold classifyUp
  try dsimp only
  (repeat' split) <;> simp
@[simp] theorem classifyUnseen_frameP (i : Nat) (c : ReadClass) {s : State} (hs : Frame.sound s.frame) :
    Frame.sound (classifyUnseen i c s).frame := by
  unfold classifyUnseen
  try dsimp only
  (repeat' split) <;> first | (simp +contextual (maxDischargeDepth := 20) [hs]; done) | fail
@[simp] theorem classifyUnseen_inputs (i : Nat) (c : ReadClass) (s : State) :
    (classifyUnseen i c s).frame.run = s.frame.run ∧ (classifyUnseen i c s).frame.maint = s.frame.maint ∧
    (classifyUnseen i c s).frame.levels = s.frame.levels ∧ (classifyUnseen i c s).frame.latches = s.frame.latches ∧
    (classifyUnseen i c s).frame.resetLow = s.frame.resetLow ∧
    (classifyUnseen i c s).frame.holds.notStarted = s.frame.holds.notStarted ∧
    (classifyUnseen i c s).frame.holds.hostHold = s.frame.holds.hostHold := by
  unfold classifyUnseen
  try dsimp only
  (repeat' split) <;> simp
@[simp] theorem classifyBroken_frameP (i : Nat) (c : ReadClass) {s : State} (hs : Frame.sound s.frame) :
    Frame.sound (classifyBroken i c s).frame := by
  unfold classifyBroken
  try dsimp only
  (repeat' split) <;> first | (simp +contextual (maxDischargeDepth := 20) [hs]; done) | fail
@[simp] theorem classifyBroken_inputs (i : Nat) (c : ReadClass) (s : State) :
    (classifyBroken i c s).frame.run = s.frame.run ∧ (classifyBroken i c s).frame.maint = s.frame.maint ∧
    (classifyBroken i c s).frame.levels = s.frame.levels ∧ (classifyBroken i c s).frame.latches = s.frame.latches ∧
    (classifyBroken i c s).frame.resetLow = s.frame.resetLow ∧
    (classifyBroken i c s).frame.holds.notStarted = s.frame.holds.notStarted ∧
    (classifyBroken i c s).frame.holds.hostHold = s.frame.holds.hostHold := by
  unfold classifyBroken
  try dsimp only
  (repeat' split) <;> simp
@[simp] theorem classifyConfirming_frameP (i : Nat) (c : ReadClass) {s : State} (hs : Frame.sound s.frame) :
    Frame.sound (classifyConfirming i c s).frame := by
  unfold classifyConfirming
  try dsimp only
  (repeat' split) <;> first | (simp +contextual (maxDischargeDepth := 20) [hs]; done) | fail
@[simp] theorem classifyConfirming_inputs (i : Nat) (c : ReadClass) (s : State) :
    (classifyConfirming i c s).frame.run = s.frame.run ∧ (classifyConfirming i c s).frame.maint = s.frame.maint ∧
    (classifyConfirming i c s).frame.levels = s.frame.levels ∧
    (classifyConfirming i c s).frame.latches = s.frame.latches ∧
    (classifyConfirming i c s).frame.resetLow = s.frame.resetLow ∧
    (classifyConfirming i c s).frame.holds.notStarted = s.frame.holds.notStarted ∧
    (classifyConfirming i c s).frame.holds.hostHold = s.frame.holds.hostHold := by
  unfold classifyConfirming
  try dsimp only
  (repeat' split) <;> simp
@[simp] theorem classify_frameP (i : Nat) {s : State} (hs : Frame.sound s.frame) :
    Frame.sound (classify i s).frame := by
  unfold classify
  try dsimp only
  (repeat' split) <;> first | (simp +contextual (maxDischargeDepth := 20) [hs]; done) | fail
@[simp] theorem classify_inputs (i : Nat) (s : State) :
    (classify i s).frame.run = s.frame.run ∧ (classify i s).frame.maint = s.frame.maint ∧
    (classify i s).frame.levels = s.frame.levels ∧ (classify i s).frame.latches = s.frame.latches ∧
    (classify i s).frame.resetLow = s.frame.resetLow ∧
    (classify i s).frame.holds.notStarted = s.frame.holds.notStarted ∧
    (classify i s).frame.holds.hostHold = s.frame.holds.hostHold := by
  unfold classify
  try dsimp only
  (repeat' split) <;> simp
@[simp] theorem unobserve_frameP (i : Nat) {s : State} (hs : Frame.sound s.frame) :
    Frame.sound (unobserve i s).frame := by
  unfold unobserve
  try dsimp only
  (repeat' split) <;> first | (simp +contextual (maxDischargeDepth := 20) [hs]; done) | fail
@[simp] theorem unobserve_inputs (i : Nat) (s : State) :
    (unobserve i s).frame.run = s.frame.run ∧ (unobserve i s).frame.maint = s.frame.maint ∧
    (unobserve i s).frame.levels = s.frame.levels ∧ (unobserve i s).frame.latches = s.frame.latches ∧
    (unobserve i s).frame.resetLow = s.frame.resetLow ∧
    (unobserve i s).frame.holds.notStarted = s.frame.holds.notStarted ∧
    (unobserve i s).frame.holds.hostHold = s.frame.holds.hostHold := by
  unfold unobserve
  try dsimp only
  (repeat' split) <;> simp
@[simp] theorem failStrip_frameP (k : Nat) {s : State} (hs : Frame.sound s.frame) :
    Frame.sound (failStrip k s).frame := by
  unfold failStrip
  try dsimp only
  (repeat' split) <;> first | (simp +contextual (maxDischargeDepth := 20) [hs]; done) | fail
@[simp] theorem failStrip_inputs (k : Nat) (s : State) :
    (failStrip k s).frame.run = s.frame.run ∧ (failStrip k s).frame.maint = s.frame.maint ∧
    (failStrip k s).frame.levels = s.frame.levels ∧ (failStrip k s).frame.latches = s.frame.latches ∧
    (failStrip k s).frame.resetLow = s.frame.resetLow ∧
    (failStrip k s).frame.holds.notStarted = s.frame.holds.notStarted ∧
    (failStrip k s).frame.holds.hostHold = s.frame.holds.hostHold := by
  unfold failStrip
  try dsimp only
  (repeat' split) <;> simp
@[simp] theorem recoverRecord_frameP (i : Nat) {s : State} (hs : Frame.sound s.frame) :
    Frame.sound (recoverRecord i s).frame := by
  unfold recoverRecord
  try dsimp only
  (repeat' split) <;> first | (simp +contextual (maxDischargeDepth := 20) [hs]; done) | fail
@[simp] theorem recoverRecord_inputs (i : Nat) (s : State) :
    (recoverRecord i s).frame.run = s.frame.run ∧ (recoverRecord i s).frame.maint = s.frame.maint ∧
    (recoverRecord i s).frame.levels = s.frame.levels ∧ (recoverRecord i s).frame.latches = s.frame.latches ∧
    (recoverRecord i s).frame.resetLow = s.frame.resetLow ∧
    (recoverRecord i s).frame.holds.notStarted = s.frame.holds.notStarted ∧
    (recoverRecord i s).frame.holds.hostHold = s.frame.holds.hostHold := by
  unfold recoverRecord
  try dsimp only
  (repeat' split) <;> simp
@[simp] theorem goodReply_frameP (k : Nat) (l : List Nat) {s : State} (hs : Frame.sound s.frame) :
    Frame.sound (goodReply k l s).frame := by
  unfold goodReply
  try dsimp only
  (repeat' split) <;> first | (simp +contextual (maxDischargeDepth := 20) [hs]; done) | fail
@[simp] theorem goodReply_inputs (k : Nat) (l : List Nat) (s : State) :
    (goodReply k l s).frame.run = s.frame.run ∧ (goodReply k l s).frame.maint = s.frame.maint ∧
    (goodReply k l s).frame.levels = s.frame.levels ∧ (goodReply k l s).frame.latches = s.frame.latches ∧
    (goodReply k l s).frame.resetLow = s.frame.resetLow ∧
    (goodReply k l s).frame.holds.notStarted = s.frame.holds.notStarted ∧
    (goodReply k l s).frame.holds.hostHold = s.frame.holds.hostHold := by
  unfold goodReply
  try dsimp only
  (repeat' split) <;> simp
@[simp] theorem missedReply_frameP (k : Nat) {s : State} (hs : Frame.sound s.frame) :
    Frame.sound (missedReply k s).frame := by
  unfold missedReply
  try dsimp only
  (repeat' split) <;> first | (simp +contextual (maxDischargeDepth := 20) [hs]; done) | fail
@[simp] theorem missedReply_inputs (k : Nat) (s : State) :
    (missedReply k s).frame.run = s.frame.run ∧ (missedReply k s).frame.maint = s.frame.maint ∧
    (missedReply k s).frame.levels = s.frame.levels ∧ (missedReply k s).frame.latches = s.frame.latches ∧
    (missedReply k s).frame.resetLow = s.frame.resetLow ∧
    (missedReply k s).frame.holds.notStarted = s.frame.holds.notStarted ∧
    (missedReply k s).frame.holds.hostHold = s.frame.holds.hostHold := by
  unfold missedReply
  try dsimp only
  (repeat' split) <;> simp

/-! ### Responses -/


/-! ### Shifts -/

@[simp] theorem switchSegment_frameP (a : Article) {s : State} (hs : Frame.sound s.frame) :
    Frame.sound (switchSegment a s).frame := by
  unfold switchSegment
  try dsimp only
  (repeat' split) <;> first | (simp +contextual (maxDischargeDepth := 20) [hs]; done) | fail
@[simp] theorem switchSegment_inputs (a : Article) (s : State) :
    (switchSegment a s).frame.run = s.frame.run ∧ (switchSegment a s).frame.maint = s.frame.maint ∧
    (switchSegment a s).frame.levels = s.frame.levels ∧ (switchSegment a s).frame.latches = s.frame.latches ∧
    (switchSegment a s).frame.resetLow = s.frame.resetLow ∧
    (switchSegment a s).frame.holds.notStarted = s.frame.holds.notStarted ∧
    (switchSegment a s).frame.holds.hostHold = s.frame.holds.hostHold := by
  unfold switchSegment
  try dsimp only
  (repeat' split) <;> simp
@[simp] theorem articleSwitch_frameP  {s : State} (hs : Frame.sound s.frame) :
    Frame.sound (articleSwitch s).frame := by
  unfold articleSwitch
  try dsimp only
  (repeat' split) <;> first | (simp +contextual (maxDischargeDepth := 20) [hs]; done) | fail
@[simp] theorem articleSwitch_inputs (s : State) :
    (articleSwitch s).frame.run = s.frame.run ∧ (articleSwitch s).frame.maint = s.frame.maint ∧
    (articleSwitch s).frame.levels = s.frame.levels ∧ (articleSwitch s).frame.latches = s.frame.latches ∧
    (articleSwitch s).frame.resetLow = s.frame.resetLow ∧
    (articleSwitch s).frame.holds.notStarted = s.frame.holds.notStarted ∧
    (articleSwitch s).frame.holds.hostHold = s.frame.holds.hostHold := by
  unfold articleSwitch
  try dsimp only
  (repeat' split) <;> simp
@[simp] theorem beginClose_frameP (n : Nat) (w : Bool) {s : State} (hs : Frame.sound s.frame) :
    Frame.sound (beginClose n w s).frame := by
  unfold beginClose
  try dsimp only
  (repeat' split) <;> first | (simp +contextual (maxDischargeDepth := 20) [hs]; done) | fail
@[simp] theorem beginClose_inputs (n : Nat) (w : Bool) (s : State) :
    (beginClose n w s).frame.run = s.frame.run ∧ (beginClose n w s).frame.maint = s.frame.maint ∧
    (beginClose n w s).frame.levels = s.frame.levels ∧ (beginClose n w s).frame.latches = s.frame.latches ∧
    (beginClose n w s).frame.resetLow = s.frame.resetLow ∧
    (beginClose n w s).frame.holds.notStarted = s.frame.holds.notStarted ∧
    (beginClose n w s).frame.holds.hostHold = s.frame.holds.hostHold := by
  unfold beginClose
  try dsimp only
  (repeat' split) <;> simp
@[simp] theorem takeShiftMark_frameP (t : Telegram) {s : State} (hs : Frame.sound s.frame) :
    Frame.sound (takeShiftMark t s).frame := by
  unfold takeShiftMark
  try dsimp only
  (repeat' split) <;> first | (simp +contextual (maxDischargeDepth := 20) [hs]; done) | fail
@[simp] theorem takeShiftMark_inputs (t : Telegram) (s : State) :
    (takeShiftMark t s).frame.run = s.frame.run ∧ (takeShiftMark t s).frame.maint = s.frame.maint ∧
    (takeShiftMark t s).frame.levels = s.frame.levels ∧ (takeShiftMark t s).frame.latches = s.frame.latches ∧
    (takeShiftMark t s).frame.resetLow = s.frame.resetLow ∧
    (takeShiftMark t s).frame.holds.notStarted = s.frame.holds.notStarted ∧
    (takeShiftMark t s).frame.holds.hostHold = s.frame.holds.hostHold := by
  unfold takeShiftMark
  try dsimp only
  (repeat' split) <;> simp
@[simp] theorem sweepEnd_frameP (cl : Closing) {s : State} (hs : Frame.sound s.frame) :
    Frame.sound (sweepEnd cl s).frame := by
  unfold sweepEnd
  try dsimp only
  (repeat' split) <;> first | (simp +contextual (maxDischargeDepth := 20) [hs]; done) | fail
@[simp] theorem sweepEnd_inputs (cl : Closing) (s : State) :
    (sweepEnd cl s).frame.run = s.frame.run ∧ (sweepEnd cl s).frame.maint = s.frame.maint ∧
    (sweepEnd cl s).frame.levels = s.frame.levels ∧ (sweepEnd cl s).frame.latches = s.frame.latches ∧
    (sweepEnd cl s).frame.resetLow = s.frame.resetLow ∧
    (sweepEnd cl s).frame.holds.notStarted = s.frame.holds.notStarted ∧
    (sweepEnd cl s).frame.holds.hostHold = s.frame.holds.hostHold := by
  unfold sweepEnd
  try dsimp only
  (repeat' split) <;> simp
@[simp] theorem sweepOne_frameP  {s : State} (hs : Frame.sound s.frame) :
    Frame.sound (sweepOne s).frame := by
  unfold sweepOne
  try dsimp only
  (repeat' split) <;> first | (simp +contextual (maxDischargeDepth := 20) [hs]; done) | fail
@[simp] theorem sweepOne_inputs (s : State) :
    (sweepOne s).frame.run = s.frame.run ∧ (sweepOne s).frame.maint = s.frame.maint ∧
    (sweepOne s).frame.levels = s.frame.levels ∧ (sweepOne s).frame.latches = s.frame.latches ∧
    (sweepOne s).frame.resetLow = s.frame.resetLow ∧
    (sweepOne s).frame.holds.notStarted = s.frame.holds.notStarted ∧
    (sweepOne s).frame.holds.hostHold = s.frame.holds.hostHold := by
  unfold sweepOne
  try dsimp only
  (repeat' split) <;> simp

/-! ### Lockout -/

@[simp] theorem lockRecord_frameP (i : Nat) {s : State} (hs : Frame.sound s.frame) :
    Frame.sound (lockRecord i s).frame := by
  unfold lockRecord
  try dsimp only
  (repeat' split) <;> first | (simp +contextual (maxDischargeDepth := 20) [hs]; done) | fail
@[simp] theorem lockRecord_inputs (i : Nat) (s : State) :
    (lockRecord i s).frame.run = s.frame.run ∧ (lockRecord i s).frame.maint = s.frame.maint ∧
    (lockRecord i s).frame.levels = s.frame.levels ∧ (lockRecord i s).frame.latches = s.frame.latches ∧
    (lockRecord i s).frame.resetLow = s.frame.resetLow ∧
    (lockRecord i s).frame.holds.notStarted = s.frame.holds.notStarted ∧
    (lockRecord i s).frame.holds.hostHold = s.frame.holds.hostHold := by
  unfold lockRecord
  try dsimp only
  (repeat' split) <;> simp
@[simp] theorem unlockRecord_frameP (i : Nat) {s : State} (hs : Frame.sound s.frame) :
    Frame.sound (unlockRecord i s).frame := by
  unfold unlockRecord
  try dsimp only
  (repeat' split) <;> first | (simp +contextual (maxDischargeDepth := 20) [hs]; done) | fail
@[simp] theorem unlockRecord_inputs (i : Nat) (s : State) :
    (unlockRecord i s).frame.run = s.frame.run ∧ (unlockRecord i s).frame.maint = s.frame.maint ∧
    (unlockRecord i s).frame.levels = s.frame.levels ∧ (unlockRecord i s).frame.latches = s.frame.latches ∧
    (unlockRecord i s).frame.resetLow = s.frame.resetLow ∧
    (unlockRecord i s).frame.holds.notStarted = s.frame.holds.notStarted ∧
    (unlockRecord i s).frame.holds.hostHold = s.frame.holds.hostHold := by
  unfold unlockRecord
  try dsimp only
  (repeat' split) <;> simp
@[simp] theorem rangeRecord_frameP (o n : Option Lockout) (i : Nat) {s : State} (hs : Frame.sound s.frame) :
    Frame.sound (rangeRecord o n i s).frame := by
  unfold rangeRecord
  try dsimp only
  (repeat' split) <;> first | (simp +contextual (maxDischargeDepth := 20) [hs]; done) | fail
@[simp] theorem rangeRecord_inputs (o n : Option Lockout) (i : Nat) (s : State) :
    (rangeRecord o n i s).frame.run = s.frame.run ∧ (rangeRecord o n i s).frame.maint = s.frame.maint ∧
    (rangeRecord o n i s).frame.levels = s.frame.levels ∧ (rangeRecord o n i s).frame.latches = s.frame.latches ∧
    (rangeRecord o n i s).frame.resetLow = s.frame.resetLow ∧
    (rangeRecord o n i s).frame.holds.notStarted = s.frame.holds.notStarted ∧
    (rangeRecord o n i s).frame.holds.hostHold = s.frame.holds.hostHold := by
  unfold rangeRecord
  try dsimp only
  (repeat' split) <;> simp
@[simp] theorem applyRange_frameP (n : Option Lockout) {s : State} (hs : Frame.sound s.frame) :
    Frame.sound (applyRange n s).frame := by
  unfold applyRange
  try dsimp only
  (repeat' split) <;> first | (simp +contextual (maxDischargeDepth := 20) [hs]; done) | fail
@[simp] theorem applyRange_inputs (n : Option Lockout) (s : State) :
    (applyRange n s).frame.run = s.frame.run ∧ (applyRange n s).frame.maint = s.frame.maint ∧
    (applyRange n s).frame.levels = s.frame.levels ∧ (applyRange n s).frame.latches = s.frame.latches ∧
    (applyRange n s).frame.resetLow = s.frame.resetLow ∧
    (applyRange n s).frame.holds.notStarted = s.frame.holds.notStarted ∧
    (applyRange n s).frame.holds.hostHold = s.frame.holds.hostHold := by
  unfold applyRange
  try dsimp only
  (repeat' split) <;> simp
@[simp] theorem takeMaint_frameP (l : Bool) {s : State} (hs : Frame.sound s.frame) : Frame.sound (takeMaint l s).frame := by
  unfold takeMaint
  dsimp only
  split <;> exact hs
@[simp] theorem takeMaint_inputs (l : Bool) (s : State) :
    (takeMaint l s).frame.run = s.frame.run ∧ (takeMaint l s).frame.levels = s.frame.levels ∧
    (takeMaint l s).frame.latches = s.frame.latches ∧ (takeMaint l s).frame.resetLow = s.frame.resetLow ∧
    (takeMaint l s).frame.holds.notStarted = s.frame.holds.notStarted ∧
    (takeMaint l s).frame.holds.hostHold = s.frame.holds.hostHold := by
  unfold takeMaint
  try dsimp only
  (repeat' split) <;> simp
@[simp] theorem unmarkRogue_frameP (i : Nat) {s : State} (hs : Frame.sound s.frame) :
    Frame.sound (unmarkRogue i s).frame := by
  unfold unmarkRogue
  try dsimp only
  (repeat' split) <;> first | (simp +contextual (maxDischargeDepth := 20) [hs]; done) | fail
@[simp] theorem unmarkRogue_inputs (i : Nat) (s : State) :
    (unmarkRogue i s).frame.run = s.frame.run ∧ (unmarkRogue i s).frame.maint = s.frame.maint ∧
    (unmarkRogue i s).frame.levels = s.frame.levels ∧ (unmarkRogue i s).frame.latches = s.frame.latches ∧
    (unmarkRogue i s).frame.resetLow = s.frame.resetLow ∧
    (unmarkRogue i s).frame.holds.notStarted = s.frame.holds.notStarted ∧
    (unmarkRogue i s).frame.holds.hostHold = s.frame.holds.hostHold := by
  unfold unmarkRogue
  try dsimp only
  (repeat' split) <;> simp

/-! ### Carriers -/

@[simp] theorem takeBooking_frameP (t : Telegram) {s : State} (hs : Frame.sound s.frame) :
    Frame.sound (takeBooking t s).frame := by
  unfold takeBooking
  try dsimp only
  (repeat' split) <;> first | (simp +contextual (maxDischargeDepth := 20) [hs]; done) | fail
@[simp] theorem takeBooking_inputs (t : Telegram) (s : State) :
    (takeBooking t s).frame.run = s.frame.run ∧ (takeBooking t s).frame.maint = s.frame.maint ∧
    (takeBooking t s).frame.levels = s.frame.levels ∧ (takeBooking t s).frame.latches = s.frame.latches ∧
    (takeBooking t s).frame.resetLow = s.frame.resetLow ∧
    (takeBooking t s).frame.holds.notStarted = s.frame.holds.notStarted ∧
    (takeBooking t s).frame.holds.hostHold = s.frame.holds.hostHold := by
  unfold takeBooking
  try dsimp only
  (repeat' split) <;> simp
@[simp] theorem exchangeRecord_frameP (i : Nat) {s : State} (hs : Frame.sound s.frame) :
    Frame.sound (exchangeRecord i s).frame := by
  unfold exchangeRecord
  try dsimp only
  (repeat' split) <;> first | (simp +contextual (maxDischargeDepth := 20) [hs]; done) | fail
@[simp] theorem exchangeRecord_inputs (i : Nat) (s : State) :
    (exchangeRecord i s).frame.run = s.frame.run ∧ (exchangeRecord i s).frame.maint = s.frame.maint ∧
    (exchangeRecord i s).frame.levels = s.frame.levels ∧ (exchangeRecord i s).frame.latches = s.frame.latches ∧
    (exchangeRecord i s).frame.resetLow = s.frame.resetLow ∧
    (exchangeRecord i s).frame.holds.notStarted = s.frame.holds.notStarted ∧
    (exchangeRecord i s).frame.holds.hostHold = s.frame.holds.hostHold := by
  unfold exchangeRecord
  try dsimp only
  (repeat' split) <;> simp
@[simp] theorem beginExchange_frameP (k n c : Nat) {s : State} (hs : Frame.sound s.frame) :
    Frame.sound (beginExchange k n c s).frame := by
  unfold beginExchange
  try dsimp only
  (repeat' split) <;> first | (simp +contextual (maxDischargeDepth := 20) [hs]; done) | fail
@[simp] theorem beginExchange_inputs (k n c : Nat) (s : State) :
    (beginExchange k n c s).frame.run = s.frame.run ∧ (beginExchange k n c s).frame.maint = s.frame.maint ∧
    (beginExchange k n c s).frame.levels = s.frame.levels ∧
    (beginExchange k n c s).frame.latches = s.frame.latches ∧
    (beginExchange k n c s).frame.resetLow = s.frame.resetLow ∧
    (beginExchange k n c s).frame.holds.notStarted = s.frame.holds.notStarted ∧
    (beginExchange k n c s).frame.holds.hostHold = s.frame.holds.hostHold := by
  unfold beginExchange
  try dsimp only
  (repeat' split) <;> simp
@[simp] theorem takeExchangeBegin_frameP (t : Telegram) {s : State} (hs : Frame.sound s.frame) :
    Frame.sound (takeExchangeBegin t s).frame := by
  unfold takeExchangeBegin
  try dsimp only
  (repeat' split) <;> first | (simp +contextual (maxDischargeDepth := 20) [hs]; done) | fail
@[simp] theorem takeExchangeBegin_inputs (t : Telegram) (s : State) :
    (takeExchangeBegin t s).frame.run = s.frame.run ∧ (takeExchangeBegin t s).frame.maint = s.frame.maint ∧
    (takeExchangeBegin t s).frame.levels = s.frame.levels ∧
    (takeExchangeBegin t s).frame.latches = s.frame.latches ∧
    (takeExchangeBegin t s).frame.resetLow = s.frame.resetLow ∧
    (takeExchangeBegin t s).frame.holds.notStarted = s.frame.holds.notStarted ∧
    (takeExchangeBegin t s).frame.holds.hostHold = s.frame.holds.hostHold := by
  unfold takeExchangeBegin
  try dsimp only
  (repeat' split) <;> simp
@[simp] theorem takeExchangeEnd_frameP (t : Telegram) {s : State} (hs : Frame.sound s.frame) :
    Frame.sound (takeExchangeEnd t s).frame := by
  unfold takeExchangeEnd
  try dsimp only
  (repeat' split) <;> first | (simp +contextual (maxDischargeDepth := 20) [hs]; done) | fail
@[simp] theorem takeExchangeEnd_inputs (t : Telegram) (s : State) :
    (takeExchangeEnd t s).frame.run = s.frame.run ∧ (takeExchangeEnd t s).frame.maint = s.frame.maint ∧
    (takeExchangeEnd t s).frame.levels = s.frame.levels ∧ (takeExchangeEnd t s).frame.latches = s.frame.latches ∧
    (takeExchangeEnd t s).frame.resetLow = s.frame.resetLow ∧
    (takeExchangeEnd t s).frame.holds.notStarted = s.frame.holds.notStarted ∧
    (takeExchangeEnd t s).frame.holds.hostHold = s.frame.holds.hostHold := by
  unfold takeExchangeEnd
  try dsimp only
  (repeat' split) <;> simp
@[simp] theorem abandonOf_frameP (c k : Nat) {s : State} (hs : Frame.sound s.frame) :
    Frame.sound (abandonOf c k s).frame := by
  unfold abandonOf
  try dsimp only
  (repeat' split) <;> first | (simp +contextual (maxDischargeDepth := 20) [hs]; done) | fail
@[simp] theorem abandonOf_inputs (c k : Nat) (s : State) :
    (abandonOf c k s).frame.run = s.frame.run ∧ (abandonOf c k s).frame.maint = s.frame.maint ∧
    (abandonOf c k s).frame.levels = s.frame.levels ∧ (abandonOf c k s).frame.latches = s.frame.latches ∧
    (abandonOf c k s).frame.resetLow = s.frame.resetLow ∧
    (abandonOf c k s).frame.holds.notStarted = s.frame.holds.notStarted ∧
    (abandonOf c k s).frame.holds.hostHold = s.frame.holds.hostHold := by
  unfold abandonOf
  try dsimp only
  (repeat' split) <;> simp
@[simp] theorem carrierRestarted_frameP (c : Nat) {s : State} (hs : Frame.sound s.frame) :
    Frame.sound (carrierRestarted c s).frame := by
  unfold carrierRestarted
  try dsimp only
  (repeat' split) <;> first | (simp +contextual (maxDischargeDepth := 20) [hs]; done) | fail
@[simp] theorem carrierRestarted_inputs (c : Nat) (s : State) :
    (carrierRestarted c s).frame.run = s.frame.run ∧ (carrierRestarted c s).frame.maint = s.frame.maint ∧
    (carrierRestarted c s).frame.levels = s.frame.levels ∧ (carrierRestarted c s).frame.latches = s.frame.latches ∧
    (carrierRestarted c s).frame.resetLow = s.frame.resetLow ∧
    (carrierRestarted c s).frame.holds.notStarted = s.frame.holds.notStarted ∧
    (carrierRestarted c s).frame.holds.hostHold = s.frame.holds.hostHold := by
  unfold carrierRestarted
  try dsimp only
  (repeat' split) <;> simp
@[simp] theorem lapse_frameP (n : Nat) {s : State} (hs : Frame.sound s.frame) :
    Frame.sound (lapse n s).frame := by
  unfold lapse
  try dsimp only
  (repeat' split) <;> first | (simp +contextual (maxDischargeDepth := 20) [hs]; done) | fail
@[simp] theorem lapse_inputs (n : Nat) (s : State) :
    (lapse n s).frame.run = s.frame.run ∧ (lapse n s).frame.maint = s.frame.maint ∧
    (lapse n s).frame.levels = s.frame.levels ∧ (lapse n s).frame.latches = s.frame.latches ∧
    (lapse n s).frame.resetLow = s.frame.resetLow ∧ (lapse n s).frame.holds.notStarted = s.frame.holds.notStarted ∧
    (lapse n s).frame.holds.hostHold = s.frame.holds.hostHold := by
  unfold lapse
  try dsimp only
  (repeat' split) <;> simp

/-! ### The doff sequencer -/

@[simp] theorem sendClaim_frameP  {s : State} (hs : Frame.sound s.frame) :
    Frame.sound (sendClaim s).frame := by
  unfold sendClaim
  try dsimp only
  (repeat' split) <;> first | (simp +contextual (maxDischargeDepth := 20) [hs]; done) | fail
@[simp] theorem sendClaim_inputs (s : State) :
    (sendClaim s).frame.run = s.frame.run ∧ (sendClaim s).frame.maint = s.frame.maint ∧
    (sendClaim s).frame.levels = s.frame.levels ∧ (sendClaim s).frame.latches = s.frame.latches ∧
    (sendClaim s).frame.resetLow = s.frame.resetLow ∧
    (sendClaim s).frame.holds.notStarted = s.frame.holds.notStarted ∧
    (sendClaim s).frame.holds.hostHold = s.frame.holds.hostHold := by
  unfold sendClaim
  try dsimp only
  (repeat' split) <;> simp
@[simp] theorem sendDoffState_frameP  {s : State} (hs : Frame.sound s.frame) :
    Frame.sound (sendDoffState s).frame := by
  unfold sendDoffState
  try dsimp only
  (repeat' split) <;> first | (simp +contextual (maxDischargeDepth := 20) [hs]; done) | fail
@[simp] theorem sendDoffState_inputs (s : State) :
    (sendDoffState s).frame.run = s.frame.run ∧ (sendDoffState s).frame.maint = s.frame.maint ∧
    (sendDoffState s).frame.levels = s.frame.levels ∧ (sendDoffState s).frame.latches = s.frame.latches ∧
    (sendDoffState s).frame.resetLow = s.frame.resetLow ∧
    (sendDoffState s).frame.holds.notStarted = s.frame.holds.notStarted ∧
    (sendDoffState s).frame.holds.hostHold = s.frame.holds.hostHold := by
  unfold sendDoffState
  try dsimp only
  (repeat' split) <;> simp
@[simp] theorem claimFull_frameP  {s : State} (hs : Frame.sound s.frame) :
    Frame.sound (claimFull s).frame := by
  unfold claimFull
  try dsimp only
  (repeat' split) <;> first | (simp +contextual (maxDischargeDepth := 20) [hs]; done) | fail
@[simp] theorem claimFull_inputs (s : State) :
    (claimFull s).frame.run = s.frame.run ∧ (claimFull s).frame.maint = s.frame.maint ∧
    (claimFull s).frame.levels = s.frame.levels ∧ (claimFull s).frame.latches = s.frame.latches ∧
    (claimFull s).frame.resetLow = s.frame.resetLow ∧
    (claimFull s).frame.holds.notStarted = s.frame.holds.notStarted ∧
    (claimFull s).frame.holds.hostHold = s.frame.holds.hostHold := by
  unfold claimFull
  try dsimp only
  (repeat' split) <;> simp
@[simp] theorem claim_frameP (m : Bool) {s : State} (hs : Frame.sound s.frame) :
    Frame.sound (claim m s).frame := by
  unfold claim
  try dsimp only
  (repeat' split) <;> first | (simp +contextual (maxDischargeDepth := 20) [hs]; done) | fail
@[simp] theorem claim_inputs (m : Bool) (s : State) :
    (claim m s).frame.run = s.frame.run ∧ (claim m s).frame.maint = s.frame.maint ∧
    (claim m s).frame.levels = s.frame.levels ∧ (claim m s).frame.latches = s.frame.latches ∧
    (claim m s).frame.resetLow = s.frame.resetLow ∧ (claim m s).frame.holds.notStarted = s.frame.holds.notStarted ∧
    (claim m s).frame.holds.hostHold = s.frame.holds.hostHold := by
  unfold claim
  try dsimp only
  (repeat' split) <;> simp
@[simp] theorem fillCheck_frameP  {s : State} (hs : Frame.sound s.frame) :
    Frame.sound (fillCheck s).frame := by
  unfold fillCheck
  try dsimp only
  (repeat' split) <;> first | (simp +contextual (maxDischargeDepth := 20) [hs]; done) | fail
@[simp] theorem fillCheck_inputs (s : State) :
    (fillCheck s).frame.run = s.frame.run ∧ (fillCheck s).frame.maint = s.frame.maint ∧
    (fillCheck s).frame.levels = s.frame.levels ∧ (fillCheck s).frame.latches = s.frame.latches ∧
    (fillCheck s).frame.resetLow = s.frame.resetLow ∧
    (fillCheck s).frame.holds.notStarted = s.frame.holds.notStarted ∧
    (fillCheck s).frame.holds.hostHold = s.frame.holds.hostHold := by
  unfold fillCheck
  try dsimp only
  (repeat' split) <;> simp
@[simp] theorem grant_frameP  {s : State} (hs : Frame.sound s.frame) :
    Frame.sound (grant s).frame := by
  unfold grant
  try dsimp only
  (repeat' split) <;> first | (simp +contextual (maxDischargeDepth := 20) [hs]; done) | fail
@[simp] theorem grant_inputs (s : State) :
    (grant s).frame.run = s.frame.run ∧ (grant s).frame.maint = s.frame.maint ∧
    (grant s).frame.levels = s.frame.levels ∧ (grant s).frame.latches = s.frame.latches ∧
    (grant s).frame.resetLow = s.frame.resetLow ∧ (grant s).frame.holds.notStarted = s.frame.holds.notStarted ∧
    (grant s).frame.holds.hostHold = s.frame.holds.hostHold := by
  unfold grant
  try dsimp only
  (repeat' split) <;> simp
@[simp] theorem grantCheck_frameP  {s : State} (hs : Frame.sound s.frame) :
    Frame.sound (grantCheck s).frame := by
  unfold grantCheck
  try dsimp only
  (repeat' split) <;> first | (simp +contextual (maxDischargeDepth := 20) [hs]; done) | fail
@[simp] theorem grantCheck_inputs (s : State) :
    (grantCheck s).frame.run = s.frame.run ∧ (grantCheck s).frame.maint = s.frame.maint ∧
    (grantCheck s).frame.levels = s.frame.levels ∧ (grantCheck s).frame.latches = s.frame.latches ∧
    (grantCheck s).frame.resetLow = s.frame.resetLow ∧
    (grantCheck s).frame.holds.notStarted = s.frame.holds.notStarted ∧
    (grantCheck s).frame.holds.hostHold = s.frame.holds.hostHold := by
  unfold grantCheck
  try dsimp only
  (repeat' split) <;> simp
@[simp] theorem withdrawGrant_frameP  {s : State} (hs : Frame.sound s.frame) :
    Frame.sound (withdrawGrant s).frame := by
  unfold withdrawGrant
  try dsimp only
  (repeat' split) <;> first | (simp +contextual (maxDischargeDepth := 20) [hs]; done) | fail
@[simp] theorem withdrawGrant_inputs (s : State) :
    (withdrawGrant s).frame.run = s.frame.run ∧ (withdrawGrant s).frame.maint = s.frame.maint ∧
    (withdrawGrant s).frame.levels = s.frame.levels ∧ (withdrawGrant s).frame.latches = s.frame.latches ∧
    (withdrawGrant s).frame.resetLow = s.frame.resetLow ∧
    (withdrawGrant s).frame.holds.notStarted = s.frame.holds.notStarted ∧
    (withdrawGrant s).frame.holds.hostHold = s.frame.holds.hostHold := by
  unfold withdrawGrant
  try dsimp only
  (repeat' split) <;> simp
@[simp] theorem backOffCheck_frameP  {s : State} (hs : Frame.sound s.frame) :
    Frame.sound (backOffCheck s).frame := by
  unfold backOffCheck
  try dsimp only
  (repeat' split) <;> first | (simp +contextual (maxDischargeDepth := 20) [hs]; done) | fail
@[simp] theorem backOffCheck_inputs (s : State) :
    (backOffCheck s).frame.run = s.frame.run ∧ (backOffCheck s).frame.maint = s.frame.maint ∧
    (backOffCheck s).frame.levels = s.frame.levels ∧ (backOffCheck s).frame.latches = s.frame.latches ∧
    (backOffCheck s).frame.resetLow = s.frame.resetLow ∧
    (backOffCheck s).frame.holds.notStarted = s.frame.holds.notStarted ∧
    (backOffCheck s).frame.holds.hostHold = s.frame.holds.hostHold := by
  unfold backOffCheck
  try dsimp only
  (repeat' split) <;> simp
@[simp] theorem viewChanged_frameP  {s : State} (hs : Frame.sound s.frame) :
    Frame.sound (viewChanged s).frame := by
  unfold viewChanged
  try dsimp only
  (repeat' split) <;> first | (simp +contextual (maxDischargeDepth := 20) [hs]; done) | fail
@[simp] theorem viewChanged_inputs (s : State) :
    (viewChanged s).frame.run = s.frame.run ∧ (viewChanged s).frame.maint = s.frame.maint ∧
    (viewChanged s).frame.levels = s.frame.levels ∧ (viewChanged s).frame.latches = s.frame.latches ∧
    (viewChanged s).frame.resetLow = s.frame.resetLow ∧
    (viewChanged s).frame.holds.notStarted = s.frame.holds.notStarted ∧
    (viewChanged s).frame.holds.hostHold = s.frame.holds.hostHold := by
  unfold viewChanged
  try dsimp only
  (repeat' split) <;> simp
@[simp] theorem takePeer_frameP (p : Peer) {s : State} (hs : Frame.sound s.frame) :
    Frame.sound (takePeer p s).frame := by
  unfold takePeer
  try dsimp only
  (repeat' split) <;> first | (simp +contextual (maxDischargeDepth := 20) [hs]; done) | fail
@[simp] theorem takePeer_inputs (p : Peer) (s : State) :
    (takePeer p s).frame.run = s.frame.run ∧ (takePeer p s).frame.maint = s.frame.maint ∧
    (takePeer p s).frame.levels = s.frame.levels ∧ (takePeer p s).frame.latches = s.frame.latches ∧
    (takePeer p s).frame.resetLow = s.frame.resetLow ∧
    (takePeer p s).frame.holds.notStarted = s.frame.holds.notStarted ∧
    (takePeer p s).frame.holds.hostHold = s.frame.holds.hostHold := by
  unfold takePeer
  try dsimp only
  (repeat' split) <;> simp
@[simp] theorem takeClaim_frameP (t : Telegram) {s : State} (hs : Frame.sound s.frame) :
    Frame.sound (takeClaim t s).frame := by
  unfold takeClaim
  try dsimp only
  (repeat' split) <;> first | (simp +contextual (maxDischargeDepth := 20) [hs]; done) | fail
@[simp] theorem takeClaim_inputs (t : Telegram) (s : State) :
    (takeClaim t s).frame.run = s.frame.run ∧ (takeClaim t s).frame.maint = s.frame.maint ∧
    (takeClaim t s).frame.levels = s.frame.levels ∧ (takeClaim t s).frame.latches = s.frame.latches ∧
    (takeClaim t s).frame.resetLow = s.frame.resetLow ∧
    (takeClaim t s).frame.holds.notStarted = s.frame.holds.notStarted ∧
    (takeClaim t s).frame.holds.hostHold = s.frame.holds.hostHold := by
  unfold takeClaim
  try dsimp only
  (repeat' split) <;> simp
@[simp] theorem takeDoffState_frameP (t : Telegram) {s : State} (hs : Frame.sound s.frame) :
    Frame.sound (takeDoffState t s).frame := by
  unfold takeDoffState
  try dsimp only
  (repeat' split) <;> first | (simp +contextual (maxDischargeDepth := 20) [hs]; done) | fail
@[simp] theorem takeDoffState_inputs (t : Telegram) (s : State) :
    (takeDoffState t s).frame.run = s.frame.run ∧ (takeDoffState t s).frame.maint = s.frame.maint ∧
    (takeDoffState t s).frame.levels = s.frame.levels ∧ (takeDoffState t s).frame.latches = s.frame.latches ∧
    (takeDoffState t s).frame.resetLow = s.frame.resetLow ∧
    (takeDoffState t s).frame.holds.notStarted = s.frame.holds.notStarted ∧
    (takeDoffState t s).frame.holds.hostHold = s.frame.holds.hostHold := by
  unfold takeDoffState
  try dsimp only
  (repeat' split) <;> simp
@[simp] theorem keepPeers_frameP (k : Peer → Bool) {s : State} (hs : Frame.sound s.frame) :
    Frame.sound (keepPeers k s).frame := by
  unfold keepPeers
  try dsimp only
  (repeat' split) <;> first | (simp +contextual (maxDischargeDepth := 20) [hs]; done) | fail
@[simp] theorem keepPeers_inputs (k : Peer → Bool) (s : State) :
    (keepPeers k s).frame.run = s.frame.run ∧ (keepPeers k s).frame.maint = s.frame.maint ∧
    (keepPeers k s).frame.levels = s.frame.levels ∧ (keepPeers k s).frame.latches = s.frame.latches ∧
    (keepPeers k s).frame.resetLow = s.frame.resetLow ∧
    (keepPeers k s).frame.holds.notStarted = s.frame.holds.notStarted ∧
    (keepPeers k s).frame.holds.hostHold = s.frame.holds.hostHold := by
  unfold keepPeers
  try dsimp only
  (repeat' split) <;> simp
@[simp] theorem peerGone_frameP (k : Nat) {s : State} (hs : Frame.sound s.frame) :
    Frame.sound (peerGone k s).frame := by
  unfold peerGone
  try dsimp only
  (repeat' split) <;> first | (simp +contextual (maxDischargeDepth := 20) [hs]; done) | fail
@[simp] theorem peerGone_inputs (k : Nat) (s : State) :
    (peerGone k s).frame.run = s.frame.run ∧ (peerGone k s).frame.maint = s.frame.maint ∧
    (peerGone k s).frame.levels = s.frame.levels ∧ (peerGone k s).frame.latches = s.frame.latches ∧
    (peerGone k s).frame.resetLow = s.frame.resetLow ∧
    (peerGone k s).frame.holds.notStarted = s.frame.holds.notStarted ∧
    (peerGone k s).frame.holds.hostHold = s.frame.holds.hostHold := by
  unfold peerGone
  try dsimp only
  (repeat' split) <;> simp
@[simp] theorem stopTest_frameP  {s : State} (hs : Frame.sound s.frame) :
    Frame.sound (stopTest s).frame := by
  unfold stopTest
  try dsimp only
  (repeat' split) <;> first | (simp +contextual (maxDischargeDepth := 20) [hs]; done) | fail
@[simp] theorem stopTest_inputs (s : State) :
    (stopTest s).frame.run = s.frame.run ∧ (stopTest s).frame.maint = s.frame.maint ∧
    (stopTest s).frame.levels = s.frame.levels ∧ (stopTest s).frame.latches = s.frame.latches ∧
    (stopTest s).frame.resetLow = s.frame.resetLow ∧
    (stopTest s).frame.holds.notStarted = s.frame.holds.notStarted ∧
    (stopTest s).frame.holds.hostHold = s.frame.holds.hostHold := by
  unfold stopTest
  try dsimp only
  (repeat' split) <;> simp
@[simp] theorem enterRundown_frameP  {s : State} (hs : Frame.sound s.frame) :
    Frame.sound (enterRundown s).frame := by
  unfold enterRundown
  try dsimp only
  (repeat' split) <;> first | (simp +contextual (maxDischargeDepth := 20) [hs]; done) | fail
@[simp] theorem enterRundown_inputs (s : State) :
    (enterRundown s).frame.run = s.frame.run ∧ (enterRundown s).frame.maint = s.frame.maint ∧
    (enterRundown s).frame.levels = s.frame.levels ∧ (enterRundown s).frame.latches = s.frame.latches ∧
    (enterRundown s).frame.resetLow = s.frame.resetLow ∧
    (enterRundown s).frame.holds.notStarted = s.frame.holds.notStarted ∧
    (enterRundown s).frame.holds.hostHold = s.frame.holds.hostHold := by
  unfold enterRundown
  try dsimp only
  (repeat' split) <;> simp
@[simp] theorem announceDoff_frameP  {s : State} (hs : Frame.sound s.frame) :
    Frame.sound (announceDoff s).frame := by
  unfold announceDoff
  try dsimp only
  (repeat' split) <;> first | (simp +contextual (maxDischargeDepth := 20) [hs]; done) | fail
@[simp] theorem announceDoff_inputs (s : State) :
    (announceDoff s).frame.run = s.frame.run ∧ (announceDoff s).frame.maint = s.frame.maint ∧
    (announceDoff s).frame.levels = s.frame.levels ∧ (announceDoff s).frame.latches = s.frame.latches ∧
    (announceDoff s).frame.resetLow = s.frame.resetLow ∧
    (announceDoff s).frame.holds.notStarted = s.frame.holds.notStarted ∧
    (announceDoff s).frame.holds.hostHold = s.frame.holds.hostHold := by
  unfold announceDoff
  try dsimp only
  (repeat' split) <;> simp
@[simp] theorem completeDoff_frameP  {s : State} (hs : Frame.sound s.frame) :
    Frame.sound (completeDoff s).frame := by
  unfold completeDoff
  try dsimp only
  (repeat' split) <;> first | (simp +contextual (maxDischargeDepth := 20) [hs]; done) | fail
@[simp] theorem completeDoff_inputs (s : State) :
    (completeDoff s).frame.run = s.frame.run ∧ (completeDoff s).frame.maint = s.frame.maint ∧
    (completeDoff s).frame.levels = s.frame.levels ∧ (completeDoff s).frame.latches = s.frame.latches ∧
    (completeDoff s).frame.resetLow = s.frame.resetLow ∧
    (completeDoff s).frame.holds.notStarted = s.frame.holds.notStarted ∧
    (completeDoff s).frame.holds.hostHold = s.frame.holds.hostHold := by
  unfold completeDoff
  try dsimp only
  (repeat' split) <;> simp
@[simp] theorem judge_frameP (n i : Nat) {s : State} (hs : Frame.sound s.frame) :
    Frame.sound (judge n i s).frame := by
  unfold judge
  try dsimp only
  (repeat' split) <;> first | (simp +contextual (maxDischargeDepth := 20) [hs]; done) | fail
@[simp] theorem judge_inputs (n i : Nat) (s : State) :
    (judge n i s).frame.run = s.frame.run ∧ (judge n i s).frame.maint = s.frame.maint ∧
    (judge n i s).frame.levels = s.frame.levels ∧ (judge n i s).frame.latches = s.frame.latches ∧
    (judge n i s).frame.resetLow = s.frame.resetLow ∧
    (judge n i s).frame.holds.notStarted = s.frame.holds.notStarted ∧
    (judge n i s).frame.holds.hostHold = s.frame.holds.hostHold := by
  unfold judge
  try dsimp only
  (repeat' split) <;> simp
@[simp] theorem settleEnd_frameP  {s : State} (hs : Frame.sound s.frame) :
    Frame.sound (settleEnd s).frame := by
  unfold settleEnd
  try dsimp only
  (repeat' split) <;> first | (simp +contextual (maxDischargeDepth := 20) [hs]; done) | fail
@[simp] theorem settleEnd_inputs (s : State) :
    (settleEnd s).frame.run = s.frame.run ∧ (settleEnd s).frame.maint = s.frame.maint ∧
    (settleEnd s).frame.levels = s.frame.levels ∧ (settleEnd s).frame.latches = s.frame.latches ∧
    (settleEnd s).frame.resetLow = s.frame.resetLow ∧
    (settleEnd s).frame.holds.notStarted = s.frame.holds.notStarted ∧
    (settleEnd s).frame.holds.hostHold = s.frame.holds.hostHold := by
  unfold settleEnd
  try dsimp only
  (repeat' split) <;> simp
@[simp] theorem abandon_frameP  {s : State} (hs : Frame.sound s.frame) :
    Frame.sound (abandon s).frame := by
  unfold abandon
  try dsimp only
  (repeat' split) <;> first | (simp +contextual (maxDischargeDepth := 20) [hs]; done) | fail
@[simp] theorem abandon_inputs (s : State) :
    (abandon s).frame.run = s.frame.run ∧ (abandon s).frame.maint = s.frame.maint ∧
    (abandon s).frame.levels = s.frame.levels ∧ (abandon s).frame.latches = s.frame.latches ∧
    (abandon s).frame.resetLow = s.frame.resetLow ∧ (abandon s).frame.holds.notStarted = s.frame.holds.notStarted ∧
    (abandon s).frame.holds.hostHold = s.frame.holds.hostHold := by
  unfold abandon
  try dsimp only
  (repeat' split) <;> simp
@[simp] theorem restartDoff_frameP  {s : State} (hs : Frame.sound s.frame) :
    Frame.sound (restartDoff s).frame := by
  unfold restartDoff
  try dsimp only
  (repeat' split) <;> first | (simp +contextual (maxDischargeDepth := 20) [hs]; done) | fail
@[simp] theorem restartDoff_inputs (s : State) :
    (restartDoff s).frame.run = s.frame.run ∧ (restartDoff s).frame.maint = s.frame.maint ∧
    (restartDoff s).frame.levels = s.frame.levels ∧ (restartDoff s).frame.latches = s.frame.latches ∧
    (restartDoff s).frame.resetLow = s.frame.resetLow ∧
    (restartDoff s).frame.holds.notStarted = s.frame.holds.notStarted ∧
    (restartDoff s).frame.holds.hostHold = s.frame.holds.hostHold := by
  unfold restartDoff
  try dsimp only
  (repeat' split) <;> simp

/-! ### The hall line -/

@[simp] theorem duplicateStation_frameP (bs : List Byte) {s : State} (hs : Frame.sound s.frame) :
    Frame.sound (duplicateStation bs s).frame := by
  unfold duplicateStation
  try dsimp only
  (repeat' split) <;> first | (simp +contextual (maxDischargeDepth := 20) [hs]; done) | fail
@[simp] theorem duplicateStation_inputs (bs : List Byte) (s : State) :
    (duplicateStation bs s).frame.run = s.frame.run ∧ (duplicateStation bs s).frame.maint = s.frame.maint ∧
    (duplicateStation bs s).frame.levels = s.frame.levels ∧
    (duplicateStation bs s).frame.latches = s.frame.latches ∧
    (duplicateStation bs s).frame.resetLow = s.frame.resetLow ∧
    (duplicateStation bs s).frame.holds.notStarted = s.frame.holds.notStarted ∧
    (duplicateStation bs s).frame.holds.hostHold = s.frame.holds.hostHold := by
  unfold duplicateStation
  try dsimp only
  (repeat' split) <;> simp
@[simp] theorem keep_frameP (bs : List Byte) {s : State} (hs : Frame.sound s.frame) :
    Frame.sound (keep bs s).frame := by
  unfold keep
  try dsimp only
  (repeat' split) <;> first | (simp +contextual (maxDischargeDepth := 20) [hs]; done) | fail
@[simp] theorem keep_inputs (bs : List Byte) (s : State) :
    (keep bs s).frame.run = s.frame.run ∧ (keep bs s).frame.maint = s.frame.maint ∧
    (keep bs s).frame.levels = s.frame.levels ∧ (keep bs s).frame.latches = s.frame.latches ∧
    (keep bs s).frame.resetLow = s.frame.resetLow ∧ (keep bs s).frame.holds.notStarted = s.frame.holds.notStarted ∧
    (keep bs s).frame.holds.hostHold = s.frame.holds.hostHold := by
  unfold keep
  try dsimp only
  (repeat' split) <;> simp
@[simp] theorem received_frameP (bs : List Byte) (b o : Bool) {s : State} (hs : Frame.sound s.frame) :
    Frame.sound (received bs b o s).frame := by
  unfold received
  try dsimp only
  (repeat' split) <;> first | (simp +contextual (maxDischargeDepth := 20) [hs]; done) | fail
@[simp] theorem received_inputs (bs : List Byte) (b o : Bool) (s : State) :
    (received bs b o s).frame.run = s.frame.run ∧ (received bs b o s).frame.maint = s.frame.maint ∧
    (received bs b o s).frame.levels = s.frame.levels ∧ (received bs b o s).frame.latches = s.frame.latches ∧
    (received bs b o s).frame.resetLow = s.frame.resetLow ∧
    (received bs b o s).frame.holds.notStarted = s.frame.holds.notStarted ∧
    (received bs b o s).frame.holds.hostHold = s.frame.holds.hostHold := by
  unfold received
  try dsimp only
  (repeat' split) <;> simp
@[simp] theorem collide_frameP (o : Outgoing) {s : State} (hs : Frame.sound s.frame) :
    Frame.sound (collide o s).frame := by
  unfold collide
  try dsimp only
  (repeat' split) <;> first | (simp +contextual (maxDischargeDepth := 20) [hs]; done) | fail
@[simp] theorem collide_inputs (o : Outgoing) (s : State) :
    (collide o s).frame.run = s.frame.run ∧ (collide o s).frame.maint = s.frame.maint ∧
    (collide o s).frame.levels = s.frame.levels ∧ (collide o s).frame.latches = s.frame.latches ∧
    (collide o s).frame.resetLow = s.frame.resetLow ∧
    (collide o s).frame.holds.notStarted = s.frame.holds.notStarted ∧
    (collide o s).frame.holds.hostHold = s.frame.holds.hostHold := by
  unfold collide
  try dsimp only
  (repeat' split) <;> simp
@[simp] theorem restartCreel_frameP  {s : State} (hs : Frame.sound s.frame) :
    Frame.sound (restartCreel s).frame := by
  unfold restartCreel
  try dsimp only
  (repeat' split) <;> first | (simp +contextual (maxDischargeDepth := 20) [hs]; done) | fail
@[simp] theorem restartCreel_inputs (s : State) :
    (restartCreel s).frame.run = s.frame.run ∧ (restartCreel s).frame.maint = s.frame.maint ∧
    (restartCreel s).frame.levels = s.frame.levels ∧ (restartCreel s).frame.latches = s.frame.latches ∧
    (restartCreel s).frame.resetLow = s.frame.resetLow ∧
    (restartCreel s).frame.holds.notStarted = s.frame.holds.notStarted ∧
    (restartCreel s).frame.holds.hostHold = s.frame.holds.hostHold := by
  unfold restartCreel
  try dsimp only
  (repeat' split) <;> simp
@[simp] theorem lineRestart_frameP  {s : State} (hs : Frame.sound s.frame) :
    Frame.sound (lineRestart s).frame := by
  unfold lineRestart
  try dsimp only
  (repeat' split) <;> first | (simp +contextual (maxDischargeDepth := 20) [hs]; done) | fail
@[simp] theorem lineRestart_inputs (s : State) :
    (lineRestart s).frame.run = s.frame.run ∧ (lineRestart s).frame.maint = s.frame.maint ∧
    (lineRestart s).frame.levels = s.frame.levels ∧ (lineRestart s).frame.latches = s.frame.latches ∧
    (lineRestart s).frame.resetLow = s.frame.resetLow ∧
    (lineRestart s).frame.holds.notStarted = s.frame.holds.notStarted ∧
    (lineRestart s).frame.holds.hostHold = s.frame.holds.hostHold := by
  unfold lineRestart
  try dsimp only
  (repeat' split) <;> simp

/-! ### The clock -/

@[simp] theorem runningSecond_frameP  {s : State} (hs : Frame.sound s.frame) :
    Frame.sound (runningSecond s).frame := by
  unfold runningSecond
  try dsimp only
  (repeat' split) <;> first | (simp +contextual (maxDischargeDepth := 20) [hs]; done) | fail
@[simp] theorem runningSecond_inputs (s : State) :
    (runningSecond s).frame.run = s.frame.run ∧ (runningSecond s).frame.maint = s.frame.maint ∧
    (runningSecond s).frame.levels = s.frame.levels ∧ (runningSecond s).frame.latches = s.frame.latches ∧
    (runningSecond s).frame.resetLow = s.frame.resetLow ∧
    (runningSecond s).frame.holds.notStarted = s.frame.holds.notStarted ∧
    (runningSecond s).frame.holds.hostHold = s.frame.holds.hostHold := by
  unfold runningSecond
  try dsimp only
  (repeat' split) <;> simp
@[simp] theorem takeSecond_frameP  {s : State} (hs : Frame.sound s.frame) :
    Frame.sound (takeSecond s).frame := by
  unfold takeSecond
  try dsimp only
  (repeat' split) <;> first | (simp +contextual (maxDischargeDepth := 20) [hs]; done) | fail
@[simp] theorem takeSecond_inputs (s : State) :
    (takeSecond s).frame.run = s.frame.run ∧ (takeSecond s).frame.maint = s.frame.maint ∧
    (takeSecond s).frame.levels = s.frame.levels ∧ (takeSecond s).frame.latches = s.frame.latches ∧
    (takeSecond s).frame.resetLow = s.frame.resetLow ∧
    (takeSecond s).frame.holds.notStarted = s.frame.holds.notStarted ∧
    (takeSecond s).frame.holds.hostHold = s.frame.holds.hostHold := by
  unfold takeSecond
  try dsimp only
  (repeat' split) <;> simp

/-! ### Resets -/

@[simp] theorem configured_frameP (c : Configuration) {s : State} (hs : Frame.sound s.frame) :
    Frame.sound (configured c s).frame := by
  unfold configured
  try dsimp only
  (repeat' split) <;> first | (simp +contextual (maxDischargeDepth := 20) [hs]; done) | fail
@[simp] theorem configured_inputs (c : Configuration) (s : State) :
    (configured c s).frame.run = s.frame.run ∧ (configured c s).frame.maint = s.frame.maint ∧
    (configured c s).frame.levels = s.frame.levels ∧ (configured c s).frame.resetLow = s.frame.resetLow ∧
    (configured c s).frame.holds.notStarted = s.frame.holds.notStarted ∧
    (configured c s).frame.holds.hostHold = s.frame.holds.hostHold := by
  unfold configured
  try dsimp only
  (repeat' split) <;> simp
@[simp] theorem startBlocks_frameP  {s : State} (hs : Frame.sound s.frame) :
    Frame.sound (startBlocks s).frame := by
  unfold startBlocks
  try dsimp only
  (repeat' split) <;> first | (simp +contextual (maxDischargeDepth := 20) [hs]; done) | fail
@[simp] theorem startBlocks_inputs (s : State) :
    (startBlocks s).frame.run = s.frame.run ∧ (startBlocks s).frame.maint = s.frame.maint ∧
    (startBlocks s).frame.levels = s.frame.levels ∧ (startBlocks s).frame.latches = s.frame.latches ∧
    (startBlocks s).frame.resetLow = s.frame.resetLow ∧
    (startBlocks s).frame.holds.notStarted = s.frame.holds.notStarted ∧
    (startBlocks s).frame.holds.hostHold = s.frame.holds.hostHold := by
  unfold startBlocks
  try dsimp only
  (repeat' split) <;> simp
@[simp] theorem started_frameP  {s : State} (hs : Frame.sound s.frame) :
    Frame.sound (started s).frame := by
  unfold started
  try dsimp only
  (repeat' split) <;> first | (simp +contextual (maxDischargeDepth := 20) [hs]; done) | fail
@[simp] theorem started_inputs (s : State) :
    (started s).frame.run = s.frame.run ∧ (started s).frame.maint = s.frame.maint ∧
    (started s).frame.levels = s.frame.levels ∧ (started s).frame.latches = s.frame.latches ∧
    (started s).frame.resetLow = s.frame.resetLow ∧ (started s).frame.holds.hostHold = s.frame.holds.hostHold := by
  unfold started
  try dsimp only
  (repeat' split) <;> simp
@[simp] theorem warmCreel_frameP  {s : State} (hs : Frame.sound s.frame) :
    Frame.sound (warmCreel s).frame := by
  unfold warmCreel
  try dsimp only
  (repeat' split) <;> first | (simp +contextual (maxDischargeDepth := 20) [hs]; done) | fail
@[simp] theorem warmCreel_inputs (s : State) :
    (warmCreel s).frame.run = s.frame.run ∧ (warmCreel s).frame.maint = s.frame.maint ∧
    (warmCreel s).frame.levels = s.frame.levels ∧ (warmCreel s).frame.latches = s.frame.latches ∧
    (warmCreel s).frame.resetLow = s.frame.resetLow ∧
    (warmCreel s).frame.holds.notStarted = s.frame.holds.notStarted ∧
    (warmCreel s).frame.holds.hostHold = s.frame.holds.hostHold := by
  unfold warmCreel
  try dsimp only
  (repeat' split) <;> simp
@[simp] theorem warmDoff_frameP  {s : State} (hs : Frame.sound s.frame) :
    Frame.sound (warmDoff s).frame := by
  unfold warmDoff
  try dsimp only
  (repeat' split) <;> first | (simp +contextual (maxDischargeDepth := 20) [hs]; done) | fail
@[simp] theorem warmDoff_inputs (s : State) :
    (warmDoff s).frame.run = s.frame.run ∧ (warmDoff s).frame.maint = s.frame.maint ∧
    (warmDoff s).frame.levels = s.frame.levels ∧ (warmDoff s).frame.latches = s.frame.latches ∧
    (warmDoff s).frame.resetLow = s.frame.resetLow ∧
    (warmDoff s).frame.holds.notStarted = s.frame.holds.notStarted ∧
    (warmDoff s).frame.holds.hostHold = s.frame.holds.hostHold := by
  unfold warmDoff
  try dsimp only
  (repeat' split) <;> simp
@[simp] theorem warmBlocks_frameP  {s : State} (hs : Frame.sound s.frame) :
    Frame.sound (warmBlocks s).frame := by
  unfold warmBlocks
  try dsimp only
  (repeat' split) <;> first | (simp +contextual (maxDischargeDepth := 20) [hs]; done) | fail
@[simp] theorem warmBlocks_inputs (s : State) :
    (warmBlocks s).frame.run = s.frame.run ∧ (warmBlocks s).frame.maint = s.frame.maint ∧
    (warmBlocks s).frame.levels = s.frame.levels ∧ (warmBlocks s).frame.resetLow = s.frame.resetLow := by
  unfold warmBlocks
  try dsimp only
  (repeat' split) <;> simp
@[simp] theorem warmReset_frameP  {s : State} (hs : Frame.sound s.frame) :
    Frame.sound (warmReset s).frame := by
  unfold warmReset
  try dsimp only
  (repeat' split) <;> first | (simp +contextual (maxDischargeDepth := 20) [hs]; done) | fail
@[simp] theorem warmReset_inputs (s : State) :
    (warmReset s).frame.run = s.frame.run ∧ (warmReset s).frame.maint = s.frame.maint ∧
    (warmReset s).frame.levels = s.frame.levels ∧ (warmReset s).frame.resetLow = s.frame.resetLow := by
  unfold warmReset
  try dsimp only
  (repeat' split) <;> simp

/-! ### Inputs and port -/

@[simp] theorem runActive_frameP {s : State} (hs : Frame.sound s.frame) : Frame.sound (runActive s).frame :=
  foldl_frameP _ _ (fun s x h => by split <;> simp (maxDischargeDepth := 20) [h]) hs
@[simp] theorem runActive_inputs (s : State) :
    (runActive s).frame.run = s.frame.run ∧ (runActive s).frame.maint = s.frame.maint ∧
    (runActive s).frame.levels = s.frame.levels ∧ (runActive s).frame.latches = s.frame.latches ∧
    (runActive s).frame.resetLow = s.frame.resetLow ∧
    (runActive s).frame.holds.notStarted = s.frame.holds.notStarted ∧
    (runActive s).frame.holds.hostHold = s.frame.holds.hostHold :=
  ⟨foldl_keeps (fun s => s.frame.run) _ _ (fun s x => by split <;> simp) s,
   foldl_keeps (fun s => s.frame.maint) _ _ (fun s x => by split <;> simp) s,
   foldl_keeps (fun s => s.frame.levels) _ _ (fun s x => by split <;> simp) s,
   foldl_keeps (fun s => s.frame.latches) _ _ (fun s x => by split <;> simp) s,
   foldl_keeps (fun s => s.frame.resetLow) _ _ (fun s x => by split <;> simp) s,
   foldl_keeps (fun s => s.frame.holds.notStarted) _ _ (fun s x => by split <;> simp) s,
   foldl_keeps (fun s => s.frame.holds.hostHold) _ _ (fun s x => by split <;> simp) s⟩
@[simp] theorem takeRun_frameP (a : Bool) {s : State} (hs : Frame.sound s.frame) : Frame.sound (takeRun a s).frame := by
  have h : Frame.sound { s.frame with run := a } := hs
  unfold takeRun
  dsimp only
  (repeat' split) <;> simp (maxDischargeDepth := 20) [h, hs]
@[simp] theorem takeRun_inputs (a : Bool) (s : State) :
    (takeRun a s).frame.maint = s.frame.maint ∧ (takeRun a s).frame.levels = s.frame.levels ∧
    (takeRun a s).frame.latches = s.frame.latches ∧ (takeRun a s).frame.resetLow = s.frame.resetLow ∧
    (takeRun a s).frame.holds.notStarted = s.frame.holds.notStarted ∧
    (takeRun a s).frame.holds.hostHold = s.frame.holds.hostHold := by
  unfold takeRun
  try dsimp only
  (repeat' split) <;> simp
@[simp] theorem setLevel_frameP (n : Nat) (h : Bool) {s : State} (hs : Frame.sound s.frame) :
    Frame.sound (setLevel n h s).frame := hs
@[simp] theorem setLevel_inputs (n : Nat) (h : Bool) (s : State) :
    (setLevel n h s).frame.run = s.frame.run ∧ (setLevel n h s).frame.maint = s.frame.maint ∧
    (setLevel n h s).frame.latches = s.frame.latches ∧ (setLevel n h s).frame.resetLow = s.frame.resetLow ∧
    (setLevel n h s).frame.holds.notStarted = s.frame.holds.notStarted ∧
    (setLevel n h s).frame.holds.hostHold = s.frame.holds.hostHold := by simp [setLevel]
@[simp] theorem takeFault_frameP (n : Nat) (h : Bool) {s : State} (hs : Frame.sound s.frame) :
    Frame.sound (takeFault n h s).frame := by
  unfold takeFault
  try dsimp only
  (repeat' split) <;> first | (simp +contextual (maxDischargeDepth := 20) [hs]; done) | fail
@[simp] theorem takeFault_inputs (n : Nat) (h : Bool) (s : State) :
    (takeFault n h s).frame.run = s.frame.run ∧ (takeFault n h s).frame.maint = s.frame.maint ∧
    (takeFault n h s).frame.resetLow = s.frame.resetLow ∧
    (takeFault n h s).frame.holds.notStarted = s.frame.holds.notStarted ∧
    (takeFault n h s).frame.holds.hostHold = s.frame.holds.hostHold := by
  unfold takeFault
  try dsimp only
  (repeat' split) <;> simp

end Sys2Proof.Machine
end

