-- ==== Sys2Proof/Laws/Records.lean ====
section
/-! SUPPORT. What an operation on one record does to that record and to every other: the close step, booking, moving, and what the
refill and the engagements' decisions after an event can reach. -/

namespace Sys2Proof.Machine

/-! ### One record moved: the others stay -/

theorem touch_sp_ne {i j : Nat} (h : i ≠ j) (s : State) : (touch i s).sp j = s.sp j := by
  unfold touch
  split
  · split
    · rfl
    · exact sp_setSp_ne _ _ _ _ h
  · rfl
theorem modifySp_sp_ne {i j : Nat} (h : i ≠ j) (f : Spindle → Spindle) (s : State) : (modifySp i f s).sp j = s.sp j :=
  sp_setSp_ne _ _ _ _ h
theorem bookOpen_sp_ne {i j : Nat} (h : i ≠ j) (s : State) : (bookOpen i s).sp j = s.sp j := by
  unfold bookOpen
  dsimp only
  split
  · rfl
  · exact sp_setSp_ne _ _ _ _ h
theorem book_sp_ne {i j : Nat} (h : i ≠ j) (s : State) : (book i s).sp j = s.sp j := by
  unfold book
  split
  · exact (bookOpen_sp_ne h _).trans (touch_sp_ne h s)
  · rfl
theorem endsDownCheck_sp (j : Nat) (s : State) : (endsDownCheck s).sp j = s.sp j := by
  simp [State.sp, (endsDownCheck_flag s).2.1]
theorem enter_sp_ne {i j : Nat} (h : i ≠ j) (st : SpState) (s : State) : (enter i st s).sp j = s.sp j := by
  have key : ∀ a b, (requeue i a b (setSp i (((touch i s).sp i).moved st (touch i s).now (touch i s).count) (touch i s))).sp j
      = s.sp j := fun a b =>
    (sp_of_mon (requeue_frame i a b _).2.1 j).trans ((sp_setSp_ne _ _ _ _ h).trans (touch_sp_ne h s))
  unfold enter
  dsimp only
  split
  · exact key _ _
  · exact (endsDownCheck_sp _ _).trans (key _ _)
theorem bookEnter_sp_ne {i j : Nat} (h : i ≠ j) (st : SpState) (s : State) : (bookEnter i st s).sp j = s.sp j :=
  (enter_sp_ne h _ _).trans (book_sp_ne h s)

/-! ### One record moved: the record itself -/

theorem range_of_has {s : State} {i : Nat} (h : s.hasSpindle i = true) : 1 ≤ i ∧ i ≤ s.mon.spindles.length := by
  simpa [State.hasSpindle] using h
theorem has_of_range {s : State} {i : Nat} (h : 1 ≤ i ∧ i ≤ s.mon.spindles.length) : s.hasSpindle i = true := by
  simpa [State.hasSpindle] using h
theorem modifySp_sp_self {i : Nat} {s : State} (h : s.hasSpindle i = true) (f : Spindle → Spindle) :
    (modifySp i f s).sp i = f (s.sp i) := sp_setSp_self _ _ _ (range_of_has h).1 (range_of_has h).2
theorem enter_sp_self {i : Nat} {s : State} (h : s.hasSpindle i = true) (st : SpState) :
    (enter i st s).sp i = ((touch i s).sp i).moved st s.now s.count := by
  have hh : (touch i s).hasSpindle i = true := by simpa using h
  have key : ∀ a b, (requeue i a b (setSp i (((touch i s).sp i).moved st (touch i s).now (touch i s).count) (touch i s))).sp i
      = ((touch i s).sp i).moved st s.now s.count := fun a b => by
    rw [sp_of_mon (requeue_frame i a b _).2.1 i, sp_setSp_self _ _ _ (range_of_has hh).1 (range_of_has hh).2]
    simp [State.now, State.count]
  unfold enter
  dsimp only
  split
  · exact key _ _
  · exact (endsDownCheck_sp _ _).trans (key _ _)
theorem touch_idle {s : State} (h : s.shift.closing = none) (i : Nat) : touch i s = s := by simp [touch, h]
theorem book_sp_self {i : Nat} {s : State} (h : s.hasSpindle i = true) (b : Nat) (hb : ((touch i s).sp i).bookedTo = some b) :
    (book i s).sp i = { ((touch i s).sp i).lose ((touch i s).sp i).cause (s.count - b) with bookedTo := some s.count } := by
  have hh : (touch i s).hasSpindle i = true := by simpa using h
  have hc : (touch i s).count = s.count := by simp [State.count]
  have hs : (s.sp i).bookedTo.isSome = true := by rw [← touch_booked i i s, hb]; rfl
  unfold book bookOpen
  dsimp only
  rw [if_pos hs, hb]
  dsimp only
  rw [hc]
  exact sp_setSp_self _ _ _ (range_of_has hh).1 (range_of_has hh).2
/-- A record without a booked-to is passed over: booking it changes nothing (R22, R154). -/
theorem book_none {i : Nat} {s : State} (hb : (s.sp i).bookedTo = none) : book i s = s := by simp [book, hb]
theorem book_closing (i : Nat) {s : State} (h : s.shift.closing = none) : (book i s).shift.closing = none := by
  unfold book bookOpen
  simp only [touch_idle h]
  repeat' split
  · exact h
  · simpa [setSp] using h
  · exact h

/-! ### What follows an event in the piecing engine -/

/-- A record that is not WAITING is not reached by the refill (R50). -/
theorem refillSide_sp {s : State} (hs : s.tabled) (n : Nat) (x : Side) (j : Nat) (h : (s.sp j).state ≠ .waiting) :
    (refillSide n x s).sp j = s.sp j := by
  induction n generalizing s with
  | zero => rfl
  | succ n ih =>
    unfold refillSide
    split
    · rename_i hc
      split
      · rfl
      · rename_i i l hw
        have hi := ((hs.2.2.1 x).2.2.2.2 i).1 (by rw [hw]; simp)
        have hne : i ≠ j := fun e => h (e ▸ hi.2.2)
        have ht := tabled_enter hs i .queued ⟨fun _ => hi.1, fun _ => Or.inr (by rw [hi.2.1]; exact hc)⟩
        have hj := enter_sp_ne hne .queued s
        rw [ih ht (by rw [hj]; exact h), hj]
    · rfl
theorem refill_sp {s : State} (hs : s.tabled) (j : Nat) (h : (s.sp j).state ≠ .waiting) : (refill s).sp j = s.sp j := by
  have h1 := refillSide_sp hs Config.queueCapacity .a j h
  have h2 := refillSide_sp (tabled_refillSide hs Config.queueCapacity .a) Config.queueCapacity .b j (by rw [h1]; exact h)
  exact h2.trans h1

theorem nearest_mem (d : Nat → Option Nat) (l : List Nat) (i : Nat) (h : nearest d l = some i) : i ∈ l := by
  suffices H : ∀ (l : List Nat) (b : Option (Nat × Nat)) (r : Nat × Nat),
      l.foldl (fun (best : Option (Nat × Nat)) i =>
        match d i, best with
        | none, b => b
        | some d, none => some (d, i)
        | some d, some (d0, i0) => if d < d0 then some (d, i) else some (d0, i0)) b = some r → r.2 ∈ l ∨ b = some r by
    unfold nearest at h
    rw [Option.map_eq_some_iff] at h
    obtain ⟨r, hr, rfl⟩ := h
    rcases H l none r hr with h | h
    · exact h
    · cases h
  intro l
  induction l with
  | nil => intro b r hb; exact Or.inr hb
  | cons x l ih =>
    intro b r hb
    rcases ih _ r hb with h | h
    · exact Or.inl (List.mem_cons_of_mem _ h)
    · dsimp only at h
      split at h
      · exact Or.inr h
      · cases h; exact Or.inl (List.mem_cons_self ..)
      · split at h
        · cases h; exact Or.inl (List.mem_cons_self ..)
        · exact Or.inr h

theorem firstOf_mem (s : State) (l : List Nat) (i : Nat) (h : s.firstOf l = some i) : i ∈ l := by
  suffices H : ∀ (l : List Nat) (b : Option Nat),
      l.foldl (fun best i =>
        match best with
        | none => some i
        | some j => if s.waitsBefore i j then some i else some j) b = some i → i ∈ l ∨ b = some i by
    rcases H l none h with h | h
    · exact h
    · cases h
  intro l
  induction l with
  | nil => intro b hb; exact Or.inr hb
  | cons x l ih =>
    intro b hb
    rcases ih _ hb with h | h
    · exact Or.inl (List.mem_cons_of_mem _ h)
    · dsimp only at h
      split at h
      · cases h; exact Or.inl (List.mem_cons_self ..)
      · split at h
        · cases h; exact Or.inl (List.mem_cons_self ..)
        · exact Or.inr h

/-- What an engagement orders stands in a queue that it serves (R72). -/
theorem selection_mem {s : State} {x : Side} {i : Nat} {asc : Bool} (h : s.selection x = some (i, asc)) :
    i ∈ (s.servedEntries x).map QueueEntry.index := by
  unfold State.selection at h
  dsimp only at h
  split at h
  · rename_i j hj
    cases h
    have := firstOf_mem _ _ _ hj
    obtain ⟨e, he, rfl⟩ := List.mem_map.1 this
    exact List.mem_map.2 ⟨e, (List.mem_filter.1 he).1, rfl⟩
  · split at h
    · rename_i j hj; cases h; exact nearest_mem _ _ _ hj
    · rw [Option.map_eq_some_iff] at h
      obtain ⟨j, hj, e⟩ := h
      cases e
      exact nearest_mem _ _ _ hj

theorem served_queued {s : State} (hs : s.tabled) {x : Side} {i : Nat}
    (h : i ∈ (s.servedEntries x).map QueueEntry.index) : s.hasSpindle i = true ∧ (s.sp i).state = .queued := by
  unfold State.servedEntries at h
  rw [List.map_flatMap] at h
  obtain ⟨y, _, hy⟩ := List.mem_flatMap.1 h
  have := ((hs.2.2.1 y).2.2.2.1 i).1 hy
  exact ⟨this.1, this.2.2⟩

theorem decideNext_sp {s : State} (hs : s.tabled) (x : Side) (j : Nat) (h1 : (s.sp j).state ≠ .waiting)
    (h2 : (s.sp j).state ≠ .queued) : (decideNext x s).sp j = s.sp j := by
  unfold decideNext
  split
  · exact sp_of_mon (by simp) j
  · split
    · split
      · rename_i i asc hsel
        have hq := served_queued hs (selection_mem hsel)
        have hne : i ≠ j := fun e => h2 (e ▸ hq.2)
        have he := enter_sp_ne hne .ordered s
        have ht := tabled_enter hs i .ordered (mayEnter_other _ _ (by decide) (by decide))
        have hr := refill_sp ht j (by rw [he]; exact h1)
        have : (issueOrder x i asc s).sp j = (refill (enter i .ordered s)).sp j := by
          unfold issueOrder
          dsimp only
          split <;> exact sp_of_mon (by simp) j
        rw [this, hr, he]
      · rfl
    · rfl
theorem notifyOne_sp {s : State} (hs : s.tabled) (s0 : State) (x : Side) (j : Nat) (h1 : (s.sp j).state ≠ .waiting)
    (h2 : (s.sp j).state ≠ .queued) : (notifyOne s0 x s).sp j = s.sp j := by
  unfold notifyOne
  dsimp only
  repeat' split
  all_goals first | rfl | exact decideNext_sp hs x j h1 h2 | exact sp_of_mon (by simp) j
theorem notify_sp {s : State} (hs : s.tabled) (s0 : State) (j : Nat) (h1 : (s.sp j).state ≠ .waiting)
    (h2 : (s.sp j).state ≠ .queued) : (notify s0 s).sp j = s.sp j := by
  have key : ∀ (l : List Side) (s : State), s.tabled → (s.sp j).state ≠ .waiting → (s.sp j).state ≠ .queued →
      (l.foldl (fun s x => notifyOne s0 x s) s).sp j = s.sp j := by
    intro l
    induction l with
    | nil => intro s _ _ _; rfl
    | cons x l ih =>
      intro s hs h1 h2
      have h := notifyOne_sp hs s0 x j h1 h2
      exact (ih _ (tabled_notifyOne hs s0 x) (by rw [h]; exact h1) (by rw [h]; exact h2)).trans h
  exact key _ s hs h1 h2

/-- After an event a record that the event left neither WAITING nor QUEUED is as the event left it. -/
theorem piecingEvent_sp {s : State} (f : State → State) (hf : (f s).tabled) (j : Nat)
    (h1 : ((f s).sp j).state ≠ .waiting) (h2 : ((f s).sp j).state ≠ .queued) : (piecingEvent f s).sp j = (f s).sp j := by
  have hr := refill_sp hf j h1
  have := notify_sp (tabled_refill hf) s j (by rw [hr]; exact h1) (by rw [hr]; exact h2)
  exact this.trans hr

/-! ### Alerts (R178) -/

/-- A raised alert stands in the list, or the list is full. -/
theorem alerted_raise (code : AlertCode) (cls : AlertClass) (sub : Option Nat) (s : State) :
    alerted code sub (raiseAlert code cls sub s) := by
  unfold alerted raiseAlert Frame.raised Frame.followStop alertsRaised
  dsimp only
  split
  · rename_i h
    obtain ⟨a, ha, hp⟩ := List.any_eq_true.1 h
    have := (alert_is _ _ _).1 hp
    left
    refine ⟨_, List.mem_map.2 ⟨a, ha, rfl⟩, ?_⟩
    rw [if_pos hp]
    simpa using this
  · split
    · left; exact ⟨_, List.mem_append_right _ (List.mem_singleton.2 rfl), rfl, rfl⟩
    · split
      · left; exact ⟨_, List.mem_append_right _ (List.mem_singleton.2 rfl), rfl, rfl⟩
      · right; simp only; omega

/-! ### Joining the queue, and the rogue mark (R46, R49) -/

@[simp] theorem endsDownCheck_side (x : Side) (s : State) : (endsDownCheck s).side x = s.side x := by
  cases x <;> simp [State.side]
theorem sideOf_of_port {s t : State} (h : t.port = s.port) (i : Nat) : t.sideOf i = s.sideOf i := by
  unfold State.sideOf State.cfg
  rw [h]

/-- The side of a moved record, with no close in progress. -/
theorem enter_side {s : State} (hc : s.shift.closing = none) (i : Nat) (st : SpState) (x : Side) :
    (enter i st s).side x =
      (requeue i (s.sp i).state st (setSp i ((s.sp i).moved st s.now s.count) s)).side x := by
  unfold enter
  simp only [touch_idle hc]
  split
  · rfl
  · exact endsDownCheck_side _ _

/-- With no close in progress, what a record that joins its side's queue becomes (R46). -/
theorem joinQueue_self {s : State} {i : Nat} (h : s.hasSpindle i = true) (hc : s.shift.closing = none) :
    (joinQueue i s).sp i = (s.sp i).moved
      (if (s.side (s.sideOf i)).queue.length < Config.queueCapacity then .queued else .waiting) s.now s.count := by
  unfold joinQueue
  split
  · rw [enter_sp_self h, touch_idle hc]
  · rw [enter_sp_self h, touch_idle hc]
theorem joinQueue_ne {i j : Nat} (h : i ≠ j) (s : State) : (joinQueue i s).sp j = s.sp j := by
  unfold joinQueue
  split <;> exact enter_sp_ne h _ _

/-- A record that joins its side's queue stands there, escalated where it is old enough; with the queue full it stands in the
waiting set (R46). -/
theorem joinQueue_side {s : State} {i : Nat} (h : s.hasSpindle i = true) (hc : s.shift.closing = none) :
    let t := joinQueue i s
    ((s.side (s.sideOf i)).queue.length < Config.queueCapacity →
      { index := i, escalated := decide (s.cfg.escalationAge ≤ (t.sp i).age s.now) } ∈ (t.side (s.sideOf i)).queue) ∧
    (Config.queueCapacity ≤ (s.side (s.sideOf i)).queue.length → i ∈ (t.side (s.sideOf i)).waiting) := by
  dsimp only
  have hsp := joinQueue_self h hc
  have hr := range_of_has h
  constructor
  · intro hl
    rw [hsp, if_pos hl]
    have e : joinQueue i s = enter i .queued s := by simp [joinQueue, hl]
    rw [e, enter_side hc]
    unfold requeue
    have e1 : (setSp i ((s.sp i).moved .queued s.now s.count) s).sideOf i = s.sideOf i := rfl
    simp only [e1, side_setSide, if_pos]
    rw [sp_setSp_self _ _ _ hr.1 hr.2]
    generalize (if (s.sp i).state = .queued then _ else _ : List QueueEntry) = l
    clear e e1 hsp
    generalize hq : (QueueEntry.mk i _) = q
    have hin : q ∈ insertEntry q l := by
      induction l with
      | nil => simp [insertEntry]
      | cons a l ih => unfold insertEntry; split <;> simp [ih]
    rw [← hq] at hin ⊢
    exact hin
  · intro hl
    have e : joinQueue i s = enter i .waiting s := by simp [joinQueue, Nat.not_lt.2 hl]
    rw [e, enter_side hc]
    unfold requeue
    have e1 : (setSp i ((s.sp i).moved .waiting s.now s.count) s).sideOf i = s.sideOf i := rfl
    simp only [e1, side_setSide, if_pos]
    exact (insertWaiting_mem _ _ _ _).2 (Or.inl rfl)

/-- With no close in progress, what a record made rogue becomes (R49). -/
theorem makeRogue_self {s : State} {i : Nat} (h : s.hasSpindle i = true) (hc : s.shift.closing = none) :
    (makeRogue i s).sp i =
      ({ (book i s).sp i with rogueMark := true } : Spindle).moved .rogue (book i s).now (book i s).count := by
  unfold makeRogue
  rw [sp_of_mon (s := enter i .rogue (modifySp i (fun r => { r with rogueMark := true }) (book i s))) (by simp)]
  have h1 : (book i s).hasSpindle i = true := by simpa using h
  have h2 : (modifySp i (fun r => { r with rogueMark := true }) (book i s)).hasSpindle i = true := by simpa using h
  rw [enter_sp_self h2, touch_idle (s := modifySp i _ (book i s)) (book_closing i hc), modifySp_sp_self h1]
  rfl
theorem makeRogue_ne {i j : Nat} (h : i ≠ j) (s : State) : (makeRogue i s).sp j = s.sp j := by
  unfold makeRogue
  rw [sp_of_mon (s := enter i .rogue (modifySp i (fun r => { r with rogueMark := true }) (book i s))) (by simp)]
  exact (enter_sp_ne h _ _).trans ((modifySp_sp_ne h _ _).trans (book_sp_ne h s))
theorem makeRogue_alerted (i : Nat) (s : State) : alerted .rogueSpindle (some i) (makeRogue i s) := alerted_raise _ _ _ _

/-- What booking leaves of a record, with no close in progress (R22). -/
theorem book_self {s : State} {i : Nat} (h : s.hasSpindle i = true) (hc : s.shift.closing = none) :
    (book i s).sp i = match (s.sp i).bookedTo with
      | none => s.sp i
      | some b => { (s.sp i).lose (s.sp i).cause (s.count - b) with bookedTo := some s.count } := by
  have e := touch_idle hc i
  split
  · rename_i hb
    rw [book_none hb]
  · rename_i b hb
    have := book_sp_self (b := b) h (by rw [e]; exact hb)
    rw [this, e]

/-! ### The fields of a moved and of a booked record (R21, R22, R55, R57) -/

@[simp] theorem moved_shiftBreaks (st : SpState) (now p : Nat) (r : Spindle) :
    (r.moved st now p).shiftBreaks = r.shiftBreaks := by
  cases st <;> simp only [Spindle.moved] <;> repeat' split
  all_goals rfl
@[simp] theorem moved_shiftTag (st : SpState) (now p : Nat) (r : Spindle) : (r.moved st now p).shiftTag = r.shiftTag := by
  cases st <;> simp only [Spindle.moved] <;> repeat' split
  all_goals rfl
@[simp] theorem moved_rogueMark (st : SpState) (now p : Nat) (r : Spindle) : (r.moved st now p).rogueMark = r.rogueMark := by
  cases st <;> simp only [Spindle.moved] <;> repeat' split
  all_goals rfl
@[simp] theorem moved_lazy (st : SpState) (now p : Nat) (r : Spindle) : (r.moved st now p).lazy = r.lazy := by
  cases st <;> simp only [Spindle.moved] <;> repeat' split
  all_goals rfl
@[simp] theorem moved_lastClass (st : SpState) (now p : Nat) (r : Spindle) : (r.moved st now p).lastClass = r.lastClass := by
  cases st <;> simp only [Spindle.moved] <;> repeat' split
  all_goals rfl
@[simp] theorem moved_lost (st : SpState) (now p : Nat) (r : Spindle) :
    (r.moved st now p).lostSinceBase = r.lostSinceBase := by
  cases st <;> simp only [Spindle.moved] <;> repeat' split
  all_goals rfl
theorem moved_attempts (st : SpState) (now p : Nat) (r : Spindle) :
    (r.moved st now p).attempts =
      if st = .empty ∨ st = .exchange then 0
      else if st = .up ∧ ¬ (r.state = .ordered ∨ r.state = .confirming) then 0 else r.attempts := by
  cases st <;> cases hs : r.state <;> simp [Spindle.moved, hs, SpState.isDown, SpState.cause]
theorem moved_piecedAt (st : SpState) (now p : Nat) (r : Spindle) :
    (r.moved st now p).piecedAt =
      if st = .empty ∨ st = .exchange ∨ st = .unseen ∨ st = .unobserved then none
      else if st = .up then
        (if r.state = .ordered ∨ r.state = .confirming then some (r.piecedAt.getD now) else none)
      else if r.state = .up then none
      else r.piecedAt := by
  cases st <;> cases hs : r.state <;> simp [Spindle.moved, hs, SpState.isDown, SpState.cause]

@[simp] theorem lose_shiftBreaks (c : Option Cause) (n : Nat) (r : Spindle) : (r.lose c n).shiftBreaks = r.shiftBreaks := by
  unfold Spindle.lose; split <;> rfl
@[simp] theorem lose_shiftTag (c : Option Cause) (n : Nat) (r : Spindle) : (r.lose c n).shiftTag = r.shiftTag := by
  unfold Spindle.lose; split <;> rfl
@[simp] theorem lose_rogueMark (c : Option Cause) (n : Nat) (r : Spindle) : (r.lose c n).rogueMark = r.rogueMark := by
  unfold Spindle.lose; split <;> rfl
@[simp] theorem lose_lazy (c : Option Cause) (n : Nat) (r : Spindle) : (r.lose c n).lazy = r.lazy := by
  unfold Spindle.lose; split <;> rfl
@[simp] theorem lose_attempts (c : Option Cause) (n : Nat) (r : Spindle) : (r.lose c n).attempts = r.attempts := by
  unfold Spindle.lose; split <;> rfl
@[simp] theorem lose_piecedAt (c : Option Cause) (n : Nat) (r : Spindle) : (r.lose c n).piecedAt = r.piecedAt := by
  unfold Spindle.lose; split <;> rfl
@[simp] theorem lose_state (c : Option Cause) (n : Nat) (r : Spindle) : (r.lose c n).state = r.state := by
  unfold Spindle.lose; split <;> rfl
@[simp] theorem lose_downSince (c : Option Cause) (n : Nat) (r : Spindle) : (r.lose c n).downSince = r.downSince := by
  unfold Spindle.lose; split <;> rfl
@[simp] theorem lose_seenUp (c : Option Cause) (n : Nat) (r : Spindle) : (r.lose c n).seenUp = r.seenUp := by
  unfold Spindle.lose; split <;> rfl

/-- A record that goes from one down state to another keeps its booked-to and its down-since (R21). -/
theorem moved_down {st : SpState} {r : Spindle} (h : r.state.isDown = true) (hs : st.isDown = true) (now p : Nat) :
    (r.moved st now p).bookedTo = r.bookedTo ∧ (r.moved st now p).downSince = r.downSince := by
  cases st <;> simp_all [Spindle.moved, SpState.isDown, SpState.cause]

/-- With no close in progress, a booked record keeps every field but booked-to and lost-since-base (R22). -/
theorem book_fields {s : State} {i : Nat} (h : s.hasSpindle i = true) (hc : s.shift.closing = none) :
    ((book i s).sp i).state = (s.sp i).state ∧ ((book i s).sp i).attempts = (s.sp i).attempts ∧
    ((book i s).sp i).shiftBreaks = (s.sp i).shiftBreaks ∧ ((book i s).sp i).downSince = (s.sp i).downSince ∧
    ((book i s).sp i).lazy = (s.sp i).lazy ∧ ((book i s).sp i).rogueMark = (s.sp i).rogueMark ∧
    ((book i s).sp i).piecedAt = (s.sp i).piecedAt ∧ ((book i s).sp i).seenUp = (s.sp i).seenUp ∧
    ((s.sp i).bookedTo.isSome = true → ((book i s).sp i).bookedTo = some s.count) := by
  rw [book_self h hc]
  split
  · rename_i hb; simp [hb]
  · simp

/-- With no close in progress, a record booked and moved. -/
theorem bookEnter_self {s : State} {i : Nat} (h : s.hasSpindle i = true) (hc : s.shift.closing = none) (st : SpState) :
    (bookEnter i st s).sp i = ((book i s).sp i).moved st s.now s.count := by
  have := enter_sp_self (s := book i s) (by simpa using h) st
  rw [touch_idle (book_closing i hc)] at this
  rw [bookEnter, this]
  simp [State.now, State.count]

end Sys2Proof.Machine
end

