-- ==== Sys2Proof/Tests/Slice0.lean ====
section
/-! SUPPORT. Tests of this model's own: the WellFormed smoke, the spec's worked arithmetic (1.8) and figures from its worked
sequences, one-step tests on a small laboratory state, and for every statement with hypotheses a state that meets them, clause by
clause at the boundary values. -/

set_option Elab.async false

namespace Sys2Proof.Tests

open Sys2Proof Sys2Proof.Machine

/-! ### The laboratory -/

/-- Article 118 of section 1.8. -/
def art : Article := { id := 118, tex := 1476, twist := 1050, draft := 3850, roving := 1800, copMass := 60 }

/-- The configuration of the worked sequences, on the smallest frame; fault input 2 is STOP, MANUAL, ACTIVE_HIGH. -/
def conf : Configuration :=
  { station := 12, spindles := 96, joined := 0, circumference := 84823, ppr := 200, scanPeriod := 1000, upPercent := 70,
    downPercent := 25, slots := 2, claimLevel := 970, settleWindow := 30, attemptLimit := 3, rogueLimit := 6,
    escalationAge := 120, endsDownLimit := 60, emptyMargin := 20, lineDivisor := 23, faults := [0, 0, 10, 1],
    arrivalTime := 120, orderTime := 40, exchangeTime := 900, bookingGrace := 300, doffTime := 600, horizon := 60 }

/-- The configuration of the worked arithmetic: N is 1,824. -/
def conf1824 : Configuration := { conf with spindles := 1824 }

/-- A record in a state, down since second 40 and booked to count 900 where its state has these fields. -/
def recIn (st : SpState) : Spindle :=
  { Spindle.blank with
    state := st, cause := st.cause, bookedTo := if st = .up then none else some 900
    downSince := if st.isDown then some 40 else none }

/-- A NORMAL section of full bobbins. -/
def fullSection : Section :=
  { Section.blank with state := .normal, base := some { mark := 0, loaded := 1800, rem := List.replicate 24 1800000 } }

/-- A running frame of 96 spindles, every end up, at second 100 and count 1,000. -/
def lab : State :=
  { State.reset with
    del := { State.reset.del with
      count := 1000, seconds := 100, active := some art, buckets := [7074, 7073, 7074, 7073, 7074, 7074]
      openBucket := some 5, nextBucketAt := some 100 }
    mon := { State.reset.mon with
      spindles := List.replicate 96 (recIn .up)
      strips := List.replicate 4 { Strip.blank with reference := 928, lastCounts := List.replicate 24 0 }
      rotation := some { pass := 0, strip := 4 } }
    creel := { State.reset.creel with
      sections := List.replicate 4 fullSection, announceFrom := some 0, nextRecompute := some 100 }
    frame := { State.reset.frame with
      run := true, levels := [false, false, true, false], holds := { State.reset.frame.holds with notStarted := false } }
    port := { State.reset.port with part := .running, config := some conf } }

/-- Record `i` in a state. -/
def withSp (i : Nat) (st : SpState) (s : State) : State := setSp i (recIn st) s

/-- The laboratory with the doff record changed. -/
def doffed (f : Doff → Doff) : State := { lab with doff := f lab.doff }

/-- The laboratory with side B's engagement changed. -/
def engaged (f : Engagement → Engagement) (s : State) : State := setEng .b (f (s.eng .b)) s

/-- A telegram at the head of the receive buffer. -/
def heads (k : Kind) (source : Nat) (payload : List Byte) (s : State) : State :=
  { s with line := { s.line with rx :=
      [{ tel := { kind := k, source := source, dest := 0, payload := payload }
         byPiecing := false, byCreel := false, byDoff := false }] } }

/-- The state a command leaves. -/
def after (c : Instr) (s : State) : State :=
  match exec c s with
  | .next t => t
  | .fault _ => s
  | .refused _ => s

/-! ### Sound tables, checked -/

/-- The members of a list of indices are exactly the records of a side in a state. -/
def holdsExactly (s : State) (x : Side) (st : SpState) (l : List Nat) : Bool :=
  l.all (fun i => s.hasSpindle i && decide (s.sideOf i = x) && decide ((s.sp i).state = st)) &&
    (List.range (s.mon.spindles.length + 1)).all (fun i =>
      !(s.hasSpindle i && decide (s.sideOf i = x) && decide ((s.sp i).state = st)) || l.contains i)

/-- `tabled` as a check. -/
def tabledCheck (s : State) : Bool :=
  (match s.port.config with
   | none => false
   | some c => s.mon.spindles.length == c.spindles && s.mon.strips.length == c.spindles / 24 &&
      s.creel.sections.length == c.spindles / 24) &&
  s.mon.spindles.all (fun r => decide (r.cause = r.state.cause) && r.bookedTo.isNone == (r.state == .up) &&
    r.downSince.isSome == r.state.isDown) &&
  [Side.a, Side.b].all (fun x =>
    decide (((s.side x).queue.map QueueEntry.index).Pairwise (· < ·)) && decide ((s.side x).queue.length ≤ 48) &&
    decide (s.side x).waiting.Nodup && holdsExactly s x .queued ((s.side x).queue.map QueueEntry.index) &&
    holdsExactly s x .waiting (s.side x).waiting) &&
  s.mon.aboveLimit == decide (s.cfg.endsDownLimit < s.endsDown)

theorem holdsExactly_iff {s : State} {x : Side} {st : SpState} {l : List Nat} (h : holdsExactly s x st l = true) (i : Nat) :
    i ∈ l ↔ s.hasSpindle i = true ∧ s.sideOf i = x ∧ (s.sp i).state = st := by
  simp only [holdsExactly, Bool.and_eq_true, List.all_eq_true, decide_eq_true_eq] at h
  refine ⟨fun hi => ⟨(h.1 i hi).1.1, (h.1 i hi).1.2, (h.1 i hi).2⟩, fun ⟨h1, h2, h3⟩ => ?_⟩
  have hr : i ∈ List.range (s.mon.spindles.length + 1) := by
    simp only [State.hasSpindle, Bool.and_eq_true, decide_eq_true_eq] at h1
    exact List.mem_range.2 (by omega)
  have := h.2 i hr
  simpa [h1, h2, h3] using this

theorem tabled_of_check {s : State} (h : tabledCheck s = true) : s.tabled := by
  simp only [tabledCheck, Bool.and_eq_true] at h
  obtain ⟨⟨⟨h1, h2⟩, h3⟩, h4⟩ := h
  refine ⟨?_, ?_, ?_, by simpa using h4⟩
  · cases hc : s.port.config with
    | none => simp [hc] at h1
    | some c => simpa [State.sized, hc, and_assoc] using h1
  · intro r hr
    have := List.all_eq_true.1 h2 r hr
    simp only [Bool.and_eq_true, decide_eq_true_eq, beq_iff_eq] at this
    exact ⟨this.1.1, this.1.2, this.2⟩
  · intro x
    have hx : x ∈ [Side.a, Side.b] := by cases x <;> simp
    have := List.all_eq_true.1 h3 x hx
    simp only [Bool.and_eq_true, decide_eq_true_eq] at this
    obtain ⟨⟨⟨⟨a, b⟩, c⟩, d⟩, e⟩ := this
    exact ⟨a, b, c, holdsExactly_iff d, holdsExactly_iff e⟩

theorem lab_tabled : lab.tabled := tabled_of_check (by decide +kernel)
theorem lab_works : lab.works := ⟨rfl, rfl⟩
theorem lab_open : lab.portOpen := ⟨rfl, rfl, rfl⟩

/-! ### WellFormed: an ill-formed term for each check -/

theorem test_article_field_too_wide :
    [{ art with id := 65536 }, { art with tex := 65536 }, { art with twist := 65536 }, { art with draft := 65536 },
     { art with roving := 65536 }, { art with copMass := 256 }].all (fun a => (Instr.stageArticle 0 a).wf == false) = true := by
  decide

theorem test_configuration_field_too_wide :
    [{ conf with station := 256 }, { conf with spindles := 65536 }, { conf with joined := 256 },
     { conf with circumference := 4294967296 }, { conf with ppr := 65536 }, { conf with scanPeriod := 65536 },
     { conf with upPercent := 256 }, { conf with downPercent := 256 }, { conf with slots := 256 },
     { conf with claimLevel := 65536 }, { conf with settleWindow := 256 }, { conf with attemptLimit := 256 },
     { conf with rogueLimit := 256 }, { conf with escalationAge := 65536 }, { conf with endsDownLimit := 256 },
     { conf with emptyMargin := 256 }, { conf with lineDivisor := 256 }, { conf with faults := [0, 0, 0] },
     { conf with faults := [0, 0, 0, 256] }, { conf with arrivalTime := 65536 }, { conf with orderTime := 256 },
     { conf with exchangeTime := 65536 }, { conf with bookingGrace := 65536 }, { conf with doffTime := 65536 },
     { conf with horizon := 256 }].all (fun c => (Instr.configure 0 c).wf == false) = true := by decide

theorem test_command_field_too_wide :
    [.status 256, .readSpindle 0 65536, .readStrip 0 256, .readQueue 0 256, .readEngagement 0 256, .readSection 0 256,
     .readReport 0 256, .ackAlert 0 256 0, .ackAlert 0 0 65536, .setLockout 0 65536 1 0, .setLockout 0 1 65536 0,
     .setLockout 0 1 1 256, .clearRogue 0 65536, .creelConfirm 0 256 0, .creelConfirm 0 0 256, .closeShift 0 65536,
     .faultAck 0 256].all (fun i : Instr => i.wf == false) = true := by decide

theorem test_event_field_out_of_shape :
    [.stripRead (some (List.replicate 23 0)), .stripRead (some (65536 :: List.replicate 23 0)), .bookingLapse 0,
     .bookingLapse 3, .faultInput 4 true, .commandWrite [], .responseRead [], .collision 300].all (fun i : Instr => i.wf == false) = true := by decide

/-- A value inside its width but outside its range is a command: the command refuses it (R184, R14). -/
theorem test_out_of_range_is_a_command :
    ((Instr.configure 255 { conf with slots := 7 }).wf && (Instr.stageArticle 0 { art with twist := 1 }).wf &&
      (Instr.stripRead (some (List.replicate 24 65535))).wf && (Instr.bookingLapse 2).wf &&
      (Instr.faultInput 3 true).wf && (Instr.commandWrite [7#8]).wf && (Instr.responseRead [2#8]).wf &&
      (Instr.collision 299).wf) = true := by decide

/-! ### The table gives no row any bits -/

theorem test_no_word_spells_a_command : decodeTableWord 8 5 = none ∧ lab.withFetchWord 8 5 = lab := ⟨rfl, rfl⟩

/-! ### Section 1.8: worked arithmetic -/

theorem test_rate_four_buckets : ratePulses [7074, 7073, 7074, 7073] = some 42441 ∧
    rateMm conf1824 [7074, 7073, 7074, 7073] = some 17999 := by decide
theorem test_rate_full_window : ratePulses [7074, 7073, 7074, 7073, 7074, 7074] = some 42442 ∧
    rateMm conf1824 [7074, 7073, 7074, 7073, 7074, 7074] = some 18000 := by decide
theorem test_expected_count : expectedCount conf1824 1050 707 = 314 ∧ expectedCount conf1824 1050 71 = 31 ∧
    expectedCount conf1824 1050 72 = 32 := by decide
theorem test_classes : classOf conf1824 314 220 = .up ∧ classOf conf1824 314 219 = .slow ∧ classOf conf1824 314 79 = .slow ∧
    classOf conf1824 314 78 = .down := by decide
theorem test_fill : copLength art = 4065040 ∧ copFill conf1824 art 9300000 = 970 ∧ copFill conf1824 art 9584759 = 1000 ∧
    copFill conf1824 { art with tex := 1640 } 21917 = 2 := by decide
theorem test_roving : remainingMm 1800000 (usedMm conf1824 3850 (upPulses 15000000 0 0 none)) = 1634761 ∧
    remainingMm 1800000 (usedMm conf1824 3850 (upPulses 15000000 0 400000 (some 14400000))) = 1645777 := by decide
theorem test_minutes : positionMinutes 3850 (some 18000) 1634761 = .value 3496 ∧
    positionMinutes 3850 (some 17999) 1634761 = .value 3496 ∧ positionMinutes 3850 none 1634761 = .held := by decide
theorem test_run_close : lengthMm conf1824 35370000000 = 15000947550 ∧ runMass conf1824 1476 35370000000 = 221413 ∧
    efficiencyOf 35370000000 36480000000 = 9695 ∧ breakRateOf 410 1824 27000 = 299 := by decide

/-! ### Chapter 10 and 12: gaps, the check and a record -/

/-- The gaps of the worked sequence of chapter 10: 16 at station 12 and 20, 21 at station 33, and 19 after a collision at 20. -/
theorem test_gaps :
    let claim : Telegram := { kind := .doffClaim, source := 12, dest := 0, payload := [] }
    gapOf 12 { tel := claim, collisions := 0, joined := 0 } = 16 ∧ gapOf 20 { tel := claim, collisions := 1, joined := 0 } = 19 ∧
    gapOf 33 { tel := { claim with kind := .bookingDone }, collisions := 0, joined := 0 } = 21 := by decide

/-- The CRC over a telegram and its own check is 0, and byte 0 of a ROVING_DUE is 161 (R162, 12.1). -/
theorem test_check_closes :
    let t : Telegram := { kind := .rovingDue, source := 12, dest := 0, payload := field 1 31 ++ field 2 0 }
    crc t.bytes = 0 ∧ t.bytes.length = 9 ∧ t.bytes.head? = some 161#8 := by decide +kernel

/-- CLOSE_SHIFT 312 with tag 7: kind 31, length 2, then the number, most significant byte first (R189, 12.2). -/
theorem test_record_of_close_shift : recordOf (.closeShift 312) 7 = [31#8, 2#8, 7#8, 1#8, 56#8] ∧
    readRecord [31#8, 2#8, 7#8, 1#8, 56#8] = some (.closeShift 312, 7) ∧ readRecord [31#8, 1#8, 7#8, 1#8] = none ∧
    readRecord [35#8, 0#8, 7#8] = none := by decide +kernel

/-! ### Witnesses: more fixtures -/

/-- One record in each state but UP: 1 EMPTY, 2 QUEUED, 3 WAITING, 4 ORDERED, 5 CONFIRMING, 6 EXCHANGE, 7 LOCKED, 8 ROGUE,
9 UNOBSERVED, 10 UNSEEN; the rest UP. -/
def mixed : State :=
  let s := withSp 1 .empty (withSp 2 .queued (withSp 3 .waiting (withSp 4 .ordered (withSp 5 .confirming (withSp 6 .exchange
    (withSp 7 .locked (modifySp 8 (fun r => { r with rogueMark := true }) (withSp 8 .rogue (withSp 9 .unobserved
    (withSp 10 .unseen lab))))))))))
  { s with pie := { s.pie with a := { s.pie.a with queue := [{ index := 2, escalated := false }], waiting := [3] } } }

theorem mixed_tabled : mixed.tabled := tabled_of_check (by decide +kernel)

/-- Section `k` on a base of 1 m of roving at every position, within the empty margin of `conf`. -/
def lowered (k : Nat) (s : State) : State :=
  modifySec k (fun c => { c with base := some { mark := 1000, loaded := 1, rem := List.replicate 24 1000 } }) s

/-- No WAITING or QUEUED record of section `k` is at the empty margin. -/
def noneAtMargin (k : Nat) (s : State) : Bool :=
  (indicesOf k).all fun j => !(decide ((s.sp j).state = .waiting) || decide ((s.sp j).state = .queued)) ||
    (s.remaining j).all fun left => !s.atMargin left

/-- A state at device second `n`. -/
def atSecond (n : Nat) (s : State) : State := { s with del := { s.del with seconds := n } }

/-- A state at delivery count `n`. -/
def atCount (n : Nat) (s : State) : State := { s with del := { s.del with count := n } }

/-- Strip `k` changed. -/
def stripped (k : Nat) (f : Strip → Strip) (s : State) : State := setStrip k (f (s.strip k)) s

/-- Side A's engagement changed. -/
def engagedA (f : Engagement → Engagement) (s : State) : State := setEng .a (f (s.eng .a)) s

/-- Side A's engagement in ORDER_OUT with robot 44 and an order for record 4, tag 17, its timer at second 100. -/
def ordering (s : State) : State :=
  engagedA (fun e => { e with
    state := .orderOut, robot := some 44, order := some { index := 4, attempt := 1, tag := 17 }, timer := some 100
    position := some 1 }) s

/-- A state in part state READY. -/
def inReady (s : State) : State :=
  { s with port := { s.port with part := .ready }, frame := { s.frame with holds := { s.frame.holds with notStarted := true } } }

/-- A state in part state INIT, without a configuration. -/
def inInit : State := { State.reset with frame := { State.reset.frame with levels := [false, false, true, false] } }

/-- A close in progress, the sweep at record `n`, of a shift that one run has taken from count 0. -/
def closing (n : Nat) (s : State) : State :=
  { s with shift := { s.shift with
    opened := { s.shift.opened with number := 1 }
    closing := some { shift := { Shift.opened 0 0 0 (some (118, 1476)) false with closedAt := some (90, 950) }
                      sweep := n, waiting := true } } }

/-! ### Witnesses: chapters 1 and 2 -/

theorem witness_deliveryCounterEvents : lab.frame.resetLow = false ∧ lab.works ∧ lab.del.nextBucketAt = some 100 ∧
    lab.del.openBucket = some 5 ∧ lab.del.buckets.length ≤ 6 ∧ (atSecond 99 lab).works :=
  ⟨rfl, lab_works, rfl, rfl, by decide, rfl, rfl⟩

theorem witness_deliveryCounterEvents_settling : (doffed fun d => { d with state := .settling }).works ∧
    (engaged (fun e => { e with state := .calling }) lab).works ∧ (inReady lab).port.part ≠ .running := by
  refine ⟨⟨rfl, rfl⟩, ⟨rfl, rfl⟩, by decide⟩

theorem witness_conversionsOfPulses : conf.downPercent < conf.upPercent ∧ (10 : Nat) ≤ 10 ∧ 1 ≤ conf.ppr ∧ 1 ≤ art.tex ∧
    1 ≤ art.copMass * 100000000 / art.tex ∧ ([] : List Nat).length = 0 ∧ [1].length ≤ 5 ∧ [1, 2, 3, 4, 5, 6].length = 6 := by
  decide

theorem witness_stageArticle : lab.portOpen ∧ inInit.portOpen ∧ (inReady lab).portOpen :=
  ⟨lab_open, ⟨rfl, rfl, rfl⟩, ⟨rfl, rfl, rfl⟩⟩

/-- The two ends of each range are taken (R14). -/
theorem test_stage_article_ends :
    (after (.stageArticle 1 { id := 1, tex := 100, twist := 200, draft := 1000, roving := 300, copMass := 20 }) lab).del.staged
      = some { id := 1, tex := 100, twist := 200, draft := 1000, roving := 300, copMass := 20 } ∧
    (after (.stageArticle 1 { id := 65535, tex := 20000, twist := 2500, draft := 8000, roving := 6000, copMass := 150 })
      lab).del.staged.isSome = true ∧
    (after (.stageArticle 1 { art with tex := 20001 }) lab).del.staged = none := by decide +kernel

theorem witness_armArticle :
    let staged : State := { lab with del := { lab.del with staged := some art } }
    let first : State := { lab with del := { lab.del with staged := some art, active := none } }
    lab.portOpen ∧ lab.del.staged = none ∧ staged.portOpen ∧ staged.del.staged = some art ∧ staged.del.active = some art ∧
    first.portOpen ∧ first.del.staged = some art ∧ first.del.active = none ∧
    first.shift.opened.segments = [] ++ [Segment.opened none 0] :=
  ⟨lab_open, rfl, ⟨rfl, rfl, rfl⟩, rfl, rfl, ⟨rfl, rfl, rfl⟩, rfl, rfl, rfl⟩

theorem witness_tablesAndSoundKept :
    let s : State := { lab with pending := [.deliveryPulse] }
    s.staged ∧ s.tabled ∧ s.sound ∧ ∃ t, step s = .next t := by
  refine ⟨⟨rfl, rfl⟩, tabled_of_check (by decide +kernel), ⟨⟨⟨?_, ?_, ?_⟩, rfl⟩, ⟨?_, ?_⟩, rfl, rfl⟩, _, rfl⟩
  · decide
  · exact List.nodup_nil
  · intro a h; exact absurd h (List.not_mem_nil)
  · decide
  · decide

/-- The frame of section 1.8 at 71 and at 72 pulses: the expected counts 31 and 32, the two sides of R25's test. -/
theorem witness_stripRead : lab.works ∧ (atCount 999 lab).works ∧ lab.mon.rotation = some { pass := 0, strip := 4 } ∧
    lab.mon.strips.length = 4 ∧ lab.mon.spindles.length = 24 * lab.mon.strips.length ∧ (lab.strip 4).failed = false ∧
    (lab.del.count - (lab.strip 4).reference) * lab.cfg.circumference * ((lab.del.active.map Article.twist).getD 0) /
      (lab.cfg.ppr * 1000000) = 32 ∧
    ((atCount 999 lab).del.count - (lab.strip 4).reference) * lab.cfg.circumference *
      ((lab.del.active.map Article.twist).getD 0) / (lab.cfg.ppr * 1000000) = 31 ∧
    lab.doff.state = .spinning ∧ (doffed fun d => { d with state := .rundown }).doff.state = .rundown :=
  ⟨lab_works, ⟨rfl, rfl⟩, rfl, rfl, rfl, rfl, by decide +kernel, by decide +kernel, rfl, rfl⟩

theorem witness_missedReply :
    let low := stripped 4 (fun k => { k with missed := 1 }) lab
    let third := stripped 4 (fun k => { k with missed := 2 }) lab
    let out := stripped 4 (fun k => { k with missed := 3, failed := true }) lab
    low.works ∧ low.tabled ∧ third.works ∧ third.tabled ∧ out.works ∧ out.tabled ∧ (low.strip 4).missed < 2 ∧
    2 ≤ (third.strip 4).missed ∧ (third.strip 4).failed = false ∧ (out.strip 4).failed = true ∧
    low.mon.rotation = some { pass := 0, strip := 4 } :=
  ⟨⟨rfl, rfl⟩, tabled_of_check (by decide +kernel), ⟨rfl, rfl⟩, tabled_of_check (by decide +kernel), ⟨rfl, rfl⟩,
    tabled_of_check (by decide +kernel), by decide +kernel, by decide +kernel, by decide +kernel, by decide +kernel, rfl⟩

theorem witness_failedStripRecovers :
    let s := modifySp 73 (fun r => { r with rogueMark := true }) (withSp 73 .unobserved (withSp 96 .unobserved
      (withSp 95 .locked (stripped 4 (fun k => { k with missed := 3, failed := true }) lab))))
    s.works ∧ s.mon.rotation = some { pass := 0, strip := 4 } ∧ (s.strip 4).failed = true ∧ s.shift.closing = none ∧
    (s.sp 73).state = .unobserved ∧ (s.sp 73).rogueMark = true ∧ (s.sp 96).state = .unobserved ∧
    (s.sp 96).rogueMark = false ∧ (s.sp 95).state ≠ .unobserved :=
  ⟨⟨rfl, rfl⟩, rfl, by decide +kernel, rfl, by decide +kernel, by decide +kernel, by decide +kernel, by decide +kernel,
    by decide +kernel⟩

theorem witness_classifyingRead : mixed.tabled ∧ mixed.shift.closing = none ∧
    ([1, 2, 3, 4, 5, 6, 7, 8, 9, 10, 96].all mixed.hasSpindle = true) ∧
    [1, 2, 3, 4, 5, 6, 7, 8, 9, 10, 96].map (fun i => (mixed.sp i).state) =
      [.empty, .queued, .waiting, .ordered, .confirming, .exchange, .locked, .rogue, .unobserved, .unseen, .up] :=
  ⟨mixed_tabled, rfl, by decide +kernel, by decide +kernel⟩

/-- The end of the worked sequence that breaks: a second DOWN read in an UP record of a NORMAL section of full bobbins. -/
theorem witness_classifyingRead_break :
    let s := modifySp 96 (fun r => { r with downRun := 1, lastClass := .down }) mixed
    let exchanging := modifySec 4 (fun k => { k with state := .exchanging }) s
    let low := modifySec 4 (fun k => { k with base := some { mark := 0, loaded := 20, rem := List.replicate 24 20000 } }) s
    s.tabled ∧ exchanging.tabled ∧ low.tabled ∧ 1 ≤ (s.sp 96).downRun ∧ (s.sp 96).lastClass = .down ∧
    (s.sec 4).state = .normal ∧ s.atMargin ((s.remaining 96).getD 0) = false ∧ (exchanging.sec 4).state = .exchanging ∧
    low.atMargin ((low.remaining 96).getD 0) = true :=
  ⟨tabled_of_check (by decide +kernel), tabled_of_check (by decide +kernel), tabled_of_check (by decide +kernel),
    by decide +kernel⟩

/-- A confirm read that fails for the third time: at the attempt limit, below it, and with the section under exchange (R31). -/
theorem witness_classifyingRead_third :
    let s := fun (n : Nat) => modifySp 5 (fun r => { r with confirmReads := 2, lastClass := .slow, attempts := n }) mixed
    let exchanging := modifySec 1 (fun k => { k with state := .exchanging }) (s 0)
    (s 0).tabled ∧ (s 2).tabled ∧ exchanging.tabled ∧ ((s 0).sp 5).state = .confirming ∧ 2 ≤ ((s 0).sp 5).confirmReads ∧
    ((s 0).sp 5).lastClass ≠ .up ∧ min 5 (((s 0).sp 5).attempts + 1) < (s 0).cfg.attemptLimit ∧
    (s 2).cfg.attemptLimit ≤ min 5 (((s 2).sp 5).attempts + 1) ∧ (exchanging.sec (stripOf 5)).state = .exchanging ∧
    ((classify 5 (s 0)).sp 5).state = .queued ∧ ((classify 5 (s 2)).sp 5).state = .rogue ∧
    ((classify 5 exchanging).sp 5).state = .exchange :=
  ⟨tabled_of_check (by decide +kernel), tabled_of_check (by decide +kernel), tabled_of_check (by decide +kernel),
    by decide +kernel⟩

theorem witness_booking : mixed.hasSpindle 4 = true ∧ mixed.hasSpindle 96 = true ∧ mixed.shift.closing = none ∧
    mixed.shift.opened.segments = [] ++ [Segment.opened none 0] ∧ (mixed.sp 96).bookedTo = none ∧
    (mixed.sp 4).bookedTo = some 900 ∧ (mixed.sp 4).cause = some .brk ∧ (mixed.sp 9).cause = none ∧
    (mixed.sp 4).lostSinceBase ≤ 281474976710655 := by decide +kernel

theorem witness_setLockout :
    let pinned : State := { mixed with mon := { mixed.mon with pin := true } }
    let ranged : State := { mixed with mon := { mixed.mon with lockout := some { lower := 7, upper := 7, invert := false } } }
    mixed.portOpen ∧ mixed.works ∧ mixed.tabled ∧ pinned.portOpen ∧ pinned.works ∧ pinned.tabled ∧ pinned.mon.pin = true ∧
    (mixed.hasSpindle 0 && mixed.hasSpindle 96) = false ∧ (mixed.hasSpindle 1 && mixed.hasSpindle 97) = false ∧
    mixed.hasSpindle 1 = true ∧ mixed.hasSpindle 96 = true ∧ ranged.tabled ∧ ranged.works ∧
    insideOf ranged.mon.lockout 7 = true ∧ insideOf ranged.mon.lockout 6 = false ∧ (ranged.sp 7).state = .locked :=
  ⟨⟨rfl, rfl, rfl⟩, ⟨rfl, rfl⟩, mixed_tabled, ⟨rfl, rfl, rfl⟩, ⟨rfl, rfl⟩, tabled_of_check (by decide +kernel), rfl,
    by decide +kernel, by decide +kernel, by decide +kernel, by decide +kernel, tabled_of_check (by decide +kernel), ⟨rfl, rfl⟩,
    by decide +kernel, by decide +kernel, by decide +kernel⟩

theorem witness_clearLockoutAndPin :
    let l : Lockout := { lower := 7, upper := 7, invert := false }
    let ranged : State := { mixed with mon := { mixed.mon with lockout := some l } }
    ranged.portOpen ∧ ranged.works ∧ ranged.tabled ∧ ranged.mon.pin = false ∧ ranged.mon.lockout = some l ∧
    l.inside 7 = true ∧ (ranged.sp 7).state = .locked ∧ mixed.portOpen ∧ mixed.works ∧ mixed.tabled ∧
    mixed.mon.lockout = none ∧ mixed.frame.resetLow = false :=
  ⟨⟨rfl, rfl, rfl⟩, ⟨rfl, rfl⟩, tabled_of_check (by decide +kernel), rfl, rfl, rfl, by decide +kernel, ⟨rfl, rfl, rfl⟩,
    ⟨rfl, rfl⟩, mixed_tabled, rfl, rfl⟩

/-! ### Witnesses: chapters 3 and 4 -/

/-- Side A's queue with `n` entries. -/
def queuedUp (n : Nat) : State :=
  { lab with pie := { lab.pie with a := { lab.pie.a with
    queue := (List.range n).map (fun i => { index := i + 49, escalated := false }) } } }

theorem witness_placement : lab.hasSpindle 1 = true ∧ lab.hasSpindle 96 = true ∧ lab.shift.closing = none ∧
    (queuedUp 47).hasSpindle 48 = true ∧ ((queuedUp 47).side ((queuedUp 47).sideOf 48)).queue.length < 48 ∧
    (queuedUp 48).hasSpindle 48 = true ∧ 48 ≤ ((queuedUp 48).side ((queuedUp 48).sideOf 48)).queue.length ∧
    (let s := modifySp 48 (fun r => { r with attempts := 2, piecedAt := some 90 }) lab
     s.cfg.attemptLimit ≤ min 5 ((s.sp 48).attempts + 1) ∧ s.shift.closing = none) ∧
    (let s := modifySp 48 (fun r => { r with shiftBreaks := 6 }) lab
     s.cfg.rogueLimit ≤ (s.sp 48).shiftBreaks) := by decide +kernel

theorem witness_failedPiecing :
    let again := modifySp 4 (fun r => { r with attempts := 1 }) mixed
    let third := modifySp 4 (fun r => { r with attempts := 2 }) mixed
    let exchanging := modifySec 1 (fun k => { k with state := .exchanging }) mixed
    again.tabled ∧ third.tabled ∧ exchanging.tabled ∧ mixed.hasSpindle 4 = true ∧ mixed.shift.closing = none ∧
    (mixed.sp 4).state = .ordered ∧ (mixed.sp 5).state = .confirming ∧ (mixed.sp 96).state ≠ .ordered ∧
    min 5 ((again.sp 4).attempts + 1) < again.cfg.attemptLimit ∧ third.cfg.attemptLimit ≤ min 5 ((third.sp 4).attempts + 1) ∧
    (exchanging.sec (stripOf 4)).state = .exchanging ∧ (mixed.side (mixed.sideOf 4)).queue.length < 48 :=
  ⟨tabled_of_check (by decide +kernel), tabled_of_check (by decide +kernel), tabled_of_check (by decide +kernel),
    by decide +kernel⟩

theorem witness_clearRogue :
    let marked := modifySp 7 (fun r => { r with rogueMark := true }) mixed
    (inReady mixed).portOpen ∧ (inReady mixed).port.part ≠ .running ∧ mixed.portOpen ∧ mixed.port.part = .running ∧
    mixed.hasSpindle 0 = false ∧ mixed.hasSpindle 97 = false ∧ mixed.hasSpindle 96 = true ∧ (mixed.sp 96).rogueMark = false ∧
    mixed.hasSpindle 8 = true ∧ (mixed.sp 8).rogueMark = true ∧ (mixed.sp 8).state = .rogue ∧ marked.portOpen ∧
    (marked.sp 7).rogueMark = true ∧ (marked.sp 7).state ≠ .rogue ∧ mixed.shift.closing = none :=
  ⟨⟨rfl, rfl, rfl⟩, by decide, ⟨rfl, rfl, rfl⟩, rfl, by decide +kernel, by decide +kernel, by decide +kernel, by decide +kernel,
    by decide +kernel, by decide +kernel, by decide +kernel, ⟨rfl, rfl, rfl⟩, by decide +kernel, by decide +kernel, rfl⟩

theorem witness_piecingTimers :
    let calling := engaged (fun e => { e with state := .calling, nextCall := some 100, sinceCall := 600 }) mixed
    let early := engaged (fun e => { e with state := .calling, nextCall := some 101, sinceCall := 599 }) mixed
    let awaiting := engaged (fun e => { e with state := .awaiting, robot := some 44, timer := some 100 }) mixed
    let barred := setSide .b { lab.pie.b with bar := some { robot := 44, ends := 100 } } lab
    calling.works ∧ (calling.eng .b).nextCall = some 100 ∧ 100 ≤ calling.del.seconds ∧ early.works ∧
    early.del.seconds < 101 ∧ awaiting.works ∧ (awaiting.eng .b).timer = some 100 ∧ awaiting.queuesEmpty .b = true ∧
    (engagedA (fun e => { e with state := .awaiting, robot := some 44, timer := some 100 }) mixed).queuesEmpty .a = false ∧
    (engagedA (fun e => { e with state := .awaiting, robot := some 44, timer := some 100, timeouts := 1 }) mixed).works ∧
    barred.works ∧ (barred.side .b).bar = some { robot := 44, ends := 100 } ∧ (lab.side .b).bar = none ∧
    (calling.servedEntries .a).head? = some { index := 2, escalated := false } :=
  ⟨⟨rfl, rfl⟩, rfl, by decide, ⟨rfl, rfl⟩, by decide, ⟨rfl, rfl⟩, rfl, by decide +kernel, by decide +kernel, ⟨rfl, rfl⟩,
    ⟨rfl, rfl⟩, rfl, rfl, by decide +kernel⟩

/-- The arrival timeout of an engagement whose queue holds an entry: released, and calling with the count of timeouts as it was
(R65, R70). -/
theorem test_arrival_timeout_calls :
    let t := after (.arrivalTimeout .a)
      (engagedA (fun e => { e with state := .awaiting, robot := some 44, timer := some 100, timeouts := 1 }) mixed)
    (t.eng .a).state = .calling ∧ (t.eng .a).timeouts = 1 ∧
    t.line.out.map (fun o => (o.tel.kind, o.tel.dest)) = [(.robotRelease, 44), (.pieceCall, 0)] := by decide +kernel

/-- The three operations that withdraw the order of an ORDERED record (R80). -/
theorem witness_withdrawal :
    let s := ordering mixed
    (s.eng .a).state = .orderOut ∧ (s.eng .a).order = some { index := 4, attempt := 1, tag := 17 } ∧
    (s.eng .a).robot = some 44 ∧ (s.eng .b).order = none ∧ (s.sp 4).state = .ordered ∧
    [lockRecord 4 s, unobserve 4 s, exchangeRecord 4 s].map (fun t => ((t.sp 4).state, t.line.out.map (fun o => o.tel.kind))) =
      [(.locked, [.workCancel]), (.unobserved, [.workCancel]), (.exchange, [.workCancel])] := by decide +kernel

theorem witness_orderTimeout :
    let s := ordering mixed
    let second := engagedA (fun e => { e with timeouts := 1 }) s
    s.works ∧ s.tabled ∧ s.shift.closing = none ∧ (s.eng .a).state = .orderOut ∧
    (s.eng .a).order = some { index := 4, attempt := 1, tag := 17 } ∧ (s.eng .a).timer = some 100 ∧
    (s.eng .a).robot = some 44 ∧ (100 : Nat) ≤ s.del.seconds ∧ (atSecond 99 s).works ∧ (atSecond 99 s).del.seconds < 100 ∧
    (s.sp 4).state = .ordered ∧ (s.eng .a).timeouts = 0 ∧ second.works ∧ second.tabled ∧ (second.eng .a).timeouts ≠ 0 :=
  ⟨⟨rfl, rfl⟩, tabled_of_check (by decide +kernel), rfl, rfl, rfl, rfl, rfl, by decide, ⟨rfl, rfl⟩, by decide,
    by decide +kernel, rfl, ⟨rfl, rfl⟩, tabled_of_check (by decide +kernel), by decide⟩

theorem witness_offer :
    let s := heads .robotOffer 44 [1#8] (engaged (fun e => { e with state := .calling }) lab)
    let barred := heads .robotOffer 44 [1#8] (setSide .b { (engaged (fun e => { e with state := .calling }) lab).pie.b with
      bar := some { robot := 44, ends := 300 } } lab)
    s.works ∧ s.line.rx.length = 1 ∧ s.accepts 44 .b = true ∧ s.offeredSide 1 = some .b ∧ s.offeredSide 2 = none ∧
    barred.works ∧ barred.accepts 44 .b = false :=
  ⟨⟨rfl, rfl⟩, rfl, by decide +kernel, by decide, by decide, ⟨rfl, rfl⟩, by decide +kernel⟩

theorem witness_arrival :
    let awaits := engagedA (fun e => { e with state := .awaiting, robot := some 44, timer := some 120 })
    let s := heads .robotArrived 44 (field 2 96) (awaits mixed)
    let stopped : State := { s with frame := { s.frame with run := false } }
    let none_ := heads .robotArrived 44 (field 2 0) (awaits lab)
    s.works ∧ s.tabled ∧ s.shift.closing = none ∧ s.engagedBy 44 = some .a ∧ (s.eng .a).state = .awaiting ∧
    s.queuesEmpty .a = false ∧ s.frame.run = true ∧ stopped.works ∧ stopped.frame.run = false ∧
    none_.works ∧ none_.queuesEmpty .a = true ∧ s.engagedBy 45 = none ∧
    (setEng .a { s.eng .a with state := .working, position := some 96, ascending := true, timer := none } s).selection .a =
      some (2, false) :=
  ⟨⟨rfl, rfl⟩, tabled_of_check (by decide +kernel), rfl, by decide +kernel, rfl, by decide +kernel, rfl, ⟨rfl, rfl⟩, rfl,
    ⟨rfl, rfl⟩, by decide +kernel, by decide +kernel, by decide +kernel⟩

/-- The two ends of R72 in the worked sequence of chapter 3: nothing ahead, so the direction turns; an escalated entry goes
first although it lies behind. -/
theorem witness_selection :
    let s := engagedA (fun e => { e with position := some 96 }) mixed
    let old : State := { s with pie := { s.pie with a := { s.pie.a with queue := [{ index := 2, escalated := true }] } } }
    s.selection .a = some (2, false) ∧ old.selection .a = some (2, true) ∧ lab.selection .a = none ∧
    (∃ e ∈ old.servedEntries .a, e.escalated = true) ∧ (∀ e ∈ s.servedEntries .a, e.escalated = false) := by decide +kernel

theorem witness_result :
    let s := ordering mixed
    let reply := fun (outcome : Nat) => heads .workResult 44 (field 1 17 ++ field 2 4 ++ field 1 outcome ++ field 2 5) s
    let seen := modifySp 4 (fun r => { r with seenUp := true }) (reply 1)
    (reply 0).works ∧ (reply 0).tabled ∧ (reply 3).works ∧ (reply 3).tabled ∧ (reply 4).works ∧ (reply 4).tabled ∧
    seen.works ∧ seen.tabled ∧ s.shift.closing = none ∧ s.engagedBy 44 = some .a ∧ (s.sp 4).state = .ordered ∧
    (seen.sp 4).seenUp = true ∧ (s.sp 4).seenUp = false ∧
    ((reply 3).line.rx.map fun r => (r.tel.num 0 1, r.tel.num 3 1, r.tel.num 4 2)) = [(17, 3, 5)] ∧
    (heads .workResult 45 [] s).engagedBy 45 = none ∧ (s.sec 1).state = .normal ∧ noneAtMargin 1 s = true ∧
    noneAtMargin 1 (lowered 1 s) = false :=
  ⟨⟨rfl, rfl⟩, tabled_of_check (by decide +kernel), ⟨rfl, rfl⟩, tabled_of_check (by decide +kernel), ⟨rfl, rfl⟩,
    tabled_of_check (by decide +kernel), ⟨rfl, rfl⟩, tabled_of_check (by decide +kernel), rfl, by decide +kernel,
    by decide +kernel, by decide +kernel, by decide +kernel, by decide +kernel, by decide +kernel, by decide +kernel,
    by decide +kernel, by decide +kernel⟩

theorem witness_robotGone :
    let s := ordering mixed
    let gone := heads .robotWithdraw 44 [] s
    let restart := heads .stationRestart 44 [] s
    gone.works ∧ gone.tabled ∧ restart.works ∧ restart.tabled ∧ s.shift.closing = none ∧ s.engagedBy 44 = some .a ∧
    (s.eng .a).state = .orderOut ∧ (s.sp 4).state = .ordered ∧ (heads .robotWithdraw 45 [] s).works ∧ s.engagedBy 45 = none :=
  ⟨⟨rfl, rfl⟩, tabled_of_check (by decide +kernel), ⟨rfl, rfl⟩, tabled_of_check (by decide +kernel), rfl, by decide +kernel, rfl,
    by decide +kernel, ⟨rfl, rfl⟩, by decide +kernel⟩

/-! ### Witnesses: chapters 5 and 6 -/

/-- The creel unit changed. -/
def creeled (f : Creel → Creel) (s : State) : State := { s with creel := f s.creel }

/-- Section 1 booked by carrier 51 in slot 1, with section 4. -/
def booked (s : State) : State :=
  modifySec 4 (fun k => { k with booking := some 1 }) (modifySec 1 (fun k => { k with booking := some 1 })
    (creeled (fun c => { c with slot1 := some { carrier := 51, eta := 4, lapse := 100, sections := [1, 4] } }) s))

/-- Section 1 under an exchange of carrier 51, its timer at second 100. -/
def exchanging (s : State) : State :=
  modifySec 1 (fun k => { k with state := .exchanging, timer := some 100, carrier := some 51 }) (booked s)

/-- Carrier 52 in slot 2 besides, with section 3. -/
def besideOther (s : State) : State :=
  modifySec 3 (fun k => { k with booking := some 2 })
    (creeled (fun c => { c with slot2 := some { carrier := 52, eta := 1, lapse := 300, sections := [3] } }) s)

theorem witness_announcement :
    let listed := creeled (fun c => { c with dueList := [{ number := 4, minutes := 60 }] }) (atSecond 300 lab)
    (atSecond 300 lab).works ∧ lab.creel.announceFrom = some 0 ∧ 0 + 300 ≤ (atSecond 300 lab).del.seconds ∧
    lab.creel.dueList = [] ∧ listed.works ∧ listed.creel.dueList ≠ [] ∧ (atSecond 299 lab).works ∧
    (atSecond 299 lab).del.seconds < 0 + 300 :=
  ⟨⟨rfl, rfl⟩, rfl, by decide, rfl, ⟨rfl, rfl⟩, by decide, ⟨rfl, rfl⟩, by decide⟩

/-- The recompute of the worked sequence of chapter 5, in small: due at the horizon of 60 minutes and not beyond it. -/
theorem witness_dueList :
    let s := modifySec 4 (fun k => { k with minutes := some 60, due := true })
      (modifySec 1 (fun k => { k with minutes := some 0, due := true }) lab)
    1 ≤ s.creel.sections.length ∧ (s.sec 1).due = true ∧ (s.sec 4).due = true ∧ (s.sec 2).due = false ∧
    (rebuildDue s).creel.dueList = [{ number := 1, minutes := 0 }, { number := 4, minutes := 60 }] ∧
    ((rebuildDue s).creel.dueList.take 6).map DueEntry.number ≠ s.creel.firstSix := by decide +kernel

theorem witness_marginCheck :
    let base := fun (mm : Nat) => ({ mark := 1000, loaded := 20, rem := List.replicate 24 mm } : Base)
    let at_ := fun (mm : Nat) => modifySec 1 (fun k => { k with base := some (base mm) }) (modifySp 2 (fun r => { r with
      bookedTo := some 1000 }) mixed)
    (at_ 20000).tabled ∧ (at_ 20001).tabled ∧ mixed.hasSpindle 2 = true ∧ mixed.shift.closing = none ∧
    ((at_ 20000).sec (stripOf 2)).base = some (base 20000) ∧ ((at_ 20000).sp 2).state = .queued ∧
    (at_ 20000).remainingFrom (base 20000) 2 ≤ (at_ 20000).cfg.emptyMargin * 1000 ∧
    ¬ (at_ 20001).remainingFrom (base 20001) 2 ≤ (at_ 20001).cfg.emptyMargin * 1000 :=
  ⟨tabled_of_check (by decide +kernel), tabled_of_check (by decide +kernel), by decide +kernel⟩

theorem witness_recompute :
    let unknown := modifySec 4 (fun k => { k with state := .unknown }) mixed
    let still : State := { mixed with del := { mixed.del with buckets := [] } }
    mixed.works ∧ mixed.tabled ∧ mixed.creel.nextRecompute = some 100 ∧ 100 ≤ mixed.del.seconds ∧ (atSecond 99 mixed).works ∧
    (atSecond 99 mixed).del.seconds < 100 ∧ unknown.works ∧ unknown.tabled ∧ (unknown.sec 4).state ≠ .normal ∧
    (mixed.sec 4).state = .normal ∧ still.works ∧ still.tabled ∧ still.rate = none ∧ mixed.emptyCount 1 ≠ 0 ∧
    mixed.emptyCount 4 = 0 ∧ mixed.rate = some 18000 ∧ mixed.shift.closing = none ∧
    (mixed.sec 4).base = some { mark := 0, loaded := 1800, rem := List.replicate 24 1800000 } :=
  ⟨⟨rfl, rfl⟩, mixed_tabled, rfl, by decide, ⟨rfl, rfl⟩, by decide, ⟨rfl, rfl⟩, tabled_of_check (by decide +kernel),
    by decide +kernel, by decide +kernel, ⟨rfl, rfl⟩, tabled_of_check (by decide +kernel), by decide +kernel,
    by decide +kernel, by decide +kernel, by decide +kernel, rfl, by decide +kernel⟩

theorem witness_lapsesAndTimeouts :
    (booked lab).works ∧ (booked lab).slot 1 = some { carrier := 51, eta := 4, lapse := 100, sections := [1, 4] } ∧
    (100 : Nat) ≤ (booked lab).del.seconds ∧ (booked lab).slot 2 = none ∧ (atSecond 99 (booked lab)).works ∧
    (exchanging lab).works ∧ (exchanging lab).hasSection 1 = true ∧ ((exchanging lab).sec 1).state = .exchanging ∧
    ((exchanging lab).sec 1).timer = some 100 ∧ (atSecond 99 (exchanging lab)).del.seconds < 100 :=
  ⟨⟨rfl, rfl⟩, by decide +kernel, by decide, by decide, ⟨rfl, rfl⟩, ⟨rfl, rfl⟩, by decide +kernel, by decide +kernel,
    by decide +kernel, by decide⟩

/-- The bookings of the worked sequence of chapter 6, in small: carrier 52 is refused a section of carrier 51's and given another;
a third carrier finds no slot. -/
theorem witness_carrierBooking :
    let s := heads .carrierBooking 52 [10#8, 4#8, 3#8] (booked lab)
    let full := heads .carrierBooking 53 [1#8, 2#8] (creeled (fun c => { c with
      slot2 := some { carrier := 52, eta := 1, lapse := 300, sections := [3] } }) (booked lab))
    s.works ∧ s.slotFor 52 = some 2 ∧ s.bookingTaken (s.slotOf 52) [] [4, 3] = ([3], [3]) ∧ s.slotFor 51 = some 1 ∧
    s.bookingTaken (s.slotOf 51) [1, 4] [4, 4, 2] = ([4, 2], [2]) ∧ full.works ∧ full.slotFor 53 = none ∧
    s.hasSection 4 = true ∧ s.hasSection 5 = false :=
  ⟨⟨rfl, rfl⟩, by decide +kernel, by decide +kernel, by decide +kernel, by decide +kernel, ⟨rfl, rfl⟩, by decide +kernel,
    by decide +kernel, by decide +kernel⟩

theorem witness_exchangeBegin :
    let s := heads .exchangeBegin 51 [1#8] (booked mixed)
    s.works ∧ s.tabled ∧ s.shift.closing = none ∧ s.hasSection 1 = true ∧ (s.sec 1).state = .normal ∧
    (s.sec 1).booking = some 1 ∧ (s.slot 1).map Booking.carrier = some 51 ∧ (s.sp 2).state = .queued ∧
    (s.sp 3).state = .waiting ∧ (s.sp 4).state = .ordered ∧ (s.sp 1).state = .empty ∧ (s.sp 5).state = .confirming ∧
    (heads .exchangeBegin 52 [1#8] (booked mixed)).works ∧ (s.sec 5).booking = none :=
  ⟨⟨rfl, rfl⟩, tabled_of_check (by decide +kernel), rfl, by decide +kernel, by decide +kernel, by decide +kernel,
    by decide +kernel, by decide +kernel, by decide +kernel, by decide +kernel, by decide +kernel, by decide +kernel, ⟨rfl, rfl⟩,
    by decide +kernel⟩

theorem witness_exchangeEnd :
    let s := fun (outcome : Nat) => heads .exchangeEnd 51 (field 1 1 ++ field 1 outcome) (exchanging mixed)
    (s 0).works ∧ (s 0).tabled ∧ (s 1).works ∧ (s 1).tabled ∧ (s 2).works ∧ (s 2).tabled ∧ (s 0).shift.closing = none ∧
    (s 0).hasSection 1 = true ∧ ((s 0).sec 1).state = .exchanging ∧ ((s 0).sec 1).carrier = some 51 ∧
    ((s 0).sp 6).state = .exchange ∧ ((s 0).sp 1).state = .empty ∧ (s 0).cfg.emptyMargin < 1800 ∧
    (heads .exchangeEnd 51 [2#8, 0#8] (exchanging mixed)).works ∧ ((s 0).sec 2).carrier = none ∧
    (each (indicesOf 1) book (s 0)).shift.opened.segments.length = 1 :=
  ⟨⟨rfl, rfl⟩, tabled_of_check (by decide +kernel), ⟨rfl, rfl⟩, tabled_of_check (by decide +kernel), ⟨rfl, rfl⟩,
    tabled_of_check (by decide +kernel), rfl, by decide +kernel, by decide +kernel, by decide +kernel, by decide +kernel,
    by decide +kernel, by decide, ⟨rfl, rfl⟩, by decide +kernel, by decide +kernel⟩

/-- R109: the EXCHANGE and the EMPTY record of a loaded section are counted as one break each. -/
theorem test_load_counts_fresh_breaks :
    let s := heads .exchangeEnd 51 (field 1 1 ++ field 1 0) (exchanging mixed)
    let t := after .exchangeEnd s
    s.shift.opened.segments.map Segment.breaks = [0] ∧ t.shift.opened.segments.map Segment.breaks = [2] ∧
    (t.sp 6).shiftBreaks = (s.sp 6).shiftBreaks := by decide +kernel

theorem witness_carrierGone :
    let s := heads .bookingDone 51 [] (exchanging lab)
    let restart := heads .stationRestart 51 [] (exchanging lab)
    s.works ∧ s.slotOf 51 = some 1 ∧ (s.slot 1).map Booking.sections = some [1, 4] ∧
    (heads .bookingDone 52 [] (exchanging lab)).slotOf 52 = none ∧ restart.works ∧ (restart.sec 1).state = .exchanging ∧
    (restart.sec 1).carrier = some 51 ∧ (restart.sec 4).state ≠ .exchanging ∧
    (restart.line.rx.map fun r => r.byCreel) = [false] ∧
    (let beside := heads .stationRestart 51 [] (besideOther (exchanging lab))
     beside.works ∧ beside.slotOf 51 = some 1 ∧ (beside.slot 1).map Booking.sections = some [1, 4] ∧
     (beside.sec 4).carrier = none ∧ beside.slot 2 = some { carrier := 52, eta := 1, lapse := 300, sections := [3] }) ∧
    (let taken : State := { restart with line := { restart.line with
       rx := restart.line.rx.map (fun r => { r with byCreel := true }) } }
     taken.works ∧ (taken.line.rx.map fun r => r.byCreel) = [true]) :=
  ⟨⟨rfl, rfl⟩, by decide +kernel, by decide +kernel, by decide +kernel, ⟨rfl, rfl⟩, by decide +kernel, by decide +kernel,
    by decide +kernel, by decide +kernel,
    ⟨⟨rfl, rfl⟩, by decide +kernel, by decide +kernel, by decide +kernel, by decide +kernel⟩, ⟨rfl, rfl⟩, by decide +kernel⟩

/-- R110, R111: the restarted carrier's exchange of section 1 ends UNKNOWN, section 4 of its slot is unbooked alone, and slot 2 stays. -/
theorem test_restarted_carrier :
    let s := heads .stationRestart 51 [] (besideOther (exchanging lab))
    let t := after .stationRestartCreel s
    (t.sec 1).state = .unknown ∧ t.sec 4 = { s.sec 4 with booking := none } ∧ t.slot 1 = none ∧ t.slot 2 = s.slot 2 ∧
    t.sec 3 = s.sec 3 := by decide +kernel

theorem witness_creelConfirm :
    let unknown := modifySec 4 (fun k => { k with state := .unknown }) mixed
    let bare := modifySec 4 (fun k => { k with state := .unknown, base := none }) mixed
    mixed.portOpen ∧ mixed.works ∧ mixed.tabled ∧ mixed.shift.closing = none ∧ mixed.hasSection 0 = false ∧
    mixed.hasSection 5 = false ∧ mixed.hasSection 4 = true ∧ (mixed.sec 4).state = .normal ∧ unknown.portOpen ∧
    unknown.works ∧ unknown.tabled ∧ (unknown.sec 4).state ≠ .normal ∧ (unknown.sec 4).base ≠ none ∧ bare.portOpen ∧
    bare.works ∧ bare.tabled ∧ (bare.sec 4).state ≠ .normal ∧ (bare.sec 4).base = none ∧
    (each (indicesOf 4) book unknown).shift.opened.segments.length = 1 ∧ noneAtMargin 4 unknown = true ∧
    noneAtMargin 1 (exchanging mixed) = true :=
  ⟨⟨rfl, rfl, rfl⟩, ⟨rfl, rfl⟩, mixed_tabled, rfl, by decide +kernel, by decide +kernel, by decide +kernel, by decide +kernel,
    ⟨rfl, rfl, rfl⟩, ⟨rfl, rfl⟩, tabled_of_check (by decide +kernel), by decide +kernel, by decide +kernel, ⟨rfl, rfl, rfl⟩,
    ⟨rfl, rfl⟩, tabled_of_check (by decide +kernel), by decide +kernel, by decide +kernel, by decide +kernel,
    by decide +kernel, by decide +kernel⟩

/-! ### Witnesses: chapters 7 and 8 -/

/-- The fill of the worked sequence of chapter 7: 970 at 9,300,000 pulses, 969 at 9,297,216, the last count below the threshold, 1,000 at 9,584,759. -/
theorem witness_secondClaims :
    let s := fun (st : DoffState) (count : Nat) => atCount count (doffed fun d => { d with state := st, listenEnd := some 200 })
    let down : State := { doffed (fun d => { d with state := .rundown }) with
      frame := { lab.frame with run := false }, del := { lab.del with pulseFree := 1 } }
    (s .spinning 9300000).works ∧ (s .spinning 9300000).fill = 970 ∧ (s .spinning 9297216).fill = 969 ∧
    (s .claimed 9584759).fill = 1000 ∧ (s .claimed 9584758).fill = 999 ∧ (s .claimed 0).works ∧ (s .fullWait 0).works ∧
    (s .granted 9584759).works ∧ (s .granted 9584759).doff.urgency = .normal ∧ (s .rundown 0).works ∧
    (s .doffing 0).works ∧ down.works ∧ down.frame.run = false ∧ 2 ≤ min 65535 (down.del.pulseFree + 1) :=
  ⟨⟨rfl, rfl⟩, by decide +kernel, by decide +kernel, by decide +kernel, by decide +kernel, ⟨rfl, rfl⟩, ⟨rfl, rfl⟩, ⟨rfl, rfl⟩,
    rfl, ⟨rfl, rfl⟩, ⟨rfl, rfl⟩, ⟨rfl, rfl⟩, rfl, by decide⟩

/-- Station 12 of the worked contention of chapter 8 at second 103, its view holding station 7 in DOFFING and the claim of 30: it
grants below two slots, and would not with the slots full. -/
theorem witness_listenEnd :
    let peers : List Peer :=
      [{ station := 7, phase := .doffing, urgency := .normal, wait := 42, heard := 97 },
       { station := 30, phase := .claimed, urgency := .normal, wait := 0, heard := 100 }]
    let s := atSecond 103 (doffed fun d => { d with
      state := .claimed, firstClaim := some 100, listenEnd := some 103, view := peers })
    let taken := atSecond 103 (doffed fun d => { d with
      state := .claimed, firstClaim := some 100, listenEnd := some 103
      view := peers.map (fun p => { p with phase := .doffing }) })
    s.works ∧ s.doff.listenEnd = some 103 ∧ 103 ≤ s.del.seconds ∧ (atSecond 102 s).works ∧
    (atSecond 102 s).del.seconds < 103 ∧ s.slotHolders + s.claimantsAhead < s.cfg.slots ∧ s.doff.view.length < 16 ∧
    taken.works ∧ taken.doff.listenEnd = some 103 ∧ ¬ taken.slotHolders + taken.claimantsAhead < taken.cfg.slots :=
  ⟨⟨rfl, rfl⟩, rfl, by decide, ⟨rfl, rfl⟩, by decide, by decide +kernel, by decide, ⟨rfl, rfl⟩, rfl, by decide +kernel⟩

/-- The grant check at a device second, the listen end gone: granted below the slots, in CLAIMED at a fill of 1,000 with the urgency
FULL that the second has just given, and not granted with two peers doffing (R118, R140). -/
theorem witness_secondGrants :
    let peer : Peer := { station := 7, phase := .doffing, urgency := .normal, wait := 42, heard := 97 }
    let s := fun (st : DoffState) (count n : Nat) => atCount count (doffed fun d => { d with
      state := st, urgency := if st = .fullWait then .full else .normal, firstClaim := some 90
      view := (List.range n).map (fun k => { peer with station := 7 + k }) })
    let ends := fun (u : State) => ((after .deviceSecond u).doff.state, (after .deviceSecond u).doff.urgency)
    (s .claimed 9300000 1).works ∧ (s .claimed 9300000 1).doff.listenEnd = none ∧ (s .claimed 9300000 1).fill < 1000 ∧
    1000 ≤ (s .claimed 9584759 1).fill ∧ ends (s .claimed 9300000 1) = (.granted, .normal) ∧
    ends (s .claimed 9300000 2) = (.claimed, .normal) ∧ ends (s .claimed 9584759 1) = (.granted, .full) ∧
    ends (s .claimed 9584759 2) = (.fullWait, .full) ∧ ends (s .fullWait 9584759 1) = (.granted, .full) :=
  ⟨⟨rfl, rfl⟩, by decide +kernel⟩

theorem witness_confirmEnd :
    let s := { ordering mixed with doff := { lab.doff with state := .granted, confirmEnd := some 100 } }
    s.works ∧ s.doff.confirmEnd = some 100 ∧ (100 : Nat) ≤ s.del.seconds ∧ s.doff.state = .granted ∧ s.tabled ∧
    s.shift.closing = none ∧ (s.eng .a).state = .orderOut ∧ (s.sp 4).state = .ordered ∧ (atSecond 99 s).works ∧
    (doffed fun d => { d with confirmEnd := some 100 }).works :=
  ⟨⟨rfl, rfl⟩, rfl, by decide, rfl, tabled_of_check (by decide +kernel), rfl, rfl, by decide +kernel, ⟨rfl, rfl⟩, ⟨rfl, rfl⟩⟩

theorem witness_doffTimersAndRun :
    let due := doffed fun d => { d with state := .doffing, doffTimer := some 100, nextAnn := some 100 }
    let early := doffed fun d => { d with state := .doffing, doffTimer := some 101, nextAnn := some 101 }
    let down : State := { doffed (fun d => { d with state := .rundown }) with del := { lab.del with pulseFree := 2 } }
    let still : State := { engagedA (fun e => { e with state := .working, robot := some 44 }) mixed with
      frame := { lab.frame with run := false } }
    due.works ∧ due.doff.nextAnn = some 100 ∧ 100 ≤ due.del.seconds ∧ early.works ∧ early.del.seconds < 101 ∧
    (doffed fun d => { d with state := .claimed, nextAnn := some 100 }).works ∧ lab.frame.run = true ∧ down.works ∧
    down.frame.run = true ∧ down.doff.state = .rundown ∧ 2 ≤ down.del.pulseFree ∧ lab.del.pulseFree < 2 ∧ still.works ∧
    still.frame.run = false ∧ (still.eng .a).state = .working ∧ (lab.eng .a).state ≠ .working :=
  ⟨⟨rfl, rfl⟩, rfl, by decide, ⟨rfl, rfl⟩, by decide, ⟨rfl, rfl⟩, rfl, ⟨rfl, rfl⟩, rfl, rfl, by decide, by decide, ⟨rfl, rfl⟩,
    rfl, rfl, by decide⟩

/-- The premise of the decision at RUN: a tabled state of a working engagement, no end waiting beside a queue with room. -/
theorem witness_doffTimersAndRun_decision :
    let s := withSp 2 .queued lab
    let t : State := { engagedA (fun e => { e with state := .working, robot := some 44 }) { s with
        pie := { s.pie with a := { s.pie.a with queue := [{ index := 2, escalated := false }] } } } with
      frame := { lab.frame with run := false } }
    t.works ∧ t.tabled ∧ (∀ y, (t.side y).queue.length < 48 → (t.side y).waiting = []) ∧ (t.eng .a).state = .working ∧
    t.queuesEmpty .a = false := by
  refine ⟨⟨rfl, rfl⟩, tabled_of_check (by decide +kernel), fun y _ => by cases y <;> rfl, rfl, by decide +kernel⟩

/-- The judgement of the worked sequence of chapter 7, in small. -/
theorem witness_settleWindow :
    let judged := modifySp 73 (fun r => { r with lastClass := .down }) (withSp 73 .unseen
      (modifySp 96 (fun r => { r with lastClass := .slow }) (stripped 4 (fun k => { k with lastAnswered := some 90 }) mixed)))
    let s : State := engagedA (fun e => { e with state := .suspended }) { judged with
      doff := { lab.doff with state := .settling, settleStart := some 90, settleSeconds := 30 } }
    let early : State := { s with doff := { s.doff with settleSeconds := 29 } }
    s.works ∧ s.tabled ∧ s.shift.closing = none ∧ s.doff.state = .settling ∧ s.cfg.settleWindow ≤ s.doff.settleSeconds ∧
    early.works ∧ early.tabled ∧ early.doff.settleSeconds < early.cfg.settleWindow ∧ (s.sp 96).state = .up ∧
    (s.sp 96).lastClass = .slow ∧ (s.sp 73).state = .unseen ∧ (s.strip 4).lastAnswered = some 90 ∧
    (s.eng .a).state = .suspended ∧ (s.sp 95).lastClass = .none ∧
    (let low := lowered 4 s
     low.works ∧ low.tabled ∧ (low.sec 4).state = .normal ∧ low.atMargin ((low.remaining 96).getD 0) = true ∧
     noneAtMargin 4 low = true) :=
  ⟨⟨rfl, rfl⟩, tabled_of_check (by decide +kernel), rfl, rfl, by decide +kernel, ⟨rfl, rfl⟩, tabled_of_check (by decide +kernel),
    by decide +kernel, by decide +kernel, by decide +kernel, by decide +kernel, by decide +kernel, by decide +kernel,
    by decide +kernel, ⟨rfl, rfl⟩, tabled_of_check (by decide +kernel), by decide +kernel, by decide +kernel, by decide +kernel⟩

theorem witness_doffCommands :
    let s := fun (st : DoffState) => doffed fun d => { d with state := st }
    let armed : State := { s .doffing with del := { lab.del with armed := true, staged := some { art with id := 212 } } }
    lab.portOpen ∧ lab.works ∧ lab.doff.state = .spinning ∧ lab.fill < 1000 ∧ (atCount 9584759 lab).works ∧
    1000 ≤ (atCount 9584759 lab).fill ∧ (s .claimed).works ∧ (s .claimed).portOpen ∧ (s .granted).works ∧
    (s .doffing).works ∧ (s .doffing).portOpen ∧ (s .doffing).del.armed = false ∧ armed.works ∧ armed.portOpen ∧
    armed.del.armed = true ∧ armed.shift.opened.segments.length < 4 ∧ (s .unknown).works ∧ (s .rundown).works ∧
    (s .settling).works ∧
    (engaged (fun e => { e with state := .suspended }) (s .rundown)).works ∧
    (let fourth : State := { armed with shift := { armed.shift with opened := { armed.shift.opened with
       segments := List.replicate 4 (Segment.opened (some (118, 1476)) 0) } } }
     fourth.works ∧ fourth.portOpen ∧ fourth.shift.opened.segments.length = 4) ∧
    (armed.sec 1).state = .normal ∧ (armed.sec 1).base.isSome = true ∧
    (doffed fun d => { d with state := .unknown }).portOpen :=
  ⟨lab_open, lab_works, rfl, by decide +kernel, ⟨rfl, rfl⟩, by decide +kernel, ⟨rfl, rfl⟩, ⟨rfl, rfl, rfl⟩, ⟨rfl, rfl⟩, ⟨rfl, rfl⟩,
    ⟨rfl, rfl, rfl⟩, rfl, ⟨rfl, rfl⟩, ⟨rfl, rfl, rfl⟩, rfl, by decide, ⟨rfl, rfl⟩, ⟨rfl, rfl⟩, ⟨rfl, rfl⟩, ⟨rfl, rfl⟩,
    ⟨⟨rfl, rfl⟩, ⟨rfl, rfl, rfl⟩, rfl⟩, by decide +kernel, by decide +kernel, ⟨rfl, rfl, rfl⟩⟩

/-- An article switch while a close is in progress takes the close step of the records it books, and leaves the UP ones to the sweep
(R17, R154): record 4 is tagged for shift 1, record 96 is not touched. -/
theorem test_switch_leaves_up_records :
    let s : State := modifySp 96 (fun r => { r with shiftBreaks := 2 }) { closing 1 mixed with
      doff := { lab.doff with state := .doffing }, del := { lab.del with armed := true, staged := some { art with id := 212 } } }
    let t := after (.doffComplete 1) s
    t.del.active.map Article.id = some 212 ∧ (t.sp 4).shiftTag = 1 ∧ (t.sp 4).bookedTo = some 1000 ∧
    (t.sp 96).shiftTag = 0 ∧ (t.sp 96).shiftBreaks = 2 := by decide +kernel

/-- Sixteen peers, stations 20 to 35. -/
def sixteen : List Peer :=
  (List.range 16).map (fun n => { station := 20 + n, phase := .claimed, urgency := .normal, wait := 0, heard := 90 })

theorem witness_peerView :
    let claims := fun (source code : Nat) (d : Doff) =>
      heads .doffClaim source (field 1 code ++ field 2 3 ++ field 2 0 ++ field 1 0) { lab with doff := d }
    let full : Doff := { lab.doff with view := sixteen }
    let claiming : Doff := { lab.doff with state := .claimed, firstClaim := some 90 }
    let granted : Doff := { lab.doff with
      state := .granted, firstClaim := some 100
      view := [{ station := 7, phase := .doffing, urgency := .normal, wait := 42, heard := 97 }] }
    (claims 30 2 lab.doff).works ∧ (claims 12 0 lab.doff).works ∧ (claims 12 0 lab.doff).cfg.station = 12 ∧
    (claims 40 0 full).works ∧ (full.view.all fun q => q.station != 40) = true ∧ 16 ≤ full.view.length ∧
    (claims 20 0 full).works ∧ (full.view.any fun q => q.station == 20) = true ∧
    (claims 30 1 { full with view := full.view.take 15 }).works ∧ (full.view.take 15).length < 16 ∧
    (heads .doffState 11 (field 1 1 ++ field 1 0 ++ field 2 3) { lab with doff := granted }).works ∧
    ((heads .doffState 11 (field 1 1 ++ field 1 0 ++ field 2 3) lab).line.rx.map fun r => r.tel.num 0 1) = [1] ∧
    (claims 30 0 claiming).works ∧ claiming.listenEnd = none ∧ (after .doffClaim (claims 30 0 claiming)).doff.state = .granted ∧
    (after .doffClaim (claims 30 1 { claiming with view := granted.view })).doff.state = .claimed :=
  ⟨⟨rfl, rfl⟩, ⟨rfl, rfl⟩, rfl, ⟨rfl, rfl⟩, by decide, by decide, ⟨rfl, rfl⟩, by decide, ⟨rfl, rfl⟩, by decide, ⟨rfl, rfl⟩,
    by decide +kernel, ⟨rfl, rfl⟩, rfl, by decide +kernel, by decide +kernel⟩

theorem witness_peersLeave :
    let one : Doff := { lab.doff with
      state := .claimed, firstClaim := some 90
      view := [{ station := 7, phase := .doffing, urgency := .normal, wait := 42, heard := 85 }] }
    let s : State := { lab with doff := one }
    let done := heads .doffDone 7 [] s
    s.works ∧ s.doff.listenEnd = none ∧ s.doff.view ≠ [] ∧ 1 ≤ s.cfg.slots ∧
    s.doff.view.filter (fun p => s.del.seconds < p.heard + 15) = [] ∧
    (atSecond 99 s).doff.view.filter (fun p => 99 < p.heard + 15) = s.doff.view ∧ done.works ∧
    (heads .doffWithdraw 8 [] s).works ∧ (heads .stationRestart 7 [] s).works ∧
    (after .doffDone done).doff.state = .granted ∧
    (let two : State := heads .doffDone 7 [] { s with doff := { one with
       state := .granted, view := one.view ++ [{ station := 9, phase := .doffing, urgency := .normal, wait := 1, heard := 99 },
         { station := 10, phase := .rundown, urgency := .normal, wait := 1, heard := 99 }] } }
     two.works ∧ two.doff.state = .granted ∧ (after .doffDone two).doff.state = .claimed) :=
  ⟨⟨rfl, rfl⟩, rfl, by decide, by decide, by decide, by decide, ⟨rfl, rfl⟩, ⟨rfl, rfl⟩, ⟨rfl, rfl⟩, by decide +kernel,
    ⟨rfl, rfl⟩, rfl, by decide +kernel⟩

/-! ### Witnesses: chapters 9 and 10 -/

theorem witness_shiftMarks :
    let marked := heads .shiftMark 9 (field 2 1) lab
    let busy := heads .shiftMark 9 (field 2 3) (closing 1 lab)
    lab.works ∧ lab.portOpen ∧ lab.shift.opened.number = 0 ∧ lab.shift.closing = none ∧ marked.works ∧
    (marked.line.rx.map fun r => r.tel.num 0 2) = [1] ∧ (1 : Nat) = (lab.shift.opened.number + 1) % 65536 ∧
    busy.works ∧ busy.shift.closing ≠ none ∧ busy.portOpen ∧ (3 : Nat) ≠ busy.shift.opened.number ∧
    (heads .shiftTotals 9 (List.replicate 16 0) lab).works :=
  ⟨lab_works, lab_open, rfl, rfl, ⟨rfl, rfl⟩, by decide +kernel, by decide, ⟨rfl, rfl⟩, by decide, ⟨rfl, rfl, rfl⟩, by decide,
    ⟨rfl, rfl⟩⟩

/-- Record 4 is booked to 900 and record 96 is UP, before the mark at count 950. -/
theorem witness_sweep :
    let s := closing 4 mixed
    let last : State := { closing 96 mixed with port := { mixed.port with executing := some (.closeShift 7) } }
    let g : Segment := Segment.opened (some (118, 1476)) 0
    s.works ∧ s.shift.closing.map (fun c => (c.shift.closedAt, c.shift.segments)) = some (some (90, 950), [] ++ [g]) ∧
    g.runStart = some 0 ∧ s.hasSpindle 4 = true ∧ (s.sp 4).shiftTag ≠ s.shift.opened.number ∧ 4 < s.mon.spindles.length ∧
    last.works ∧ last.hasSpindle 96 = true ∧ last.shift.closing.map Closing.sweep = some last.mon.spindles.length ∧
    last.shift.closing.map Closing.waiting = some true ∧ mixed.shift.closing = none ∧ mixed.works :=
  ⟨⟨rfl, rfl⟩, rfl, rfl, by decide +kernel, by decide +kernel, by decide +kernel, ⟨rfl, rfl⟩, by decide +kernel, by decide +kernel,
    rfl, rfl, ⟨rfl, rfl⟩⟩

/-- A DOFF_DONE of station 20 as it is sent, and what is left of it when it is cut, spoilt or trailed. -/
theorem witness_reception :
    let sent := fun (source dest : Nat) => ({ kind := .doffDone, source := source, dest := dest, payload := [] } : Telegram).bytes
    lab.works ∧ (sent 20 0).length = 6 ∧ judgeBytes (sent 20 0) = .good ∧ judgeBytes ((sent 20 0).take 5) = .framing ∧
    judgeBytes ((sent 20 0).take 3) = .framing ∧ judgeBytes ((sent 20 0).take 5 ++ [0#8]) = .badCheck ∧
    hasTrailing (sent 20 0 ++ [0#8]) false false = true ∧ hasTrailing (sent 20 0) false true = true ∧
    hasTrailing (sent 20 0) false false = false ∧ judgeBytes (sent 12 0) = .good ∧ judgeBytes (sent 20 13) = .good ∧
    telegramOf (sent 20 12) = some { kind := .doffDone, source := 20, dest := 12, payload := [] } ∧
    telegramOf [6#8, 20#8, 0#8, 0#8] = none ∧ lab.line.rx.length < 4 := by
  refine ⟨lab_works, ?_⟩
  decide +kernel

theorem witness_sentTelegram :
    let t : Telegram := { kind := .shiftTotals, source := 62, dest := 62, payload := List.replicate 16 255#8 }
    1 ≤ t.source ∧ t.source ≤ 62 ∧ t.dest ≤ 62 ∧ t.kind.lengthOk t.payload.length = true := by decide

/-- A line with `n` queued telegrams of class 2 to different stations. -/
def queuedLine (n : Nat) : Line :=
  { lab.line with
    nextJoin := n
    out := (List.range n).map (fun i =>
      { tel := { kind := .rovingDue, source := 12, dest := i, payload := [] }, collisions := 0, joined := i }) }

theorem witness_outgoingQueue :
    let mark : Telegram := { kind := .shiftMark, source := 12, dest := 0, payload := [] }
    let claim : Telegram := { kind := .doffClaim, source := 12, dest := 0, payload := [] }
    (queuedLine 8).out.length = 8 ∧ (queuedLine 8).out.Pairwise (fun a b => a.before b = true) ∧
    (∀ q ∈ (queuedLine 8).out, q.joined < (queuedLine 8).nextJoin) ∧
    (queuedLine 8).out.Pairwise (fun a b => a.tel.sameKey b.tel = false) ∧ ((queuedLine 8).out.map Outgoing.joined).Nodup ∧
    (∀ q ∈ (queuedLine 8).out, q.tel.sameKey mark = false) ∧ (∀ q ∈ (queuedLine 8).out, q.tel.kind.cls ≤ mark.kind.cls) ∧
    (∀ q ∈ (queuedLine 8).out, q.tel.sameKey claim = false ∧ claim.kind.cls < q.tel.kind.cls) ∧
    (queuedLine 7).out.length < 8 ∧ (∃ q ∈ (queuedLine 8).out, q.tel.sameKey { mark with kind := .rovingDue } = true) := by
  decide +kernel

theorem witness_line :
    let o := fun (n : Nat) => ({ tel := { kind := .doffState, source := 12, dest := 0, payload := [] }
                                 collisions := n, joined := 0 } : Outgoing)
    let waits : State := { lab with line := { lab.line with out := [o 0], idle := 15 } }
    let sends_ := fun (n : Nat) => ({ lab with line := { lab.line with sending := some (o n) } } : State)
    waits.works ∧ waits.line.sending = none ∧ gapOf waits.cfg.station (o 0) = 16 ∧ (sends_ 14).works ∧ (sends_ 15).works ∧
    (o 14).collisions < 15 ∧ 15 ≤ (o 15).collisions ∧ (wireBits (o 0).tel.bytes)[0]? = some false ∧
    (wireBits (o 0).tel.bytes)[59]? = some true ∧ 10 * (o 0).tel.bytes.length = 60 ∧ lab.line.sending = none ∧ lab.line.rx = [] ∧
    (heads .pieceCall 20 [] lab).works ∧ (atSecond 30 lab).line.lastHeard.getD lab.line.restartedAt + 30 ≤ 30 ∧
    (let s : State := { sends_ 14 with line := { (sends_ 14).line with out := (queuedLine 8).out } }
     s.works ∧ 8 ≤ s.line.out.length ∧ ∀ q ∈ s.line.out, q.tel.sameKey (o 14).tel = false) :=
  ⟨⟨rfl, rfl⟩, rfl, by decide, ⟨rfl, rfl⟩, ⟨rfl, rfl⟩, by decide, by decide, by decide +kernel, by decide +kernel,
    by decide +kernel, rfl, rfl, ⟨rfl, rfl⟩, by decide, ⟨rfl, rfl⟩, by decide +kernel, by decide +kernel⟩

/-- A DOFF_DONE of station 12 on the wire: byte 0 is 4, so its bits after the start bit are 0, 0, 1. The count was 16 at the gap: a
start bit read back recessive makes it 17; the recessive data bit 2 read back dominant returns it to 0; the start bit of the second
byte, read back recessive behind the stop bit of the first, leaves 2 (R161, R165). -/
theorem test_idle_after_a_collision :
    let o : Outgoing := { tel := { kind := .doffDone, source := 12, dest := 0, payload := [] }, collisions := 0, joined := 0 }
    let s : State := { lab with line := { lab.line with sending := some o, idle := 16 } }
    o.tel.bytes.head? = some 4#8 ∧
    [0, 3, 10].map (fun n => (after (.collision n) s).line.idle) = [17, 0, 2] ∧ after (.collision 60) s = s := by decide +kernel

/-- Its own telegram, sent to the end, is heard by no block; the same bytes once more come from another station of its number (R163,
R168). -/
theorem test_own_transmission_then_a_stranger :
    let o : Outgoing := { tel := { kind := .doffDone, source := 12, dest := 0, payload := [] }, collisions := 0, joined := 0 }
    let sent := after .telegramSent { lab with line := { lab.line with sending := some o } }
    let own := after (.telegramReceived o.tel.bytes false false) sent
    let other := after (.telegramReceived o.tel.bytes false false) own
    (own.frame.alerts, own.line.lastHeard) = ([], none) ∧
    other.frame.alerts.map (fun a => (a.code, a.subject)) = [(.duplicateStation, some 12)] ∧
    other.line.lastHeard = some 100 ∧ other.doff.dropped = 1 := by decide +kernel

theorem witness_lineRestart :
    let s : State := { ordering mixed with doff := { lab.doff with state := .granted, urgency := .full } }
    s.portOpen ∧ s.works ∧ (s.eng .a).state = .orderOut ∧ (s.eng .b).state = .idle ∧ s.cfg.joined ≠ 1 ∧
    (doffed fun d => { d with state := .claimed }).works ∧ (doffed fun d => { d with state := .rundown }).works ∧
    (engaged (fun e => { e with state := .calling }) lab).works ∧ s.tabled ∧ (s.eng .b).order = none :=
  ⟨⟨rfl, rfl, rfl⟩, ⟨rfl, rfl⟩, rfl, rfl, by decide, ⟨rfl, rfl⟩, ⟨rfl, rfl⟩, ⟨rfl, rfl⟩, tabled_of_check (by decide +kernel), rfl⟩

/-- What a line restart queues, in the order of class and joining (R129, R166, R170, R171). -/
theorem test_line_restart_announces :
    let s : State := engaged (fun e => { e with state := .calling }) { ordering mixed with
      doff := { lab.doff with state := .granted, firstClaim := some 90 }
      creel := { mixed.creel with dueList := [{ number := 4, minutes := 60 }] } }
    (after (.lineRestart 1) s).line.out.map (fun o => o.tel.kind) =
      [.stationRestart, .doffClaim, .pieceCall, .pieceCall, .rovingDue] := by decide +kernel

/-! ### Witnesses: chapter 11 -/

theorem witness_commandPort :
    let full : State := { lab with port := { lab.port with slot := some (.status, 7) } }
    let latched : State := { full with port := { full.port with latch := some .slotOverrun } }
    let runs : State := { full with port := { full.port with executing := some (.lineRestart 1) } }
    full.frame.resetLow = false ∧ full.port.slot ≠ none ∧ recordKind [1#8, 0#8, 9#8] ≠ some 6 ∧ lab.port.slot = none ∧
    readRecord [1#8, 0#8, 9#8] = some (.status, 9) ∧ readRecord [1#8, 1#8, 9#8] = none ∧ recordKind [6#8, 0#8, 9#8] = some 6 ∧
    readRecord [6#8, 0#8, 9#8] = some (.warmReset, 9) ∧ latched.port.latch ≠ none ∧ runs.port.executing ≠ none ∧
    latched.port.executing = none ∧ (0#8 : Byte) ≠ 1#8 ∧ (255#8 : Byte) ≠ 2#8 := by decide +kernel

/-- A transaction of STATUS_READ's first byte returns the status byte and takes nothing, by either row; a command write returns 0
behind it (R189). -/
theorem test_transactions :
    let read := after (.commandWrite [0#8, 1#8, 0#8]) lab
    let write := after (.commandWrite [1#8, 1#8, 0#8, 9#8]) lab
    (read.port.returned.head?, read.port.returned.length, read.port.slot) = (some 3#8, 3, none) ∧
    (after (.responseRead [0#8, 1#8, 0#8]) lab).port.returned.length = 3 ∧
    (write.port.returned, write.port.slot) = ([3#8, 0#8, 0#8, 0#8], some (.status, 9)) ∧
    after (.responseRead [1#8, 1#8, 0#8, 9#8]) lab = lab := by decide +kernel

theorem witness_heldAtPowerOn :
    let low : State := { lab with frame := { lab.frame with resetLow := true } }
    low.frame.resetLow = true ∧ Instr.deliveryPulse ≠ .powerOn ∧ rowNeedsRunning .escalation = true ∧
    (inReady lab).port.part ≠ .running ∧ commandNeedsRunning .holdSet = true ∧ inInit.port.part ≠ .running ∧
    (inReady lab).frame.resetLow = false ∧ (inReady lab).port.executing = none ∧ (inReady lab).port.latch = none := by
  decide +kernel

/-- Input 2 stands at its active level; the end of the bring-up of chapter 11. -/
theorem witness_holdsFaultsAndAlerts :
    let listed : State := { lab with frame := lab.frame.raised .faultInput .stop (some 2) 0 }
    let still : State := { lab with frame := { lab.frame with levels := [false, false, false, false] } }
    lab.portOpen ∧ lab.works ∧ listed.frame.alerts.map (fun a => (a.code.code, a.subject)) = [(18, some 2)] ∧
    lab.frame.alerts = [] ∧ lab.cfg.faults[2]? = some 10 ∧ lab.port.config ≠ none ∧
    (lab.frame.levels.getD 2 false != (10 % 2 == 1)) = true ∧ (still.frame.levels.getD 2 false != (10 % 2 == 1)) = false ∧
    lab.frame.levels.getD 2 false ≠ false ∧ lab.frame.levels.getD 3 false = false ∧ lab.cfg.faults[3]? = some 1 ∧
    inInit.port.config = none ∧ inInit.frame.levels.getD 2 false ≠ false :=
  ⟨lab_open, lab_works, by decide +kernel, rfl, rfl, by decide, by decide, by decide, by decide, by decide, rfl, rfl, by decide⟩

/-- A full list of 32 entries, its oldest a NOTE. -/
def fullList : Frame :=
  { lab.frame with
    alerts := { code := .lineQuiet, cls := .note, subject := none, raised := 1, repeats := 255 } ::
      (List.range 31).map (fun n => { code := .rogueSpindle, cls := .action, subject := some n, raised := 2, repeats := 1 }) }

theorem witness_alertList : fullList.listed ∧ fullList.alerts.length = 32 ∧ lab.frame.listed ∧
    lab.frame.alerts.length < 32 ∧ (∀ a ∈ fullList.alerts, ¬ (a.code = .endsDown ∧ a.subject = none)) ∧
    (∀ a ∈ fullList.alerts.tail, a.cls ≠ .note) := by
  refine ⟨⟨by decide, ?_, ?_⟩, by decide +kernel, ⟨by decide, List.nodup_nil, fun a h => absurd h List.not_mem_nil⟩, by decide,
    by decide +kernel, by decide +kernel⟩
  · decide +kernel
  · decide +kernel

/-- A peer in DOFFING is reported ahead whatever its wait (R138, R143). -/
theorem test_doffing_peer_reported_ahead :
    let p : Peer := { station := 40, phase := .doffing, urgency := .normal, wait := 0, heard := 100 }
    let s := doffed fun d => { d with state := .claimed, firstClaim := some 10 }
    (peerBytes s p).getLast? = some 1#8 ∧ (peerBytes s { p with phase := .claimed }).getLast? = some 0#8 := by decide +kernel

/-- Pulses taken in INIT are not reckoned into the shift that READ_SHIFT reports (R157). -/
theorem test_read_shift_before_configure :
    let s : State := { inInit with del := { inInit.del with count := 500 } }
    s.openReport.shift.segments.map Segment.runPulses = [0] ∧ s.openReport.shift.flags.noDelivery = true ∧
    lab.openReport.shift.segments.map Segment.runPulses = [1000] := by decide +kernel

theorem witness_reads : lab.portOpen ∧ inInit.portOpen ∧ lab.frame.resetLow = false ∧ lab.port.executing = none ∧
    (1 : Nat) ≤ 96 ∧ 96 ≤ lab.mon.spindles.length := ⟨lab_open, ⟨rfl, rfl, rfl⟩, rfl, rfl, by decide, by decide +kernel⟩

/-- READ_SPINDLE 96 answers 36 bytes, index first, and index 97 an ABSENT record (R40, R190). -/
theorem test_read_spindle :
    ((after (.readSpindle 3 96) lab).port.response.map fun r => (r.kind, r.tag, r.body.take 4)) =
      some (9, 3, [0#8, 96#8, 1#8, 255#8]) ∧
    ((after (.readSpindle 3 97) lab).port.response.map fun r => r.body) = some (List.replicate 36 255#8) := by decide +kernel

theorem witness_configure :
    inInit.portOpen ∧ inInit.port.part = .init ∧ lab.portOpen ∧ lab.port.part ≠ .init ∧ configurationInRange conf = true ∧
    configurationInRange { conf with slots := 7 } = false ∧ configurationInRange { conf with faults := [12, 0, 0, 0] } = false ∧
    configurationInRange { conf with downPercent := 45, upPercent := 50 } = true ∧ conf.faults[2]? = some 10 ∧
    inInit.frame.latches.length = 4 ∧ (inInit.frame.levels.getD 2 false != (10 % 2 == 1)) = true ∧
    inInit.frame.latches.getD 2 false = false :=
  ⟨⟨rfl, rfl, rfl⟩, rfl, lab_open, by decide, by decide +kernel, by decide +kernel, by decide +kernel, by decide +kernel, rfl, rfl,
    by decide, by decide⟩

/-- The bring-up of chapter 11: after CONFIGURE with input 2 of STOP class active the set is NOT_STARTED, FAULT_2 and ALERT_STOP,
and the part is READY; input 3, ACTIVE_LOW of NOTE class and low, is active too and only raises its alert. -/
theorem test_bring_up_configure :
    let t := after (.configure 1 conf) inInit
    t.port.part = .ready ∧ (HoldCause.all.filter t.frame.holds.has) = [.notStarted, .fault2, .alertStop] ∧
    t.frame.alerts.map (fun a => (a.code, a.cls, a.subject)) =
      [(.faultInput, .stop, some 2), (.faultInput, .note, some 3)] := by decide +kernel

theorem witness_start :
    let ready := inReady lab
    let bare : State := { inReady lab with del := { lab.del with active := none } }
    inInit.portOpen ∧ inInit.port.part = .init ∧ lab.portOpen ∧ lab.port.part = .running ∧ bare.portOpen ∧
    bare.port.part = .ready ∧ bare.del.active = none ∧ ready.portOpen ∧ ready.port.part = .ready ∧ ready.del.active ≠ none :=
  ⟨⟨rfl, rfl, rfl⟩, rfl, lab_open, rfl, ⟨rfl, rfl, rfl⟩, rfl, rfl, ⟨rfl, rfl, rfl⟩, rfl, by decide⟩

theorem witness_warmReset :
    let s : State := { exchanging mixed with
      doff := { lab.doff with state := .doffing }
      port := { lab.port with executing := some (.lineRestart 1), slot := some (.status, 2), unread := false } }
    s.frame.resetLow = false ∧ s.port.part ≠ .init ∧ inInit.frame.resetLow = false ∧ inInit.port.part = .init ∧
    s.hasSection 1 = true ∧ (s.sec 1).state = .exchanging ∧ s.hasSpindle 8 = true ∧ s.port.config ≠ none ∧
    s.cfg.faults[2]? = some 10 ∧ s.frame.latches.length = 4 ∧
    ((after (.warmReset 9) s).frame.alerts.map fun a => (a.code, a.subject)) =
      [(.exchangeUnknown, some 1), (.doffUnknown, none), (.faultInput, some 2), (.faultInput, some 3)] := by decide +kernel

/-- The response of a WARM_RESET replaces the one that the executing LINE_RESTART has just been given (R186). -/
theorem test_warm_reset_overwrites :
    let s : State := { lab with port := { lab.port with executing := some (.lineRestart 1), slot := some (.status, 2) } }
    let t := after (.warmReset 9) s
    t.port.response = some { kind := 6, tag := 9, result := .done, overwritten := true, alreadyOpen := false, body := [] } ∧
    t.port.slot = none ∧ t.port.discarded = 1 ∧ t.port.part = .ready := by decide +kernel

theorem witness_hostRecord : (Command.configure conf).fits = true ∧ (Command.faultAck 255).fits = true ∧
    (Command.ackAlert 255 65535).fits = true ∧ (255 : Nat) < 256 := by decide

end Sys2Proof.Tests
end

section
/-! PROOFS. The article commands of chapter 1 (R14). -/

namespace Sys2Proof.Machine

/-- A STAGE_ARTICLE row is the host row of its command. -/
theorem exec_stageArticle (tag : Nat) (a : Article) (s : State) :
    exec (.stageArticle tag a) s = hostRow (.stageArticle a) tag s := rfl

/-- The model's range check is section 1.6's table, field by field. -/
theorem articleInRange_iff (a : Article) :
    articleInRange a = true ↔
      (1 ≤ a.id ∧ a.id ≤ 65535) ∧ (100 ≤ a.tex ∧ a.tex ≤ 20000) ∧ (200 ≤ a.twist ∧ a.twist ≤ 2500) ∧
      (1000 ≤ a.draft ∧ a.draft ≤ 8000) ∧ (300 ≤ a.roving ∧ a.roving ≤ 6000) ∧
      (20 ≤ a.copMass ∧ a.copMass ≤ 150) := by
  simp [articleInRange, and_assoc]

theorem doStageArticle_inRange {a : Article} (h : articleInRange a = true) (s : State) :
    doStageArticle a s = Effect.done { s with del := { s.del with staged := some a, armed := false } } :=
  if_pos h

theorem doStageArticle_outOfRange {a : Article} (h : ¬ articleInRange a = true) (s : State) :
    doStageArticle a s = Effect.refuse .outOfRange s :=
  if_neg h

/-- With the port open, STAGE_ARTICLE completes with what `doStageArticle` does, in every part state. -/
theorem exec_stageArticle_open {s : State} (h : s.portOpen) (tag : Nat) (a : Article) :
    exec (.stageArticle tag a) s = .next (finish 3 tag (doStageArticle a s)) := by
  rw [exec_stageArticle, hostRow_open h]
  rfl

/-- Settles O5: the row comes down to `doStageArticle`, whose two outcomes are split by the range check. -/
theorem stageArticleTakesOrRefuses : Obligations.StageArticleTakesOrRefuses := by
  intro s tag a hopen
  rw [exec_stageArticle_open hopen]
  by_cases hrange : articleInRange a = true
  · rw [doStageArticle_inRange hrange, finish_done, if_pos ((articleInRange_iff a).mp hrange)]
  · rw [doStageArticle_outOfRange hrange, finish_refuse, if_neg (mt (articleInRange_iff a).mpr hrange)]

end Sys2Proof.Machine
end

section
/-! PROOFS. CLEAR_ROGUE (R58). -/

namespace Sys2Proof.Machine

/-! ### What the close step and booking leave of a record's mark, attempts and lazy flag -/

/-- The close step either is not due, or closes the record (R39, R153). -/
theorem touch_sp_cases {s : State} {i : Nat} (h : s.hasSpindle i = true) :
    (touch i s).sp i = s.sp i ∨ ∃ p tag, (touch i s).sp i = ((s.sp i).closed p tag).2 := by
  unfold touch
  split
  · split
    · exact .inl rfl
    · exact .inr ⟨_, _, sp_setSp_self _ _ _ (range_of_has h).1 (range_of_has h).2⟩
  · exact .inl rfl

theorem closed_marks (p tag : Nat) (r : Spindle) :
    (r.closed p tag).2.rogueMark = r.rogueMark ∧ (r.closed p tag).2.attempts = r.attempts ∧
    (r.closed p tag).2.lazy = r.lazy := by
  unfold Spindle.closed
  split
  · split <;> simp
  · simp

theorem touch_marks {s : State} {i : Nat} (h : s.hasSpindle i = true) :
    ((touch i s).sp i).rogueMark = (s.sp i).rogueMark ∧ ((touch i s).sp i).attempts = (s.sp i).attempts ∧
    ((touch i s).sp i).lazy = (s.sp i).lazy := by
  obtain e | ⟨p, tag, e⟩ := touch_sp_cases h
  · simp [e]
  · rw [e]
    exact closed_marks p tag _

/-- Booking, with the close step where one is due, leaves what R58 speaks of. -/
theorem book_marks {s : State} {i : Nat} (h : s.hasSpindle i = true) :
    ((book i s).sp i).rogueMark = (s.sp i).rogueMark ∧ ((book i s).sp i).attempts = (s.sp i).attempts ∧
    ((book i s).sp i).lazy = (s.sp i).lazy := by
  cases hb : ((touch i s).sp i).bookedTo with
  | none =>
    have hnone : (s.sp i).bookedTo = none := by simpa [hb] using (touch_booked i i s).symm
    simp [book_none hnone]
  | some b => simpa [book_sp_self h b hb] using touch_marks h

theorem bookEnter_unseen_marks {s : State} {i : Nat} (h : s.hasSpindle i = true) :
    ((bookEnter i .unseen s).sp i).rogueMark = (s.sp i).rogueMark ∧
    ((bookEnter i .unseen s).sp i).attempts = (s.sp i).attempts ∧
    ((bookEnter i .unseen s).sp i).lazy = (s.sp i).lazy := by
  have hb : (book i s).hasSpindle i = true := by simpa using h
  obtain ⟨hmark, hatt, hlazy⟩ := touch_marks hb
  obtain ⟨hmark', hatt', hlazy'⟩ := book_marks h
  rw [bookEnter, enter_sp_self hb]
  simp [moved_attempts, hmark, hatt, hlazy, hmark', hatt', hlazy']

/-! ### A move that neither queues nor counts -/

/-- A record that was and will be in no queue and no waiting set leaves both as they are (R46, R50). -/
theorem requeue_outside (i : Nat) {a b : SpState} (ha : a ≠ .queued ∧ a ≠ .waiting) (hb : b ≠ .queued ∧ b ≠ .waiting)
    (s : State) : requeue i a b s = s := by
  have hset : ∀ x, setSide x (s.side x) s = s := fun x => by cases x <;> rfl
  simpa [requeue, ha, hb] using hset _

/-- A ROGUE record that enters UNSEEN: no queue, no waiting set and no count of the ends down is concerned. -/
theorem enter_unseen_of_rogue {s : State} {i : Nat} (h : (s.sp i).state = .rogue) :
    enter i .unseen s = setSp i (((touch i s).sp i).moved .unseen s.now s.count) (touch i s) := by
  have ht : ((touch i s).sp i).state = .rogue := (touch_state i i s).trans h
  simp [enter, ht, SpState.counts, requeue_outside, State.now, State.count]

theorem bookEnter_unseen_of_rogue {s : State} {i : Nat} (h : (s.sp i).state = .rogue) :
    (bookEnter i .unseen s).pie = s.pie ∧ (bookEnter i .unseen s).frame = s.frame ∧
    (bookEnter i .unseen s).shift = (touch i (book i s)).shift := by
  rw [bookEnter, enter_unseen_of_rogue ((book_state i i s).trans h)]
  simp

/-! ### The mark cleared (R58) -/

/-- What CLEAR_ROGUE writes into the record itself. -/
def Spindle.unmarked (r : Spindle) : Spindle := { r with rogueMark := false, attempts := 0 }

theorem unmarkRogue_of_rogue {s : State} {i : Nat} (h : s.hasSpindle i = true) (hr : (s.sp i).state = .rogue) :
    unmarkRogue i s = bookEnter i .unseen (modifySp i Spindle.unmarked s) := by
  have hstate : ((modifySp i Spindle.unmarked s).sp i).state = .rogue := by rw [modifySp_sp_self h]; exact hr
  exact if_pos hstate

theorem unmarkRogue_of_other {s : State} {i : Nat} (h : s.hasSpindle i = true) (hr : (s.sp i).state ≠ .rogue) :
    unmarkRogue i s = modifySp i Spindle.unmarked s := by
  have hstate : ((modifySp i Spindle.unmarked s).sp i).state ≠ .rogue := by rw [modifySp_sp_self h]; exact hr
  exact if_neg hstate

theorem unmarkRogue_sp_ne {i j : Nat} (h : i ≠ j) (s : State) : (unmarkRogue i s).sp j = s.sp j := by
  unfold unmarkRogue
  dsimp only
  split
  · exact (bookEnter_sp_ne h _ _).trans (modifySp_sp_ne h _ _)
  · exact modifySp_sp_ne h _ _

/-- The mark and the attempts are cleared and the lazy flag stays, whether or not the record moves. -/
theorem unmarkRogue_marks {s : State} {i : Nat} (h : s.hasSpindle i = true) :
    ((unmarkRogue i s).sp i).rogueMark = false ∧ ((unmarkRogue i s).sp i).attempts = 0 ∧
    ((unmarkRogue i s).sp i).lazy = (s.sp i).lazy := by
  have hself := modifySp_sp_self h Spindle.unmarked
  by_cases hr : (s.sp i).state = .rogue
  · have hkept := bookEnter_unseen_marks (s := modifySp i Spindle.unmarked s) (i := i) (by simpa using h)
    rw [hself] at hkept
    rw [unmarkRogue_of_rogue h hr]
    exact hkept
  · rw [unmarkRogue_of_other h hr, hself]
    exact ⟨rfl, rfl, rfl⟩

/-- No queue, no alert and no hold is touched. -/
theorem unmarkRogue_pie_frame {s : State} {i : Nat} (h : s.hasSpindle i = true) :
    (unmarkRogue i s).pie = s.pie ∧ (unmarkRogue i s).frame = s.frame := by
  by_cases hr : (s.sp i).state = .rogue
  · obtain ⟨hpie, hframe, -⟩ := bookEnter_unseen_of_rogue (s := modifySp i Spindle.unmarked s) (i := i)
      (by rw [modifySp_sp_self h]; exact hr)
    simpa [unmarkRogue_of_rogue h hr] using And.intro hpie hframe
  · simp [unmarkRogue_of_other h hr]

/-- A ROGUE record goes to UNSEEN, booked up to the present count (R21, R58). -/
theorem unmarkRogue_unseen {s : State} {i : Nat} (h : s.hasSpindle i = true) (hr : (s.sp i).state = .rogue) :
    ((unmarkRogue i s).sp i).state = .unseen ∧ ((unmarkRogue i s).sp i).cause = none ∧
    ((unmarkRogue i s).sp i).downSince = none ∧ ((unmarkRogue i s).sp i).bookedTo = some s.del.count := by
  rw [unmarkRogue_of_rogue h hr, bookEnter, enter_sp_self (by simpa using h), moved_state, moved_cause, moved_downSince,
    moved_bookedTo]
  simp [SpState.cause, SpState.isDown, State.count]

/-- What booking does to the shift counter, with no close in progress (R22). -/
theorem book_shift {s : State} {i : Nat} (hc : s.shift.closing = none) :
    (book i s).shift = match (s.sp i).bookedTo with
      | none => s.shift
      | some b => { s.shift with opened := s.shift.opened.book (s.sp i).cause (s.count - b) } := by
  cases hb : (s.sp i).bookedTo with
  | none => rw [book_none hb]
  | some b => simp [book, bookOpen, touch_idle hc, hb]

/-- With no close in progress the booking reads neither the mark nor the attempts: it books what it would without the
clearing, and the cleared record stays so. -/
theorem book_unmarked {s : State} {i : Nat} (h : s.hasSpindle i = true) (hc : s.shift.closing = none) :
    (book i (modifySp i Spindle.unmarked s)).shift = (book i s).shift ∧
    (book i (modifySp i Spindle.unmarked s)).sp i = ((book i s).sp i).unmarked := by
  have hself := modifySp_sp_self h Spindle.unmarked
  have hc' : (modifySp i Spindle.unmarked s).shift.closing = none := by simpa using hc
  have h' : (modifySp i Spindle.unmarked s).hasSpindle i = true := by simpa using h
  rw [book_shift hc', book_shift hc, book_self h' hc', book_self h hc, hself]
  cases hb : (s.sp i).bookedTo with
  | none => simp [Spindle.unmarked, hb]
  | some b =>
    cases hcause : (s.sp i).cause <;> simp [Spindle.unmarked, Spindle.lose, hb, hcause, State.count]

/-- The losses of a ROGUE record are booked into the open shift and to its lost-since-base (R22, R58). -/
theorem unmarkRogue_booking {s : State} {i : Nat} (h : s.hasSpindle i = true) (hr : (s.sp i).state = .rogue)
    (hc : s.shift.closing = none) :
    (unmarkRogue i s).shift = (book i s).shift ∧
    ((unmarkRogue i s).sp i).lostSinceBase = ((book i s).sp i).lostSinceBase := by
  have hc' : (modifySp i Spindle.unmarked s).shift.closing = none := by simpa using hc
  obtain ⟨hshift, hrecord⟩ := book_unmarked h hc
  rw [unmarkRogue_of_rogue h hr]
  constructor
  · obtain ⟨-, -, hmoved⟩ := bookEnter_unseen_of_rogue (s := modifySp i Spindle.unmarked s) (i := i)
      (by rw [modifySp_sp_self h]; exact hr)
    rw [hmoved, touch_idle (book_closing i hc'), hshift]
  · rw [bookEnter_self (by simpa using h) hc', moved_lost, hrecord]
    rfl

theorem unmarkRogue_shiftBreaks {s : State} {i : Nat} (h : s.hasSpindle i = true) (hc : s.shift.closing = none) :
    ((unmarkRogue i s).sp i).shiftBreaks = (s.sp i).shiftBreaks := by
  by_cases hr : (s.sp i).state = .rogue
  · obtain ⟨-, -, hbreaks, -⟩ := book_fields h hc
    have hc' : (modifySp i Spindle.unmarked s).shift.closing = none := by simpa using hc
    rw [unmarkRogue_of_rogue h hr, bookEnter_self (by simpa using h) hc', moved_shiftBreaks, (book_unmarked h hc).2]
    exact hbreaks
  · rw [unmarkRogue_of_other h hr, modifySp_sp_self h]
    rfl

/-! ### The row -/

/-- A CLEAR_ROGUE row is the host row of its command. -/
theorem exec_clearRogue (tag i : Nat) (s : State) : exec (.clearRogue tag i) s = hostRow (.clearRogue i) tag s := rfl

/-- With the port open, CLEAR_ROGUE completes with what `doClearRogue` does. -/
theorem exec_clearRogue_open {s : State} (h : s.portOpen) (tag i : Nat) :
    exec (.clearRogue tag i) s = .next (finish 26 tag (doClearRogue i s)) := by
  rw [exec_clearRogue, hostRow_open h]
  rfl

theorem doClearRogue_notRunning {s : State} (h : s.port.part ≠ .running) (i : Nat) :
    doClearRogue i s = Effect.refuse .notRunning s :=
  whileRunning_idle (by simpa [State.running] using h) _

/-- In RUNNING the two refusals come in the order of R58. -/
theorem doClearRogue_running {s : State} (h : s.port.part = .running) (i : Nat) :
    doClearRogue i s =
      if s.hasSpindle i = false then Effect.refuse .noSuch s
      else if (s.sp i).rogueMark = true then Effect.done (unmarkRogue i s)
      else Effect.refuse .notRogue s := by
  simp [doClearRogue, whileRunning_works (show s.running = true by simp [State.running, h])]

/-- An accepted CLEAR_ROGUE changes the spindle table, the shift counter and the port alone. -/
theorem unmarkRogue_onlyIn {s : State} {i : Nat} (h : s.hasSpindle i = true) (p : Port) :
    onlyIn [.mon, .shift, .port] s { unmarkRogue i s with port := p } := by
  obtain ⟨hpie, hframe⟩ := unmarkRogue_pie_frame h
  obtain ⟨hdel, hcreel, hdoff, hline, -, hdraws, hpending⟩ := unmarkRogue_frame i s
  refine ⟨hpending, fun b hb => ?_⟩
  cases b with
  | del => exact hdel
  | pie => exact hpie
  | creel => exact hcreel
  | doff => exact hdoff
  | line => exact hline
  | frame => exact hframe
  | draws => exact hdraws
  | mon | shift | port => simp at hb

/-- Settles O19: the refusals by the branches of `doClearRogue`, the accepted command by what `unmarkRogue` does to a ROGUE
record and to any other. -/
theorem clearRogueRefusesOrClears : Obligations.ClearRogueRefusesOrClears := by
  intro s tag i hopen
  rw [exec_clearRogue_open hopen]
  refine ⟨fun hpart => ?_, fun hpart hno => ?_, fun hpart hi hmark => ?_, fun hpart hi hmark => ?_⟩
  · rw [doClearRogue_notRunning hpart, finish_refuse]
  · rw [doClearRogue_running hpart, if_pos hno, finish_refuse]
  · rw [doClearRogue_running hpart, if_neg (by simp [hi]), if_neg (by simp [hmark]), finish_refuse]
  · rw [doClearRogue_running hpart, if_neg (by simp [hi]), if_pos hmark, finish_done]
    obtain ⟨hcleared, hattempts, hlazy⟩ := unmarkRogue_marks hi
    refine ⟨_, rfl, unmarkRogue_onlyIn hi _, ?port, hcleared, hattempts, hlazy,
      fun j hj => unmarkRogue_sp_ne hj.symm s, unmarkRogue_shiftBreaks hi, fun hr => ?rogue, fun hr => ?other⟩
    case port => simp
    case rogue =>
      obtain ⟨hstate, hcause, hdown, hbooked⟩ := unmarkRogue_unseen hi hr
      exact ⟨hstate, hcause, hdown, hbooked, unmarkRogue_booking hi hr⟩
    case other =>
      rw [unmarkRogue_of_other hi hr]
      exact ⟨modifySp_sp_self hi _, by simp⟩

end Sys2Proof.Machine
end

section
/-! PROOFS. The queue of commands (00_scope.md): every row answers a next state and leaves the queue of waiting commands alone. -/

namespace Sys2Proof.Machine

/-! ### The shape of a row's answer -/

/-- An answer is a next state with a property. -/
def Answers (P : State → Prop) (a : Answer) : Prop := ∃ t, a = .next t ∧ P t

theorem answers_next {P : State → Prop} {t : State} (h : P t) : Answers P (.next t) := ⟨t, rfl, h⟩

theorem Answers.of_next {P : State → Prop} {a : Answer} {t : State} (h : Answers P a) (ha : a = .next t) : P t := by
  obtain ⟨u, hu, hP⟩ := h
  cases hu.symm.trans ha
  exact hP

/-- An event of a powered part answers a kept property where the event keeps it (R174). -/
theorem answers_powered {P : State → Prop} {s s' : State} (hs : P s) (h : P s') : Answers P (powered s s') := by
  refine ⟨_, rfl, ?_⟩
  split
  · exact hs
  · exact h

/-- An event of a part in RUNNING keeps what it keeps there. -/
theorem answers_inRunning {P : State → Prop} {s s' : State} (hs : P s) (h : s.running = true → P s') :
    Answers P (inRunning s s') := by
  refine answers_powered hs ?_
  split
  · exact h ‹_›
  · exact hs

/-- A host command's row keeps what the command keeps: of the port it may move the count of the discarded and the response. -/
theorem answers_hostRow {P : State → Prop} {s : State} (hs : P s)
    (hport : ∀ n, P { s with port := { s.port with discarded := n } }) {c : Command} {tag : Nat}
    (h : P (runCommand c tag s)) : Answers P (hostRow c tag s) := by
  refine answers_powered hs ?_
  split
  · exact hs
  · unfold leaveSlot
    split
    · exact hport _
    · exact h

/-! ### The queue of waiting commands -/

@[simp] theorem whileRunning_state (s : State) (e : Effect) :
    (whileRunning s e).state = if s.running = true then e.state else s := by
  unfold whileRunning
  split <;> rfl

theorem finish_pending (kind tag : Nat) (e : Effect) : (finish kind tag e).pending = e.state.pending := by
  unfold finish
  split <;> simp

theorem perform_pending (c : Command) (tag : Nat) (s : State) : (perform c tag s).state.pending = s.pending := by
  cases c <;>
    simp only [perform, doConfigure, doStageArticle, doArmArticle, doStart, doWarmReset, doLineRestart, doClearFault,
      doAckAlert, doReadLine, doSetLockout, doClearLockout, doPinLockout, doClearRogue, doCreelConfirm, doDoffRequest,
      doDoffComplete, doDoffAbandon, doCloseShift, doHoldSet, doHoldClear, doFaultAck, whileRunning_state,
      Effect.done, Effect.refuse, Effect.report] <;>
    (repeat' split) <;> simp

theorem runCommand_pending (c : Command) (tag : Nat) (s : State) : (runCommand c tag s).pending = s.pending := by
  rw [runCommand, finish_pending, perform_pending]

theorem leaveSlot_pending (c : Command) (tag : Nat) (s : State) : (leaveSlot c tag s).pending = s.pending := by
  unfold leaveSlot
  split
  · rfl
  · exact runCommand_pending c tag s

theorem takeRecord_pending (bs : List Byte) (s : State) : (takeRecord bs s).pending = s.pending := by
  unfold takeRecord
  repeat' split
  · simp
  · simp
  · exact runCommand_pending _ _ _
  · rfl

theorem dispatch_pending (s : State) : (dispatch s).pending = s.pending := by
  unfold dispatch
  split
  · exact leaveSlot_pending _ _ _
  · rfl

theorem hostRow_pending (c : Command) (tag : Nat) (s : State) :
    Answers (fun t => t.pending = s.pending) (hostRow c tag s) :=
  answers_hostRow (P := fun t => t.pending = s.pending) rfl (fun _ => rfl) (runCommand_pending c tag s)

theorem stripRead_pending (reply : Option (List Nat)) (s : State) :
    Answers (fun t => t.pending = s.pending) (execStripRead reply s) := by
  refine answers_inRunning rfl fun _ => ?_
  cases s.mon.rotation with
  | none => rfl
  | some rot => cases reply <;> simp

theorem exec_pending (c : Instr) (s : State) : Answers (fun t => t.pending = s.pending) (exec c s) := by
  cases c with
  | powerOn | resetNLow => exact answers_next rfl
  | maintChange level => exact answers_next (by split <;> simp)
  | runChange active => exact answers_next (by split <;> simp)
  | faultInput n high => exact answers_next (by split <;> simp)
  | deliveryPulse => exact answers_powered rfl (by simp)
  | deviceSecond => exact answers_powered rfl (by simp)
  | commandDispatch => exact answers_powered rfl (dispatch_pending s)
  | commandWrite bytes =>
    refine answers_powered rfl ?_
    split
    · rfl
    · split
      · exact takeRecord_pending _ _
      · simp
      · rfl
  | responseRead bytes =>
    refine answers_powered rfl ?_
    split
    · rfl
    · split <;> simp
  | warmReset tag => exact answers_powered rfl (runCommand_pending _ _ _)
  | status | configure | stageArticle | armArticle | start | lineRestart | clearFault | readSpindle | readStrip
  | readQueue | readEngagement | readSection | readBookings | readDoff | readPeers | readShift | readReport | readAlert
  | ackAlert | readLine | readInputs | setLockout | clearLockout | pinLockout | clearRogue | creelConfirm | doffRequest
  | doffComplete | doffAbandon | closeShift | holdSet | holdClear | faultAck => exact hostRow_pending _ _ s
  | stripRead reply => exact stripRead_pending reply s
  | collision bit =>
    refine answers_inRunning rfl fun _ => ?_
    split
    · dsimp only
      split <;> simp
    · rfl
  | rateBucketClose | escalation | piecingHold | pieceCallRepeat | sinceCallLimit | arrivalTimeout | orderTimeout
  | barEnd | bookingLapse | exchangeTimeout | announcementCount | recompute | listenEnd | confirmEnd | doffTimer
  | settleWindowEnd | nextAnnouncement | peerSilence | lineQuiet | sweepStep | telegramReceived | lineGained
  | telegramSent | telegramPassedOver | robotOffer | robotArrived | workResult | robotWithdraw | stationRestartPiecing
  | stationRestartCreel | stationRestartDoff | carrierBooking | exchangeBegin | exchangeEnd | bookingDone | doffClaim
  | doffState | doffDone | doffWithdraw | shiftMark | shiftTotals =>
    refine answers_inRunning rfl fun _ => ?_
    (repeat' split) <;> simp

/-- Settles O1: the step's second branch. -/
theorem stepRunsFrontCommand : Obligations.StepRunsFrontCommand := fun _ _ _ => rfl

/-- Settles O2, row by row. -/
theorem everyCommandAnswers : Obligations.EveryCommandAnswers := exec_pending

end Sys2Proof.Machine
end

section
/-! PROOFS. The tables are kept by every step (section 2.1, R21, R34, R42, R46, R100): every command's effect keeps them, and so does
every row. -/

namespace Sys2Proof.Machine

/-! ### Host commands -/

/-- Before CONFIGURE the spindle table is empty, so no count is above its limit. -/
theorem aboveLimit_of_noConfig {s : State} (h : s.tabled) (hc : s.port.config = none) : s.mon.aboveLimit = false := by
  obtain ⟨hsized, -, -, hflag⟩ := h
  unfold State.sized at hsized
  rw [hc] at hsized
  simp [hflag, State.endsDown, hsized.1]

/-- A staged part in INIT holds no configuration (R184). -/
theorem noConfig_of_init {s : State} (h : s.staged) (hi : s.port.part = .init) : s.port.config = none := by
  obtain ⟨hconfig, -⟩ := h
  simpa [hi] using hconfig

/-- The tables ask of the port its configuration alone. -/
theorem tabled_of_config {s t : State} (hm : t.mon = s.mon) (hp : t.pie = s.pie) (hc : t.creel = s.creel)
    (ho : t.port.config = s.port.config) (hs : s.tabled) : t.tabled := by
  have hside : ∀ x, t.side x = s.side x := fun x => by cases x <;> simp [State.side, hp]
  exact SameTables.tabled ⟨by rw [hm], by rw [hm], by rw [hm], by rw [hc], fun x => by rw [hside], fun x => by rw [hside], ho⟩
    hs

theorem tabled_port {s : State} (hs : s.tabled) {p : Port} (h : p.config = s.port.config) :
    ({ s with port := p } : State).tabled := tabled_of_config (s := s) rfl rfl rfl h hs

theorem tabled_whileRunning {s : State} {e : Effect} (hs : s.tabled) (h : e.state.tabled) :
    (whileRunning s e).state.tabled := by
  rw [whileRunning_state]
  split
  · exact h
  · exact hs

theorem tabled_doConfigure {s : State} (hst : s.staged) (hs : s.tabled) (c : Configuration) :
    (doConfigure c s).state.tabled := by
  cases hp : s.port.part with
  | init =>
    simp only [doConfigure, hp]
    split
    · exact tabled_configured (aboveLimit_of_noConfig hs (noConfig_of_init hst hp)) c
    · exact hs
  | ready | running =>
    simp only [doConfigure, hp]
    exact hs

theorem tabled_doArmArticle {s : State} (hs : s.tabled) : (doArmArticle s).state.tabled := by
  unfold doArmArticle
  split
  · exact hs
  · split
    · exact tabled_of_blocks rfl rfl rfl rfl hs
    · exact tabled_of_blocks (by simp [Effect.done]) (by simp [Effect.done]) (by simp [Effect.done]) (by simp [Effect.done]) hs

theorem tabled_doCloseShift {s : State} (hs : s.tabled) (tag number : Nat) :
    (doCloseShift tag number s).state.tabled := by
  refine tabled_whileRunning hs ?_
  split
  · exact hs
  · split
    · exact hs
    · exact tabled_port (tabled_enqueue (tabled_beginClose hs _ _) _ _ _) rfl

theorem tabled_doAckAlert {s : State} (hs : s.tabled) (code subject : Nat) : (doAckAlert code subject s).state.tabled := by
  refine tabled_whileRunning hs ?_
  split
  · split
    · exact tabled_of_blocks rfl rfl rfl rfl hs
    · exact hs
  · exact hs

theorem tabled_doFaultAck {s : State} (hs : s.tabled) (n : Nat) : (doFaultAck n s).state.tabled := by
  refine tabled_whileRunning hs ?_
  split
  · exact hs
  · split
    · split
      · exact hs
      · exact tabled_of_blocks (by simp [Effect.done]) (by simp [Effect.done]) (by simp [Effect.done])
          (by simp [Effect.done]) hs
    · exact hs

theorem tabled_claim {s : State} (hs : s.tabled) (manual : Bool) : (claim manual s).tabled :=
  tabled_of_blocks (by simp) (by simp) (by simp) (by simp) hs

/-- Whatever a host command does, the tables are kept; CONFIGURE alone asks that a part in INIT holds no configuration. -/
theorem tabled_perform {s : State} (hst : s.staged) (hs : s.tabled) (c : Command) (tag : Nat) :
    (perform c tag s).state.tabled := by
  cases c with
  | status | readSpindle | readStrip | readQueue | readEngagement | readSection | readBookings | readDoff | readPeers
  | readShift | readReport | readAlert | readInputs => exact hs
  | readLine | clearFault => exact tabled_of_config rfl rfl rfl rfl hs
  | configure c => exact tabled_doConfigure hst hs c
  | stageArticle a =>
    simp only [perform, doStageArticle]
    split
    · exact tabled_of_blocks rfl rfl rfl rfl hs
    · exact hs
  | armArticle => exact tabled_doArmArticle hs
  | start =>
    simp only [perform, doStart]
    repeat' split
    · exact hs
    · exact hs
    · exact tabled_started hs
    · exact hs
  | warmReset =>
    simp only [perform, doWarmReset]
    split
    · exact hs
    · exact tabled_warmReset hs
    · exact tabled_warmReset hs
  | lineRestart => exact tabled_whileRunning hs (tabled_port (tabled_lineRestart hs) rfl)
  | ackAlert code subject => exact tabled_doAckAlert hs code subject
  | setLockout lower upper invert =>
    refine tabled_whileRunning hs ?_
    repeat' split
    · exact hs
    · exact hs
    · exact hs
    · exact tabled_applyRange hs _
  | clearLockout =>
    refine tabled_whileRunning hs ?_
    repeat' split
    · exact hs
    · exact tabled_applyRange hs _
    · exact hs
  | pinLockout => exact tabled_whileRunning hs (SameTables.tabled ⟨rfl, rfl, rfl, rfl, fun _ => rfl, fun _ => rfl, rfl⟩ hs)
  | clearRogue i =>
    refine tabled_whileRunning hs ?_
    repeat' split
    · exact hs
    · exact tabled_unmarkRogue hs i
    · exact hs
  | creelConfirm k outcome =>
    refine tabled_whileRunning hs ?_
    repeat' split
    · exact hs
    · exact hs
    · exact hs
    · exact tabled_endLoaded hs k
    · exact hs
    · exact tabled_endNotLoaded hs k
  | doffRequest =>
    refine tabled_whileRunning hs ?_
    repeat' split
    · exact tabled_claim hs true
    all_goals exact tabled_of_blocks rfl rfl rfl rfl hs
  | doffComplete =>
    refine tabled_whileRunning hs ?_
    split
    · exact tabled_completeDoff hs
    · exact tabled_completeDoff hs
    all_goals exact hs
  | doffAbandon =>
    refine tabled_whileRunning hs ?_
    split
    · exact tabled_abandon hs
    · exact tabled_abandon hs
    · exact tabled_abandon hs
    · exact tabled_abandon hs
    · exact tabled_resumeEngagements (tabled_abandon hs)
    all_goals exact hs
  | closeShift number => exact tabled_doCloseShift hs tag number
  | holdSet | holdClear => exact tabled_whileRunning hs (tabled_of_blocks rfl rfl rfl rfl hs)
  | faultAck n => exact tabled_doFaultAck hs n

theorem tabled_runCommand {s : State} (hst : s.staged) (hs : s.tabled) (c : Command) (tag : Nat) :
    (runCommand c tag s).tabled := by
  unfold runCommand finish
  split
  · exact tabled_respond (tabled_perform hst hs c tag) _ _ _ _ _
  · exact tabled_perform hst hs c tag

theorem tabled_hostRow {s : State} (hst : s.staged) (hs : s.tabled) (c : Command) (tag : Nat) :
    Answers State.tabled (hostRow c tag s) :=
  answers_hostRow hs (fun _ => tabled_port hs rfl) (tabled_runCommand hst hs c tag)

/-! ### The transactions and the dispatch -/

/-- Being staged asks of the port its configuration and part state, and of the frame interface NOT_STARTED. -/
theorem staged_of_same {s t : State} (hc : t.port.config = s.port.config) (hp : t.port.part = s.port.part)
    (hn : t.frame.holds.notStarted = s.frame.holds.notStarted) (hst : s.staged) : t.staged := by
  unfold State.staged at *
  rwa [hc, hp, hn]

theorem tabled_takeRecord {s : State} (hst : s.staged) (hs : s.tabled) (bs : List Byte) : (takeRecord bs s).tabled := by
  have hlatch : ∀ c, (latchFault c s).tabled := fun c => by
    unfold latchFault
    split <;> exact tabled_port hs rfl
  unfold takeRecord
  repeat' split
  · exact hlatch _
  · exact hlatch _
  · exact tabled_runCommand hst hs _ _
  · exact tabled_port hs rfl

theorem tabled_writeRecord {s : State} (hst : s.staged) (hs : s.tabled) (bs : List Byte) : (writeRecord bs s).tabled :=
  tabled_takeRecord (s := { s with port := { s.port with returned := statusByte s :: List.replicate bs.length 0 } })
    (staged_of_same (s := s) rfl rfl rfl hst) (tabled_port hs rfl) bs

theorem tabled_dispatch {s : State} (hst : s.staged) (hs : s.tabled) : (dispatch s).tabled := by
  unfold dispatch
  split
  · unfold leaveSlot
    split
    · exact tabled_port hs rfl
    · exact tabled_runCommand (s := { s with port := { s.port with slot := none } })
        (staged_of_same (s := s) rfl rfl rfl hst) (tabled_port hs rfl) _ _
  · exact hs

/-! ### Rows that move a part of the tables without an operation of their own -/

theorem held_fields (now : Nat) (r : Spindle) :
    (r.held now).state = r.state ∧ (r.held now).cause = r.cause ∧ (r.held now).bookedTo = r.bookedTo ∧
    (r.held now).downSince = r.downSince := by
  unfold Spindle.held
  split
  · split <;> simp
  · simp

/-- A change of the records that leaves the state and the optional fields of each one keeps the tables. -/
theorem tabled_mapSpindles {s : State} (hs : s.tabled) (f : Spindle → Spindle)
    (hf : ∀ r, (f r).state = r.state ∧ (f r).cause = r.cause ∧ (f r).bookedTo = r.bookedTo ∧ (f r).downSince = r.downSince)
    (hblank : f Spindle.blank = Spindle.blank) :
    ({ s with mon := { s.mon with spindles := s.mon.spindles.map f } } : State).tabled := by
  obtain ⟨hsized, hsound, hqueued, hflag⟩ := hs
  have hnth : ∀ (l : List Spindle) n, nth Spindle.blank (l.map f) n = f (nth Spindle.blank l n) := fun l n => by
    cases n with
    | zero => exact hblank.symm
    | succ n =>
      simp only [nth, List.getD_eq_getElem?_getD, List.getElem?_map]
      cases l[n]? with
      | none => exact hblank.symm
      | some r => rfl
  have hsp : ∀ i, ({ s with mon := { s.mon with spindles := s.mon.spindles.map f } } : State).sp i = f (s.sp i) :=
    hnth s.mon.spindles
  have hhas : ∀ i, ({ s with mon := { s.mon with spindles := s.mon.spindles.map f } } : State).hasSpindle i =
      s.hasSpindle i := fun i => by simp [State.hasSpindle]
  have hcount : ({ s with mon := { s.mon with spindles := s.mon.spindles.map f } } : State).endsDown = s.endsDown := by
    simp only [State.endsDown, List.countP_map]
    exact List.countP_congr fun r _ => by simp [(hf r).1]
  refine ⟨?sizes, ?records, fun x => ?queues, ?flag⟩
  case sizes =>
    unfold State.sized at *
    simpa using hsized
  case records =>
    intro r hr
    obtain ⟨r0, hr0, rfl⟩ := List.mem_map.mp hr
    obtain ⟨hstate, hcause, hbooked, hdown⟩ := hf r0
    unfold Spindle.sound
    rw [hstate, hcause, hbooked, hdown]
    exact hsound r0 hr0
  case queues =>
    obtain ⟨hsorted, hlength, hnodup, hq, hw⟩ := hqueued x
    refine ⟨hsorted, hlength, hnodup, fun i => ?_, fun i => ?_⟩
    · rw [hhas, hsp, (hf _).1]
      exact hq i
    · rw [hhas, hsp, (hf _).1]
      exact hw i
  case flag =>
    rw [hcount]
    exact hflag

theorem tabled_escalation {s : State} (hs : s.tabled) : Answers State.tabled (execEscalation s) := by
  refine answers_inRunning hs fun _ => ?_
  have hmap : ∀ q, (s.escalated q).map QueueEntry.index = q.map QueueEntry.index := fun q => by
    simp only [State.escalated, List.map_map]
    refine List.map_congr_left fun e _ => ?_
    simp only [Function.comp]
    split <;> rfl
  refine tabled_pie (s := s) rfl rfl rfl (fun x => ?_) (fun x => ?_) hs
  · cases x <;> exact hmap _
  · cases x <;> rfl

theorem tabled_piecingHold {s : State} (hs : s.tabled) : Answers State.tabled (execPiecingHold s) :=
  answers_inRunning hs fun _ => tabled_mapSpindles hs _ (held_fields _) rfl

theorem tabled_stripRead {s : State} (hs : s.tabled) (reply : Option (List Nat)) :
    Answers State.tabled (execStripRead reply s) := by
  refine answers_inRunning hs fun _ => ?_
  split
  · exact hs
  · refine tabled_setRotation ?_ _
    split
    · exact tabled_goodReply hs _ _
    · exact tabled_missedReply hs _

theorem tabled_takeSecond {s : State} (hs : s.tabled) : (takeSecond s).tabled := by
  have htick : ({ s with del := s.del.tick } : State).tabled := tabled_of_blocks rfl rfl rfl rfl hs
  unfold takeSecond
  dsimp only
  split
  · exact tabled_runningSecond htick
  · exact htick

/-! ### The hall line -/

@[simp] theorem completeRestart_staged (n : Nat) (s : State) :
    (completeRestart n s).port.config = s.port.config ∧ (completeRestart n s).port.part = s.port.part := by
  unfold completeRestart
  split <;> simp [respond]

@[simp] theorem completeClose_staged (n : Nat) (s : State) :
    (completeClose n s).port.config = s.port.config ∧ (completeClose n s).port.part = s.port.part := by
  unfold completeClose
  split <;> simp [respond]

@[simp] theorem endOfRestart_staged (o : Outgoing) (n : Nat) (s : State) :
    (endOfRestart o n s).port.config = s.port.config ∧ (endOfRestart o n s).port.part = s.port.part := by
  unfold endOfRestart
  split <;> simp

@[simp] theorem collide_staged (o : Outgoing) (s : State) :
    (collide o s).port.config = s.port.config ∧ (collide o s).port.part = s.port.part := by
  unfold collide
  dsimp only
  split <;> simp [countLine]

@[simp] theorem sentWhole_staged (o : Outgoing) (s : State) :
    (sentWhole o s).port.config = s.port.config ∧ (sentWhole o s).port.part = s.port.part := by
  unfold sentWhole
  simp [countLine]

theorem tabled_line {s : State} (hs : s.tabled) (l : Line) : ({ s with line := l } : State).tabled :=
  tabled_of_blocks (s := s) rfl rfl rfl rfl hs

theorem tabled_handOver {s : State} (hs : s.tabled) (k : Kind) (take : Telegram → State → State)
    (h : ∀ {u : State}, u.tabled → ∀ t, (take t u).tabled) : Answers State.tabled (inRunning s (handOver k take s)) := by
  refine answers_inRunning hs fun _ => ?_
  unfold handOver
  repeat' split
  · exact h (tabled_line hs _) _
  · exact hs
  · exact hs

theorem tabled_takeRestart {s : State} (hs : s.tabled) (taken : Received → Bool) (mark : Received → Received)
    (take : Nat → State → State) (h : ∀ {u : State}, u.tabled → ∀ n, (take n u).tabled) :
    Answers State.tabled (inRunning s (takeRestart taken mark take s)) := by
  refine answers_inRunning hs fun _ => ?_
  unfold takeRestart
  split
  · dsimp only
    split
    · exact h (tabled_line hs _) _
    · exact hs
  · exact hs

theorem tabled_peerGone {s : State} (hs : s.tabled) (n : Nat) : (peerGone n s).tabled :=
  tabled_of_blocks (by simp) (by simp) (by simp) (by simp) hs

/-- An event in RUNNING that leaves the spindle monitor, the piecing engine, the creel unit and the configuration alone. -/
theorem tabled_beside_row {s s' : State} (hs : s.tabled) (hm : s'.mon = s.mon) (hp : s'.pie = s.pie)
    (hc : s'.creel = s.creel) (ho : s'.port.config = s.port.config) : Answers State.tabled (inRunning s s') :=
  answers_inRunning hs fun _ => tabled_of_config hm hp hc ho hs

/-! ### Every row -/

/-- A row keeps the tables of a staged state. -/
theorem tabled_exec {s : State} (hst : s.staged) (hs : s.tabled) (c : Instr) : Answers State.tabled (exec c s) := by
  cases c with
  | powerOn | resetNLow => exact answers_next (tabled_powerOn _ s)
  | deliveryPulse => exact answers_powered hs (tabled_of_blocks (by simp) (by simp) (by simp) (by simp) hs)
  | deviceSecond => exact answers_powered hs (tabled_takeSecond hs)
  | stripRead reply => exact tabled_stripRead hs reply
  | escalation => exact tabled_escalation hs
  | piecingHold => exact tabled_piecingHold hs
  | maintChange level =>
    refine answers_next ?_
    split
    · exact tabled_of_blocks rfl rfl rfl rfl hs
    · exact tabled_takeMaint hs level
  | runChange active =>
    refine answers_next ?_
    split
    · exact tabled_of_blocks rfl rfl rfl rfl hs
    · exact tabled_takeRun hs active
  | faultInput n high =>
    refine answers_next ?_
    split
    · exact tabled_of_blocks rfl rfl rfl rfl hs
    · exact tabled_of_blocks (by simp) (by simp) (by simp) (by simp) hs
  | commandDispatch => exact answers_powered hs (tabled_dispatch hst hs)
  | commandWrite bytes =>
    refine answers_powered hs ?_
    repeat' split
    · exact hs
    · exact tabled_writeRecord hst hs _
    · exact tabled_of_config rfl rfl rfl rfl hs
    · exact hs
  | responseRead bytes =>
    refine answers_powered hs ?_
    repeat' split
    · exact hs
    · exact tabled_port hs rfl
    · exact tabled_of_config rfl rfl rfl rfl hs
    · exact hs
  | warmReset tag => exact answers_powered hs (tabled_runCommand hst hs _ _)
  | status | configure | stageArticle | armArticle | start | lineRestart | clearFault | readSpindle | readStrip
  | readQueue | readEngagement | readSection | readBookings | readDoff | readPeers | readShift | readReport | readAlert
  | ackAlert | readLine | readInputs | setLockout | clearLockout | pinLockout | clearRogue | creelConfirm | doffRequest
  | doffComplete | doffAbandon | closeShift | holdSet | holdClear | faultAck => exact tabled_hostRow hst hs _ _
  | pieceCallRepeat x =>
    refine answers_inRunning hs fun _ => ?_
    split
    · exact tabled_setEng (tabled_pieceCall hs x) _ _
    · exact hs
  | sinceCallLimit x =>
    refine answers_inRunning hs fun _ => ?_
    split
    · exact tabled_raiseAlert (tabled_setEng hs _ _) _ _ _
    · exact hs
  | arrivalTimeout x =>
    refine answers_inRunning hs fun _ => ?_
    split
    · exact tabled_callOrIdle (tabled_sendRelease hs x) x
    · exact hs
  | orderTimeout x =>
    refine answers_inRunning hs fun _ => ?_
    repeat' split
    · exact tabled_orderTimedOut hs _ _
    · exact hs
    · exact hs
  | barEnd x =>
    refine answers_inRunning hs fun _ => ?_
    split
    · exact tabled_setBar hs x none
    · exact hs
  | bookingLapse n =>
    refine answers_inRunning hs fun _ => ?_
    split
    · exact tabled_lapse hs n
    · exact hs
  | exchangeTimeout k =>
    refine answers_inRunning hs fun _ => ?_
    split
    · exact tabled_endUnknown hs k
    · exact hs
  | announcementCount =>
    refine answers_inRunning hs fun _ => ?_
    repeat' split
    · exact SameTables.tabled ⟨rfl, rfl, rfl, rfl, fun _ => rfl, fun _ => rfl, rfl⟩ hs
    · exact tabled_announceDue hs
    · exact hs
  | recompute =>
    refine answers_inRunning hs fun _ => ?_
    split
    · exact tabled_recomputeAll (SameTables.tabled (s := s) ⟨rfl, rfl, rfl, rfl, fun _ => rfl, fun _ => rfl, rfl⟩ hs)
    · exact hs
  | confirmEnd =>
    refine answers_inRunning hs fun _ => ?_
    split
    · exact tabled_enterRundown hs
    · exact hs
  | settleWindowEnd =>
    refine answers_inRunning hs fun _ => ?_
    split
    · exact tabled_settleEnd hs
    · exact hs
  | sweepStep => exact answers_inRunning hs fun _ => tabled_sweepOne hs
  | robotOffer => exact tabled_handOver hs _ _ tabled_takeOffer
  | robotArrived => exact tabled_handOver hs _ _ tabled_takeArrival
  | workResult => exact tabled_handOver hs _ _ tabled_takeResult
  | robotWithdraw => exact tabled_handOver hs _ _ tabled_takeWithdraw
  | carrierBooking => exact tabled_handOver hs _ _ tabled_takeBooking
  | exchangeBegin => exact tabled_handOver hs _ _ tabled_takeExchangeBegin
  | exchangeEnd => exact tabled_handOver hs _ _ tabled_takeExchangeEnd
  | bookingDone => exact tabled_handOver hs _ _ tabled_takeBookingDone
  | shiftMark => exact tabled_handOver hs _ _ tabled_takeShiftMark
  | shiftTotals => exact tabled_handOver hs _ _ tabled_takeShiftTotals
  | stationRestartPiecing => exact tabled_takeRestart hs _ _ _ tabled_robotRestarted
  | stationRestartCreel => exact tabled_takeRestart hs _ _ _ tabled_carrierRestarted
  | stationRestartDoff => exact tabled_takeRestart hs _ _ _ tabled_peerGone
  | rateBucketClose | listenEnd | doffTimer | nextAnnouncement | peerSilence | lineQuiet | telegramReceived | lineGained
  | telegramSent | telegramPassedOver | doffClaim | doffState | doffDone | doffWithdraw =>
    refine tabled_beside_row hs ?_ ?_ ?_ ?_ <;> (repeat' split) <;> first | rfl | simp
  | collision bit =>
    refine answers_inRunning hs fun _ => ?_
    split
    · dsimp only
      split
      · exact tabled_of_config (by simp) (by simp) (by simp) (by simp) hs
      · exact hs
    · exact hs

/-- Settles O7: an empty queue idles, and the front command's row keeps the tables. -/
theorem tablesKeptByEveryStep : Obligations.TablesKeptByEveryStep := by
  intro s t hst hs h
  unfold step at h
  split at h
  · cases h
    exact hs
  · rename_i c rest _
    have hkept : Answers State.tabled (exec c { s with pending := rest }) :=
      tabled_exec (s := { s with pending := rest }) (staged_of_same (s := s) rfl rfl rfl hst)
        (tabled_of_blocks (s := s) rfl rfl rfl rfl hs) c
    exact hkept.of_next h

/-- Settles O8. -/
theorem resetIsSound : Obligations.ResetIsSound := by
  refine ⟨⟨⟨⟨by decide, by decide, by simp [State.reset, Frame.powerOn]⟩, rfl⟩, ⟨by decide, by decide⟩, ⟨rfl, rfl⟩⟩, ?_⟩
  exact tabled_powerOn false State.reset

end Sys2Proof.Machine
end

section
/-! PROOFS. Every step keeps the part sound (R166, R167, R177, R178, R184, R185): the alert list and ALERT_STOP, the line's queues,
the configuration and NOT_STARTED. -/

namespace Sys2Proof.Machine

/-- An event that keeps the frame interface and the line's bounds, and leaves the configuration, the part state and NOT_STARTED, keeps
the part sound. -/
theorem sound_of_kept {s t : State} (hs : s.sound) (hf : t.frame.sound) (hl : t.line.bounded)
    (hn : t.frame.holds.notStarted = s.frame.holds.notStarted)
    (hp : t.port.config = s.port.config ∧ t.port.part = s.port.part) : t.sound :=
  ⟨hf, hl, staged_of_same hp.1 hp.2 hn hs.2.2⟩

/-- A change of the port alone that leaves the configuration and the part state. -/
theorem sound_port {s : State} (hs : s.sound) {p : Port} (hp : p.config = s.port.config ∧ p.part = s.port.part) :
    ({ s with port := p } : State).sound := sound_of_kept hs hs.1 hs.2.1 rfl hp

theorem sound_inRunning {s s' : State} (hs : s.sound) (hf : s.frame.sound → s'.frame.sound)
    (hl : s.line.bounded → s'.line.bounded) (hn : s'.frame.holds.notStarted = s.frame.holds.notStarted)
    (hp : s'.port.config = s.port.config ∧ s'.port.part = s.port.part) : Answers State.sound (inRunning s s') :=
  answers_inRunning hs fun _ => sound_of_kept hs (hf hs.1) (hl hs.2.1) hn hp

/-- What an event may do of itself: it keeps the frame interface and the line's bounds, and leaves NOT_STARTED, the configuration and
the part state. -/
def keepsSound (f : State → State) : Prop :=
  ∀ s, (s.frame.sound → (f s).frame.sound) ∧ (s.line.bounded → (f s).line.bounded) ∧
    (f s).frame.holds.notStarted = s.frame.holds.notStarted ∧
    (f s).port.config = s.port.config ∧ (f s).port.part = s.port.part

theorem keepsSound.sound {f : State → State} (h : keepsSound f) {s : State} (hs : s.sound) : (f s).sound := by
  obtain ⟨hf, hl, hn, hp⟩ := h s
  exact sound_of_kept hs (hf hs.1) (hl hs.2.1) hn hp

/-- The telegram handed over leaves the buffer, which grows no longer. -/
theorem sound_popReceived {s : State} (hs : s.sound) : (popReceived s).sound :=
  sound_of_kept hs hs.1 (popReceived_lineP hs.2.1) rfl ⟨rfl, rfl⟩

theorem sound_handOver {s : State} (hs : s.sound) (k : Kind) (take : Telegram → State → State)
    (h : ∀ t, keepsSound (take t)) : Answers State.sound (inRunning s (handOver k take s)) := by
  refine answers_inRunning hs fun _ => ?_
  unfold handOver
  repeat' split
  · exact (h _).sound (sound_popReceived hs)
  · exact hs
  · exact hs

theorem sound_takeRestart {s : State} (hs : s.sound) (taken : Received → Bool) (mark : Received → Received)
    (take : Nat → State → State) (h : ∀ n, keepsSound (take n)) :
    Answers State.sound (inRunning s (takeRestart taken mark take s)) := by
  refine answers_inRunning hs fun _ => ?_
  unfold takeRestart
  split
  · rename_i r rest hrx
    dsimp only
    split
    · have hrest : rest.length + 1 ≤ Config.receiveCapacity := by
        have hbound := hs.2.1.2
        rwa [hrx] at hbound
      refine (h _).sound (sound_of_kept hs hs.1 ⟨hs.2.1.1, ?_⟩ rfl ⟨rfl, rfl⟩)
      dsimp only
      split
      · omega
      · exact hrest
    · exact hs
  · exact hs

/-! ### Host commands -/

theorem sound_whileRunning {s : State} {e : Effect} (hs : s.sound) (h : s.running = true → e.state.sound) :
    (whileRunning s e).state.sound := by
  rw [whileRunning_state]
  split
  · exact h ‹_›
  · exact hs

theorem sound_configured {s : State} (hs : s.sound) (c : Configuration) (hi : s.port.part = .init) :
    (configured c s).sound := by
  obtain ⟨hf, hl, -, hn⟩ := hs
  refine ⟨configured_frameP c hf, by simpa using hl, by simp [configured, createTables], ?_⟩
  have hpart : (configured c s).port.part = .ready := rfl
  have hrunning : (s.port.part != .running) = true := by rw [hi]; rfl
  simp [hpart, hn, hrunning]

theorem started_staged (s : State) :
    (started s).port.config = s.port.config ∧ (started s).port.part = .running ∧
    (started s).frame.holds.notStarted = false := by
  refine ⟨by simp [started], by simp [started], ?_⟩
  unfold started
  simp [removeHold, HoldSet.put]

theorem sound_started {s : State} (hs : s.sound) (hr : s.port.part = .ready) : (started s).sound := by
  obtain ⟨hf, hl, hconfig, -⟩ := hs
  obtain ⟨hcfg, hpart, hn⟩ := started_staged s
  refine ⟨started_frameP hf, started_lineP hl, ?_, ?_⟩
  · rw [hpart, hcfg, hconfig, hr]
    rfl
  · rw [hpart, hn]
    rfl

theorem completeExecuting_config (s : State) : (completeExecuting s).port.config = s.port.config := by
  unfold completeExecuting
  split <;> simp

theorem warmReset_staged (s : State) :
    (warmReset s).port.config = s.port.config ∧ (warmReset s).port.part = .ready ∧
    (warmReset s).frame.holds.notStarted = true := by
  refine ⟨?_, rfl, ?_⟩
  · unfold warmReset discardSlot
    dsimp only
    split <;> simp [completeExecuting_config]
  · simp [warmReset, warmBlocks, addHold, HoldSet.put]

theorem sound_warmReset {s : State} (hs : s.sound) (hi : s.port.part ≠ .init) : (warmReset s).sound := by
  obtain ⟨hf, hl, hconfig, -⟩ := hs
  obtain ⟨hcfg, hpart, hn⟩ := warmReset_staged s
  refine ⟨warmReset_frameP hf, warmReset_lineP hl, ?_, ?_⟩
  · have hpast : (s.port.part != .init) = true := bne_iff_ne.mpr hi
    rw [hpart, hcfg, hconfig, hpast]
    rfl
  · rw [hpart, hn]
    rfl

/-- ACK_ALERT's list without its head keeps R177 and R178. -/
theorem sound_ackTail {f : Frame} {a : Alert} {rest : List Alert} (ha : f.alerts = a :: rest) (h : f.sound) :
    ({ f with alerts := rest } : Frame).followStop.sound := by
  obtain ⟨⟨hlength, hnodup, hrepeats⟩, -⟩ := h
  rw [ha] at hlength hnodup hrepeats
  refine ⟨⟨?_, ?_, fun b hb => hrepeats b (List.mem_cons_of_mem _ hb)⟩, rfl⟩
  · exact Nat.le_of_succ_le hlength
  · exact hnodup.of_cons

theorem sound_frame {s : State} (hs : s.sound) {f : Frame} (hf : f.sound)
    (hn : f.holds.notStarted = s.frame.holds.notStarted) : ({ s with frame := f } : State).sound :=
  sound_of_kept hs hf hs.2.1 hn ⟨rfl, rfl⟩

/-- Whatever a host command does, the part stays sound. -/
theorem sound_perform {s : State} (hs : s.sound) (c : Command) (tag : Nat) : (perform c tag s).state.sound := by
  cases c with
  | status | readSpindle | readStrip | readQueue | readEngagement | readSection | readBookings | readDoff | readPeers
  | readShift | readReport | readAlert | readInputs => exact hs
  | readLine | clearFault => exact sound_of_kept hs hs.1 hs.2.1 rfl ⟨rfl, rfl⟩
  | configure c =>
    simp only [perform, doConfigure]
    split
    · split
      · exact sound_configured hs c ‹_›
      · exact hs
    all_goals exact hs
  | stageArticle a =>
    simp only [perform, doStageArticle]
    split
    · exact sound_of_kept hs hs.1 hs.2.1 rfl ⟨rfl, rfl⟩
    · exact hs
  | armArticle =>
    simp only [perform, doArmArticle]
    repeat' split
    · exact hs
    all_goals exact sound_of_kept hs hs.1 hs.2.1 rfl ⟨rfl, rfl⟩
  | start =>
    simp only [perform, doStart]
    repeat' split
    · exact hs
    · exact hs
    · exact sound_started hs ‹_›
    · exact hs
  | warmReset =>
    simp only [perform, doWarmReset]
    split
    · exact hs
    all_goals exact sound_warmReset hs (by simp [*])
  | lineRestart =>
    exact sound_whileRunning hs fun _ =>
      sound_of_kept hs (lineRestart_frameP hs.1) lineRestart_lineP (by simp) (by simp)
  | ackAlert code subject =>
    refine sound_whileRunning hs fun _ => ?_
    split
    · split
      · exact sound_frame hs (sound_ackTail ‹_› hs.1) rfl
      · exact hs
    · exact hs
  | setLockout | clearLockout | pinLockout | clearRogue | creelConfirm | doffRequest | doffComplete | doffAbandon
  | closeShift | holdSet | holdClear | faultAck =>
    refine sound_whileRunning hs fun _ => ?_
    obtain ⟨hf, hl, -⟩ := id hs
    (repeat' split) <;> refine sound_of_kept hs ?_ ?_ ?_ ?_ <;> simp [Effect.done, Effect.refuse, hf, hl]

theorem sound_runCommand {s : State} (hs : s.sound) (c : Command) (tag : Nat) : (runCommand c tag s).sound := by
  unfold runCommand finish
  split
  · exact sound_of_kept (sound_perform hs c tag) (by simpa using (sound_perform hs c tag).1)
      (by simpa using (sound_perform hs c tag).2.1) (by simp) ⟨rfl, rfl⟩
  · exact sound_perform hs c tag

/-! ### The transactions and the dispatch -/

theorem sound_latchFault {s : State} (hs : s.sound) (c : FaultCause) : (latchFault c s).sound := by
  unfold latchFault
  split <;> exact sound_port hs ⟨rfl, rfl⟩

theorem sound_takeRecord {s : State} (hs : s.sound) (bs : List Byte) : (takeRecord bs s).sound := by
  unfold takeRecord
  repeat' split
  · exact sound_latchFault hs _
  · exact sound_latchFault hs _
  · exact sound_runCommand hs _ _
  · exact sound_port hs ⟨rfl, rfl⟩

theorem sound_writeRecord {s : State} (hs : s.sound) (bs : List Byte) : (writeRecord bs s).sound :=
  sound_takeRecord (s := { s with port := { s.port with returned := statusByte s :: List.replicate bs.length 0 } })
    (sound_port hs ⟨rfl, rfl⟩) bs

theorem sound_leaveSlot {s : State} (hs : s.sound) (c : Command) (tag : Nat) : (leaveSlot c tag s).sound := by
  unfold leaveSlot
  split
  · exact sound_port hs ⟨rfl, rfl⟩
  · exact sound_runCommand hs c tag

theorem sound_dispatch {s : State} (hs : s.sound) : (dispatch s).sound := by
  unfold dispatch
  split
  · exact sound_leaveSlot (s := { s with port := { s.port with slot := none } }) (sound_port hs ⟨rfl, rfl⟩) _ _
  · exact hs

theorem sound_hostRow {s : State} (hs : s.sound) (c : Command) (tag : Nat) : Answers State.sound (hostRow c tag s) :=
  answers_hostRow hs (fun _ => sound_port hs ⟨rfl, rfl⟩) (sound_runCommand hs c tag)

/-! ### Every row -/

theorem frame_sound_powerOn (f : Frame) (low : Bool) :
    ({ Frame.powerOn with run := f.run, maint := f.maint, levels := f.levels, resetLow := low } : Frame).sound :=
  ⟨⟨Nat.zero_le _, List.nodup_nil, fun _ h => absurd h List.not_mem_nil⟩, rfl⟩

theorem sound_powerOn (low : Bool) (s : State) : (powerOn low s).sound :=
  ⟨frame_sound_powerOn s.frame low, ⟨Nat.zero_le _, Nat.zero_le _⟩, rfl, rfl⟩

@[simp] theorem sweepEnd_staged (cl : Closing) (s : State) :
    (sweepEnd cl s).port.config = s.port.config ∧ (sweepEnd cl s).port.part = s.port.part := by
  unfold sweepEnd
  dsimp only
  split <;> simp

@[simp] theorem sweepOne_staged (s : State) :
    (sweepOne s).port.config = s.port.config ∧ (sweepOne s).port.part = s.port.part := by
  unfold sweepOne
  split
  · exact ⟨rfl, rfl⟩
  · dsimp only
    (repeat' split) <;> simp

/-- A row keeps the part sound. -/
theorem sound_exec {s : State} (hs : s.sound) (c : Instr) : Answers State.sound (exec c s) := by
  cases c with
  | powerOn | resetNLow => exact answers_next (sound_powerOn _ s)
  | deliveryPulse | deviceSecond =>
    obtain ⟨hf, hl, -⟩ := id hs
    refine answers_powered hs (sound_of_kept hs ?_ ?_ ?_ ?_) <;> simp [hf, hl]
  | maintChange | runChange | faultInput =>
    obtain ⟨hf, hl, -⟩ := id hs
    refine answers_next ?_
    split
    · exact sound_frame hs hf rfl
    · refine sound_of_kept hs ?_ ?_ ?_ ?_ <;> simp [hf, hl]
  | commandDispatch => exact answers_powered hs (sound_dispatch hs)
  | commandWrite bytes =>
    refine answers_powered hs ?_
    repeat' split
    · exact hs
    · exact sound_writeRecord hs _
    · exact sound_of_kept hs hs.1 hs.2.1 rfl ⟨rfl, rfl⟩
    · exact hs
  | responseRead bytes =>
    refine answers_powered hs ?_
    repeat' split
    · exact hs
    · exact sound_port hs ⟨rfl, rfl⟩
    · exact sound_of_kept hs hs.1 hs.2.1 rfl ⟨rfl, rfl⟩
    · exact hs
  | warmReset tag => exact answers_powered hs (sound_runCommand hs _ _)
  | status | configure | stageArticle | armArticle | start | lineRestart | clearFault | readSpindle | readStrip
  | readQueue | readEngagement | readSection | readBookings | readDoff | readPeers | readShift | readReport | readAlert
  | ackAlert | readLine | readInputs | setLockout | clearLockout | pinLockout | clearRogue | creelConfirm | doffRequest
  | doffComplete | doffAbandon | closeShift | holdSet | holdClear | faultAck => exact sound_hostRow hs _ _
  | rateBucketClose | stripRead | escalation | piecingHold | pieceCallRepeat | sinceCallLimit | arrivalTimeout | orderTimeout
  | barEnd | bookingLapse | exchangeTimeout | announcementCount | recompute | listenEnd | confirmEnd | doffTimer
  | settleWindowEnd | nextAnnouncement | peerSilence | sweepStep | telegramReceived | telegramSent | telegramPassedOver =>
    refine sound_inRunning hs (fun hf => ?_) (fun hl => ?_) ?_ ?_
    · (repeat' split) <;> simp [hf]
    · (repeat' split) <;> simp [hl]
    · (repeat' split) <;> simp
    · (repeat' split) <;> simp
  | robotOffer | robotArrived | workResult | robotWithdraw | carrierBooking | exchangeBegin | exchangeEnd | bookingDone
  | doffClaim | doffState | doffDone | doffWithdraw | shiftMark | shiftTotals =>
    refine sound_handOver hs _ _ fun t u => ⟨fun hf => ?_, fun hl => ?_, ?_, ?_⟩
    · simp [hf]
    · simp [hl]
    · simp
    · simp
  | stationRestartPiecing | stationRestartCreel | stationRestartDoff =>
    refine sound_takeRestart hs _ _ _ fun t u => ⟨fun hf => ?_, fun hl => ?_, ?_, ?_⟩
    · simp [hf]
    · simp [hl]
    · simp
    · simp
  | lineQuiet =>
    refine answers_inRunning hs fun _ => ?_
    split
    · exact sound_of_kept hs (raiseAlert_frameP _ _ _ hs.1) hs.2.1 (by simp) ⟨rfl, rfl⟩
    · exact hs
  | lineGained bits =>
    exact answers_inRunning hs fun _ =>
      sound_of_kept hs (by simpa using hs.1) (gainLine_lineP hs.2.1) (by simp) (by simp)
  | collision bit =>
    refine answers_inRunning hs fun _ => ?_
    split
    · dsimp only
      split
      · exact sound_of_kept hs (collide_frameP _ hs.1) (collide_lineP _ hs.2.1) (by simp) (by simp)
      · exact hs
    · exact hs

/-- Settles O59: an empty queue idles, and the front command's row keeps the part sound. -/
theorem soundKeptByEveryStep : Obligations.SoundKeptByEveryStep := by
  intro s t hs h
  unfold step at h
  split at h
  · cases h
    exact hs
  · rename_i c rest _
    have hkept : Answers State.sound (exec c { s with pending := rest }) :=
      sound_exec (s := { s with pending := rest }) (sound_of_kept hs hs.1 hs.2.1 rfl ⟨rfl, rfl⟩) c
    exact hkept.of_next h

end Sys2Proof.Machine
end

section
/-! PROOFS. Delivery and yarn arithmetic (chapter 1): pulses, device seconds, the rate window, the conversions, and ARM_ARTICLE. -/

namespace Sys2Proof.Machine

/-! ### Pulses, seconds and buckets (R1 to R3) -/

/-- A timer has been reached exactly when it is present and not later than now. -/
theorem reached_iff {now : Nat} {t : Option Nat} : reached now t = true ↔ ∃ n, t = some n ∧ n ≤ now := by
  cases t <;> simp [reached]

theorem exec_deliveryPulse {s : State} (h : s.frame.resetLow = false) : exec .deliveryPulse s = .next (takePulse s) :=
  powered_high h _

theorem exec_deviceSecond {s : State} (h : s.frame.resetLow = false) : exec .deviceSecond s = .next (takeSecond s) :=
  powered_high h _

theorem takePulse_eq (s : State) :
    takePulse s = if s.frame.run = true then
        { s with
          del := { s.del with
            count := min 281474976710655 (s.del.count + 1)
            openBucket := s.del.openBucket.map (fun b => min 16777215 (b + 1))
            pulseFree := 0 }
          doff :=
            if s.doff.state = .restart ∧ s.del.count < 281474976710655 then
              { s.doff with state := .settling, settleStart := some s.del.seconds, settleSeconds := 0 }
            else s.doff }
      else { s with del := { s.del with jog := min 4294967295 (s.del.jog + 1) } } := by
  unfold takePulse
  split
  · dsimp only
    by_cases h : s.doff.state = .restart ∧ s.del.count < 281474976710655
    · simp [h, settleEntry, Delivery.pulse, addCapped, State.now]
    · simp only [h, if_false]
      rfl
  · rfl

theorem closeBucket_eq {d : Delivery} {due b : Nat} (hdue : d.nextBucketAt = some due) (hb : d.openBucket = some b)
    (hl : d.buckets.length ≤ 6) :
    d.closeBucket = { d with
      buckets := (if d.buckets.length = 6 then d.buckets.tail else d.buckets) ++ [b]
      openBucket := some 0
      nextBucketAt := some (due + 10) } := by
  have hdrop : (d.buckets ++ [b]).drop ((d.buckets ++ [b]).length - 6) =
      (if d.buckets.length = 6 then d.buckets.tail else d.buckets) ++ [b] := by
    split
    · rename_i h6
      rw [List.length_append, h6, List.drop_append_of_le_length (by simp [h6])]
      simp
    · have h0 : (d.buckets ++ [b]).length - 6 = 0 := by simp; omega
      rw [h0, List.drop_zero]
  simp only [Delivery.closeBucket, hdue, hb, ← hdrop]
  rfl

theorem exec_rateBucketClose {s : State} (h : s.works) :
    exec .rateBucketClose s = .next (if reached s.now s.del.nextBucketAt then { s with del := s.del.closeBucket } else s) :=
  inRunning_works h _

/-- The clocks of a device second in RUNNING, before the checks of the doff sequencer (R66, R125, R146). -/
def secondClocks (s : State) : State :=
  { s with
    shift := { s.shift with opened := s.shift.opened.second s.frame.run }
    pie := { s.pie with a := { s.pie.a with eng := s.pie.a.eng.second }, b := { s.pie.b with eng := s.pie.b.eng.second } }
    doff := s.doff.second s.frame.run }

theorem runningSecond_eq (s : State) : runningSecond s = grantCheck (stopTest (fillCheck (secondClocks s))) := rfl

theorem Shift.second_eq (run : Bool) (sh : Shift) :
    sh.second run = { sh with
      runSeconds := if run then min 4294967295 (sh.runSeconds + 1) else sh.runSeconds
      stopSeconds := if run then sh.stopSeconds else min 4294967295 (sh.stopSeconds + 1) } := by
  cases run <;> rfl

theorem Engagement.second_eq (e : Engagement) :
    e.second = { e with sinceCall := if e.state = .calling then min 65535 (e.sinceCall + 1) else e.sinceCall } := by
  unfold Engagement.second
  split <;> rfl

theorem Doff.second_settling {d : Doff} (h : d.state = .settling) (run : Bool) :
    d.second run = { d with settleSeconds := if run then min 120 (d.settleSeconds + 1) else d.settleSeconds } := by
  cases run
  · exact if_neg (by simp)
  · exact if_pos ⟨h, rfl⟩

/-- A device second leaves the doff state. -/
@[simp] theorem Doff.second_state (run : Bool) (d : Doff) : (d.second run).state = d.state := by
  unfold Doff.second
  split <;> rfl

theorem fillCheck_idle {s : State} (h : s.doff.state ≠ .spinning ∧ s.doff.state ≠ .claimed ∧ s.doff.state ≠ .granted) :
    fillCheck s = s := by
  unfold fillCheck
  split <;> simp_all

theorem stopTest_idle {s : State} (h : s.doff.state ≠ .rundown) : stopTest s = s := if_neg fun hs => h hs.1

theorem grantCheck_idle {s : State} (h : s.doff.state ≠ .claimed ∧ s.doff.state ≠ .fullWait) : grantCheck s = s := by
  refine if_neg fun hs => ?_
  revert hs
  cases hd : s.doff.state <;> simp_all [DoffState.claiming]

theorem runningSecond_shift_pie (s : State) :
    (runningSecond s).shift = (secondClocks s).shift ∧ (runningSecond s).pie = (secondClocks s).pie := by
  rw [runningSecond_eq]
  exact ⟨by simp, by simp⟩

/-- In SETTLING none of the checks of a device second acts. -/
theorem runningSecond_doff_settling {s : State} (h : s.doff.state = .settling) :
    (runningSecond s).doff = s.doff.second s.frame.run := by
  have hstate : (secondClocks s).doff.state = .settling := (Doff.second_state _ _).trans h
  rw [runningSecond_eq, fillCheck_idle (by simp [hstate]), stopTest_idle (by simp [hstate]),
    grantCheck_idle (by simp [hstate])]
  rfl

theorem takeSecond_running {s : State} (h : s.port.part = .running) :
    takeSecond s = runningSecond { s with del := s.del.tick } := by
  simp [takeSecond, State.running, h]

theorem takeSecond_idle {s : State} (h : s.port.part ≠ .running) : takeSecond s = { s with del := s.del.tick } := by
  simp [takeSecond, State.running, h]

theorem takeSecond_del (s : State) : (takeSecond s).del = s.del.tick := by
  unfold takeSecond
  dsimp only
  split <;> simp

/-- Settles O3: the pulse by `takePulse_eq`, the device second by its clocks, the bucket by `closeBucket_eq`. -/
theorem deliveryCounterEvents : Obligations.DeliveryCounterEvents := by
  refine ⟨fun s h => ?pulse, fun s h => ?second, fun s due b hw hdue hb hl => ?bucket⟩
  case pulse => rw [exec_deliveryPulse h, takePulse_eq]
  case second =>
    refine ⟨_, exec_deviceSecond h, takeSecond_del s, fun hidle => ?_, fun hrun => ?_⟩
    · rw [takeSecond_idle hidle]
    · obtain ⟨hshift, hpie⟩ := runningSecond_shift_pie { s with del := s.del.tick }
      rw [takeSecond_running hrun, hshift]
      refine ⟨⟨by simp, fun b hb => ?_⟩, ?_, fun x => ?_, fun x => ?_, fun hsettling => ?_⟩
      · cases b <;> simp [Block.same] at hb ⊢
      · simp [secondClocks, Shift.second_eq]
      · cases x <;> simp only [State.eng, State.side, hpie] <;> exact Engagement.second_eq _
      · cases x <;> simp [State.side, hpie, secondClocks]
      · exact (runningSecond_doff_settling (s := { s with del := s.del.tick }) hsettling).trans
          (Doff.second_settling hsettling _)
  case bucket =>
    rw [exec_rateBucketClose hw, closeBucket_eq hdue hb hl, hdue]
    by_cases hdue : due ≤ s.del.seconds
    · simp [reached_iff, State.now, hdue]
    · simp [reached_iff, State.now, hdue]

/-! ### Conversions (R4, R6 to R10, R12) -/

/-- The three classes are the three ranges that the two thresholds cut (R6). -/
theorem classOf_iff {c : Configuration} (h : c.downPercent < c.upPercent) (expected count : Nat) :
    (classOf c expected count = .up ↔ c.upPercent * expected ≤ count * 100) ∧
    (classOf c expected count = .down ↔ count * 100 < c.downPercent * expected) ∧
    (classOf c expected count = .slow ↔
      c.downPercent * expected ≤ count * 100 ∧ count * 100 < c.upPercent * expected) := by
  have hle : c.downPercent * expected ≤ c.upPercent * expected := Nat.mul_le_mul_right _ h.le
  unfold classOf
  split
  · simp only [true_iff, reduceCtorEq, false_iff, not_lt, not_and]
    omega
  · split
    · simp only [true_iff, reduceCtorEq, false_iff, not_and]
      omega
    · simp only [true_iff, reduceCtorEq, false_iff]
      omega

/-- A cop of one and no more thousandth parts of the cop length than the build holds (R10). -/
theorem copFill_full (built length : Nat) (h : 1 ≤ length) :
    1000 ≤ min 1999 (1000 * built / length) ↔ length ≤ built := by
  rw [Nat.le_min, Nat.le_div_iff_mul_le (by omega)]
  omega

theorem efficiencyOf_le {up gross : Nat} (h : up ≤ gross) : efficiencyOf up gross ≤ 10000 := by
  unfold efficiencyOf
  split
  · omega
  · exact Nat.div_le_of_le_mul (by rw [Nat.mul_comm gross]; exact Nat.mul_le_mul_left _ h)

/-- Settles O4: each conversion is unfolded to its definition, and the clamped subtractions agree with the integers'. -/
theorem conversionsOfPulses : Obligations.ConversionsOfPulses := by
  refine ⟨fun l => ?rate, fun c twist p count h => classOf_iff h _ _, fun p base lost booked => ?up, fun c draft up rem => ?left,
    fun draft left r => ⟨rfl, rfl⟩, fun c a p _ _ hlen => ⟨rfl, copFill_full _ _ hlen⟩,
    fun up gross => ⟨rfl, efficiencyOf_le⟩⟩
  case rate =>
    unfold ratePulses
    refine ⟨fun h => by simp [h], fun h1 h5 => ?_, fun h6 => by simp [h6]⟩
    rw [if_neg (by omega), if_pos (by simpa using Nat.lt_succ_of_le h5)]
  case up =>
    unfold upPulses
    refine ⟨?_, fun h => ?_⟩ <;> dsimp only <;> omega
  case left =>
    unfold remainingMm usedMm
    omega

/-! ### ARM_ARTICLE (R15, R16) -/

theorem exec_armArticle_open {s : State} (h : s.portOpen) (tag : Nat) :
    exec (.armArticle tag) s = .next (finish 4 tag (doArmArticle s)) := hostRow_open h _ tag

/-- Settles O6: the three branches of `doArmArticle`. -/
theorem armArticleArmsOrSwitches : Obligations.ArmArticleArmsOrSwitches := by
  intro s tag hopen
  rw [exec_armArticle_open hopen]
  refine ⟨fun hstaged => ?_, fun a b hstaged hactive => ?_, fun a first g hstaged hactive hsegments => ?_⟩
  · simp [doArmArticle, hstaged]
  · simp [doArmArticle, hstaged, hactive]
  · simp [doArmArticle, hstaged, hactive, immediateSwitch, hsegments, Segment.firstArticle, State.count]

end Sys2Proof.Machine
end

section
/-! PROOFS. What moving records leaves of the spindle monitor: the strips, the rotation, the lockout range, the pin and the size of the
spindle table (chapter 2). One lemma per operation over the records. -/

namespace Sys2Proof.Machine

/-- The spindle monitor beside the records and the above-limit flag. -/
def State.besideRecords (s : State) : List Strip × Option Rotation × Option Lockout × Bool × Nat :=
  (s.mon.strips, s.mon.rotation, s.mon.lockout, s.mon.pin, s.mon.spindles.length)

theorem beside_of_mon {s t : State} (h : t.mon = s.mon) : t.besideRecords = s.besideRecords := by
  simp [State.besideRecords, h]

/-- What the equality says, field by field. -/
theorem beside_fields {s t : State} (h : t.besideRecords = s.besideRecords) :
    t.mon.strips = s.mon.strips ∧ t.mon.rotation = s.mon.rotation ∧ t.mon.lockout = s.mon.lockout ∧ t.mon.pin = s.mon.pin ∧
    t.mon.spindles.length = s.mon.spindles.length := by
  simpa [State.besideRecords] using h

theorem has_of_beside {s t : State} (h : t.besideRecords = s.besideRecords) (i : Nat) : t.hasSpindle i = s.hasSpindle i := by
  obtain ⟨-, -, -, -, hlength⟩ := beside_fields h
  simp [State.hasSpindle, hlength]

theorem strip_of_beside {s t : State} (h : t.besideRecords = s.besideRecords) (k : Nat) : t.strip k = s.strip k := by
  obtain ⟨hstrips, -⟩ := beside_fields h
  simp [State.strip, hstrips]

/-! ### Records -/

@[simp] theorem setSp_beside (i : Nat) (r : Spindle) (s : State) : (setSp i r s).besideRecords = s.besideRecords := by
  simp [State.besideRecords, setSp]

@[simp] theorem modifySp_beside (i : Nat) (f : Spindle → Spindle) (s : State) :
    (modifySp i f s).besideRecords = s.besideRecords := setSp_beside _ _ _

@[simp] theorem touch_beside (i : Nat) (s : State) : (touch i s).besideRecords = s.besideRecords := by
  unfold touch
  repeat' split
  · rfl
  · exact setSp_beside i _ s
  · rfl

@[simp] theorem bookOpen_beside (i : Nat) (s : State) : (bookOpen i s).besideRecords = s.besideRecords := by
  unfold bookOpen
  dsimp only
  split
  · rfl
  · exact setSp_beside i _ s

@[simp] theorem book_beside (i : Nat) (s : State) : (book i s).besideRecords = s.besideRecords := by
  unfold book
  split <;> simp

@[simp] theorem countEvent_beside (k : Counted) (s : State) : (countEvent k s).besideRecords = s.besideRecords := rfl

@[simp] theorem endsDownCheck_beside (s : State) : (endsDownCheck s).besideRecords = s.besideRecords := by
  unfold endsDownCheck
  repeat' split
  all_goals rfl

@[simp] theorem raiseAlert_beside (code : AlertCode) (cls : AlertClass) (subject : Option Nat) (s : State) :
    (raiseAlert code cls subject s).besideRecords = s.besideRecords := rfl

@[simp] theorem requeue_beside (i : Nat) (a b : SpState) (s : State) : (requeue i a b s).besideRecords = s.besideRecords :=
  beside_of_mon (by simp)

@[simp] theorem enter_beside (i : Nat) (st : SpState) (s : State) : (enter i st s).besideRecords = s.besideRecords := by
  unfold enter
  dsimp only
  split <;> simp

@[simp] theorem bookEnter_beside (i : Nat) (st : SpState) (s : State) : (bookEnter i st s).besideRecords = s.besideRecords := by
  simp [bookEnter]

theorem each_beside (l : List Nat) {f : Nat → State → State} (h : ∀ i s, (f i s).besideRecords = s.besideRecords) (s : State) :
    (each l f s).besideRecords = s.besideRecords := each_keeps State.besideRecords l f h s

theorem foldl_beside {β : Type} (l : List β) {f : State → β → State} (h : ∀ s b, (f s b).besideRecords = s.besideRecords)
    (s : State) : (l.foldl f s).besideRecords = s.besideRecords :=
  foldl_keepsProp (fun u => u.besideRecords = s.besideRecords) l f (fun u b hu => (h u b).trans hu) rfl

/-! ### Piecing -/

@[simp] theorem joinQueue_beside (i : Nat) (s : State) : (joinQueue i s).besideRecords = s.besideRecords := by
  unfold joinQueue
  split <;> simp

@[simp] theorem refillSide_beside (n : Nat) (x : Side) (s : State) : (refillSide n x s).besideRecords = s.besideRecords := by
  induction n generalizing s with
  | zero => rfl
  | succ n ih =>
    unfold refillSide
    repeat' split
    · rfl
    · simp [ih]
    · rfl

@[simp] theorem refill_beside (s : State) : (refill s).besideRecords = s.besideRecords := by simp [refill]

@[simp] theorem makeRogue_beside (i : Nat) (s : State) : (makeRogue i s).besideRecords = s.besideRecords := by
  simp [makeRogue]

@[simp] theorem place_beside (k : Placement) (i : Nat) (s : State) : (place k i s).besideRecords = s.besideRecords := by
  unfold place
  dsimp only
  split <;> simp

@[simp] theorem failedPiecing_beside (i : Nat) (s : State) : (failedPiecing i s).besideRecords = s.besideRecords := by
  unfold failedPiecing
  dsimp only
  repeat' split
  all_goals simp

@[simp] theorem returnToPiecing_beside (i : Nat) (s : State) : (returnToPiecing i s).besideRecords = s.besideRecords := by
  unfold returnToPiecing
  repeat' split
  all_goals simp

@[simp] theorem issueOrder_beside (x : Side) (i : Nat) (asc : Bool) (s : State) :
    (issueOrder x i asc s).besideRecords = s.besideRecords := by
  have h : (refill (enter i .ordered s)).besideRecords = s.besideRecords := by simp
  unfold issueOrder
  dsimp only
  rw [beside_of_mon (setEng_frame x _ _).2.1]
  split
  · rw [beside_of_mon (enqueue_frame _ _ _ _).2.1]
    exact h
  · exact h

@[simp] theorem decideNext_beside (x : Side) (s : State) : (decideNext x s).besideRecords = s.besideRecords := by
  unfold decideNext
  repeat' split
  · exact beside_of_mon (by simp)
  · simp
  · rfl
  · rfl

@[simp] theorem notifyOne_beside (s0 : State) (x : Side) (s : State) : (notifyOne s0 x s).besideRecords = s.besideRecords := by
  unfold notifyOne
  dsimp only
  repeat' split
  · exact beside_of_mon (by simp)
  · rfl
  · exact beside_of_mon (by simp)
  · rfl
  · simp
  all_goals rfl

@[simp] theorem notify_beside (s0 s : State) : (notify s0 s).besideRecords = s.besideRecords :=
  foldl_beside _ (fun _ _ => notifyOne_beside _ _ _) s

theorem piecingEvent_beside {f : State → State} {s : State} (h : (f s).besideRecords = s.besideRecords) :
    (piecingEvent f s).besideRecords = s.besideRecords := by simp [piecingEvent, h]

@[simp] theorem withdrawOrder_beside (i : Nat) (s : State) : (withdrawOrder i s).besideRecords = s.besideRecords :=
  beside_of_mon (by simp)

/-! ### The creel -/

@[simp] theorem emptyAlert_beside (i : Nat) (s : State) : (emptyAlert i s).besideRecords = s.besideRecords :=
  beside_of_mon (by simp)

@[simp] theorem marginOne_beside (i : Nat) (s : State) : (marginOne i s).besideRecords = s.besideRecords := by
  unfold marginOne
  repeat' split
  all_goals simp

@[simp] theorem rebuildDue_beside (s : State) : (rebuildDue s).besideRecords = s.besideRecords := beside_of_mon (by simp)

@[simp] theorem modifySec_beside (k : Nat) (f : Section → Section) (s : State) :
    (modifySec k f s).besideRecords = s.besideRecords := rfl

@[simp] theorem recomputeSection_beside (k : Nat) (s : State) : (recomputeSection k s).besideRecords = s.besideRecords := by
  unfold recomputeSection
  dsimp only
  split
  · rw [modifySec_beside]
    exact piecingEvent_beside (f := each (indicesOf k) marginOne) (each_beside _ marginOne_beside _)
  · rfl

@[simp] theorem recomputeOne_beside (k : Nat) (s : State) : (recomputeOne k s).besideRecords = s.besideRecords := by
  simp [recomputeOne]

@[simp] theorem goneEmpty_beside (i : Nat) (s : State) : (goneEmpty i s).besideRecords = s.besideRecords := by
  unfold goneEmpty
  dsimp only
  split <;> simp

@[simp] theorem countDown_beside (k : Placement) (i : Nat) (s : State) : (countDown k i s).besideRecords = s.besideRecords := by
  cases k <;> simp [countDown]

@[simp] theorem goDown_beside (k : Placement) (i : Nat) (s : State) : (goDown k i s).besideRecords = s.besideRecords := by
  unfold goDown
  dsimp only
  repeat' split
  all_goals simp

/-! ### Events over the records -/

@[simp] theorem classifyUp_beside (i : Nat) (c : ReadClass) (s : State) : (classifyUp i c s).besideRecords = s.besideRecords := by
  unfold classifyUp
  dsimp only
  repeat' split
  all_goals simp [piecingEvent_beside]

@[simp] theorem classifyUnseen_beside (i : Nat) (c : ReadClass) (s : State) :
    (classifyUnseen i c s).besideRecords = s.besideRecords := by
  unfold classifyUnseen
  split <;> simp [piecingEvent_beside]

@[simp] theorem classifyBroken_beside (i : Nat) (c : ReadClass) (s : State) :
    (classifyBroken i c s).besideRecords = s.besideRecords := by
  unfold classifyBroken
  dsimp only
  repeat' split
  all_goals simp [piecingEvent_beside]

@[simp] theorem classifyConfirming_beside (i : Nat) (c : ReadClass) (s : State) :
    (classifyConfirming i c s).besideRecords = s.besideRecords := by
  unfold classifyConfirming
  dsimp only
  repeat' split
  all_goals simp [piecingEvent_beside]

@[simp] theorem classify_beside (i : Nat) (s : State) : (classify i s).besideRecords = s.besideRecords := by
  unfold classify
  dsimp only
  repeat' split
  all_goals simp

@[simp] theorem unobserve_beside (i : Nat) (s : State) : (unobserve i s).besideRecords = s.besideRecords := by
  unfold unobserve
  split <;> simp

@[simp] theorem recoverRecord_beside (i : Nat) (s : State) : (recoverRecord i s).besideRecords = s.besideRecords := by
  unfold recoverRecord
  dsimp only
  split <;> simp

@[simp] theorem lockRecord_beside (i : Nat) (s : State) : (lockRecord i s).besideRecords = s.besideRecords := by
  unfold lockRecord
  rw [bookEnter_beside]
  split <;> simp

@[simp] theorem unlockRecord_beside (i : Nat) (s : State) : (unlockRecord i s).besideRecords = s.besideRecords := by
  unfold unlockRecord
  dsimp only
  repeat' split
  all_goals simp

@[simp] theorem rangeRecord_beside (old new : Option Lockout) (i : Nat) (s : State) :
    (rangeRecord old new i s).besideRecords = s.besideRecords := by
  unfold rangeRecord
  repeat' split
  all_goals simp

end Sys2Proof.Machine
end

section
/-! PROOFS. With no shift close in progress the shift counter takes nothing but bookings and counted events (R22, R145): moves of
records, refills and the decisions of the engagements leave it. -/

namespace Sys2Proof.Machine

/-- A move leaves what the close step has left (R39). -/
theorem enter_shift (i : Nat) (st : SpState) (s : State) : (enter i st s).shift = (touch i s).shift := by
  unfold enter
  dsimp only
  split <;> simp

theorem enter_shift_idle {s : State} (hc : s.shift.closing = none) (i : Nat) (st : SpState) :
    (enter i st s).shift = s.shift := by rw [enter_shift, touch_idle hc]

theorem joinQueue_shift_idle {s : State} (hc : s.shift.closing = none) (i : Nat) : (joinQueue i s).shift = s.shift := by
  unfold joinQueue
  split <;> exact enter_shift_idle hc _ _

theorem refillSide_shift_idle (n : Nat) (x : Side) {s : State} (hc : s.shift.closing = none) :
    (refillSide n x s).shift = s.shift := by
  induction n generalizing s with
  | zero => rfl
  | succ n ih =>
    unfold refillSide
    repeat' split
    · rfl
    · rename_i i _ _
      have hstay := enter_shift_idle hc i .queued
      rw [ih (by rw [hstay]; exact hc), hstay]
    · rfl

theorem refill_shift_idle {s : State} (hc : s.shift.closing = none) : (refill s).shift = s.shift := by
  have hstay := refillSide_shift_idle Config.queueCapacity .a hc
  rw [refill, refillSide_shift_idle _ _ (by rw [hstay]; exact hc), hstay]

theorem issueOrder_shift_idle {s : State} (hc : s.shift.closing = none) (x : Side) (i : Nat) (asc : Bool) :
    (issueOrder x i asc s).shift = s.shift := by
  have hstay := enter_shift_idle hc i .ordered
  have h : (refill (enter i .ordered s)).shift = s.shift := by
    rw [refill_shift_idle (by rw [hstay]; exact hc), hstay]
  unfold issueOrder
  dsimp only
  split <;> simp [h]

theorem decideNext_shift_idle {s : State} (hc : s.shift.closing = none) (x : Side) : (decideNext x s).shift = s.shift := by
  unfold decideNext
  repeat' split
  · simp
  · exact issueOrder_shift_idle hc _ _ _
  · rfl
  · rfl

theorem notifyOne_shift_idle {s : State} (hc : s.shift.closing = none) (s0 : State) (x : Side) :
    (notifyOne s0 x s).shift = s.shift := by
  unfold notifyOne
  dsimp only
  repeat' split
  · simp
  · rfl
  · simp
  · rfl
  · exact decideNext_shift_idle hc x
  all_goals rfl

theorem foldl_shift_idle {β : Type} {f : State → β → State}
    (h : ∀ u b, u.shift.closing = none → (f u b).shift = u.shift) (l : List β) {s : State} (hc : s.shift.closing = none) :
    (l.foldl f s).shift = s.shift :=
  foldl_keepsProp (fun u => u.shift = s.shift) l f (fun u b hu => (h u b (by rw [hu]; exact hc)).trans hu) rfl

theorem notify_shift_idle {s : State} (hc : s.shift.closing = none) (s0 : State) : (notify s0 s).shift = s.shift :=
  foldl_shift_idle (fun _ _ hu => notifyOne_shift_idle hu _ _) _ hc

theorem piecingEvent_shift_idle {f : State → State} {s : State} (hc : (f s).shift.closing = none) :
    (piecingEvent f s).shift = (f s).shift := by
  have hstay := refill_shift_idle hc
  rw [piecingEvent, notify_shift_idle (by rw [hstay]; exact hc), hstay]

theorem bookEnter_shift_idle {s : State} (hc : s.shift.closing = none) (i : Nat) (st : SpState) :
    (bookEnter i st s).shift = (book i s).shift := enter_shift_idle (book_closing i hc) i st

theorem bookEnter_closing {s : State} (hc : s.shift.closing = none) (i : Nat) (st : SpState) :
    (bookEnter i st s).shift.closing = none := by
  rw [bookEnter_shift_idle hc]
  exact book_closing i hc

theorem makeRogue_shift_idle {s : State} (hc : s.shift.closing = none) (i : Nat) :
    (makeRogue i s).shift = (book i s).shift := by
  have hc' : (modifySp i (fun r => { r with rogueMark := true }) (book i s)).shift.closing = none := by
    simpa using book_closing i hc
  simp only [makeRogue, raiseAlert_frame, enter_shift_idle hc', modifySp_frame]

/-- A fold keeps that no close is in progress where each of its steps does. -/
theorem each_closing {f : Nat → State → State} (h : ∀ i u, u.shift.closing = none → (f i u).shift.closing = none)
    (l : List Nat) {s : State} (hc : s.shift.closing = none) : (each l f s).shift.closing = none :=
  each_keepsProp (fun u => u.shift.closing = none) l f h hc

end Sys2Proof.Machine
end

section
/-! PROOFS. Strip reads (chapter 2): replies that do not classify, replies that do, missed replies and recovery (R23 to R25, R32,
R33). -/

namespace Sys2Proof.Machine

/-! ### Folds over a strip's records -/

theorem mem_indicesOf {k i : Nat} (hk : 1 ≤ k) : i ∈ indicesOf k ↔ 24 * (k - 1) < i ∧ i ≤ 24 * k := by
  simp only [indicesOf, List.mem_range'_1, show Config.perStrip = 24 from rfl]
  omega

theorem indicesOf_eq (k : Nat) : indicesOf k = (List.range 24).map (fun j => 24 * (k - 1) + 1 + j) := by
  rw [indicesOf, List.range'_eq_map_range, Nat.mul_comm]

theorem nodup_indicesOf (k : Nat) : (indicesOf k).Nodup := List.nodup_range'

/-- What a fold over records does to one that is not among them. -/
theorem each_sp_notMem {l : List Nat} {f : Nat → State → State} {j : Nat}
    (hne : ∀ i s, i ≠ j → (f i s).sp j = s.sp j) (hj : j ∉ l) (s : State) : (each l f s).sp j = s.sp j := by
  induction l generalizing s with
  | nil => rfl
  | cons i l ih =>
    rw [List.mem_cons, not_or] at hj
    exact (ih hj.2 (f i s)).trans (hne i s (Ne.symm hj.1))

/-- What a fold over records does to one of them: its own operation, after those of some of the others. -/
theorem each_sp_mem {l : List Nat} {f : Nat → State → State} {j : Nat}
    (hne : ∀ i s, i ≠ j → (f i s).sp j = s.sp j) (hj : j ∈ l) (hnodup : l.Nodup) (s : State) :
    ∃ before : List Nat, (each before f s).sp j = s.sp j ∧ (each l f s).sp j = (f j (each before f s)).sp j := by
  induction l generalizing s with
  | nil => exact absurd hj List.not_mem_nil
  | cons i l ih =>
    obtain ⟨hi, hl⟩ := List.nodup_cons.mp hnodup
    by_cases hij : i = j
    · subst hij
      exact ⟨[], rfl, each_sp_notMem hne hi _⟩
    · have hjl : j ∈ l := (List.mem_cons.mp hj).resolve_left (Ne.symm hij)
      obtain ⟨before, hkept, hown⟩ := ih hjl hl (f i s)
      exact ⟨i :: before, hkept.trans (hne i s hij), hown⟩

/-- A fold that changes records alone, each by itself. -/
theorem each_modifySp_sp {l : List Nat} (hnodup : l.Nodup) (g : Nat → Spindle → Spindle) {s : State} {j : Nat}
    (hj : j ∈ l → s.hasSpindle j = true) :
    (each l (fun i => modifySp i (g i)) s).sp j = if j ∈ l then g j (s.sp j) else s.sp j := by
  have hne : ∀ i u, i ≠ j → (modifySp i (g i) u).sp j = u.sp j := fun i u h => modifySp_sp_ne h _ u
  split
  · rename_i hmem
    obtain ⟨before, hkept, hown⟩ := each_sp_mem (f := fun i => modifySp i (g i)) hne hmem hnodup s
    have hhas : (each before (fun i => modifySp i (g i)) s).hasSpindle j = true := by
      rw [each_keeps (fun u => u.hasSpindle j) before _ (fun i u => has_modifySp i j _ u)]
      exact hj hmem
    rw [hown, modifySp_sp_self hhas, hkept]
  · exact each_sp_notMem (f := fun i => modifySp i (g i)) hne ‹_› s

/-- Changing records changes the spindle table alone. -/
theorem each_modifySp_mon (l : List Nat) (g : Nat → Spindle → Spindle) (s : State) :
    (each l (fun i => modifySp i (g i)) s).mon =
      { s.mon with spindles := (each l (fun i => modifySp i (g i)) s).mon.spindles } := by
  have h := each_keeps (fun u : State => { u.mon with spindles := [] }) l (fun i => modifySp i (g i)) (fun _ _ => rfl) s
  have h' := congrArg (fun m : Monitor => { m with spindles := (each l (fun i => modifySp i (g i)) s).mon.spindles }) h
  exact h'

/-- Every index of a strip of the table is a spindle. -/
theorem hasSpindle_of_strip {s : State} {k i : Nat} (hk : 1 ≤ k) (hks : k ≤ s.mon.strips.length)
    (hn : s.mon.spindles.length = 24 * s.mon.strips.length) (hi : i ∈ indicesOf k) : s.hasSpindle i = true := by
  rw [mem_indicesOf hk] at hi
  exact has_of_range (by omega)

/-! ### A good reply of an OK strip (R24) -/

/-- A record with the last class that a good reply gives it (R24). -/
def replyRecord (c : Configuration) (expected : Nat) (counts : List Nat) (i : Nat) (r : Spindle) : Spindle :=
  { r with lastClass := replyClass c expected counts ((i - 1) % Config.perStrip) }

/-- A good reply's new strip record, and the last classes of the strip's 24 spindles (R24). -/
def replyTaken (k : Nat) (counts : List Nat) (expected : Nat) (s : State) : State :=
  each (indicesOf k) (fun i => modifySp i (replyRecord s.cfg expected counts i))
    (setStrip k (Strip.good s.count s.now expected counts) s)

/-- The expected count of a read of strip `k` (R6, R24). -/
def expectedAt (k : Nat) (s : State) : Nat :=
  expectedCount s.cfg ((s.del.active.map Article.twist).getD 0) (s.count - (s.strip k).reference)

theorem replyTaken_doff (k : Nat) (counts : List Nat) (expected : Nat) (s : State) :
    (replyTaken k counts expected s).doff = s.doff := by simp [replyTaken]

theorem goodReply_ok {k : Nat} {s : State} (h : (s.strip k).failed = false) (counts : List Nat) :
    goodReply k counts s =
      if Config.minExpected ≤ expectedAt k s ∧ s.doff.state.classifies then
        each (indicesOf k) classify (replyTaken k counts (expectedAt k s) s)
      else replyTaken k counts (expectedAt k s) s := by
  have hdoff := replyTaken_doff k counts (expectedAt k s) s
  have hcfg : ∀ t, (setStrip k t s).cfg = s.cfg := fun _ => rfl
  unfold goodReply
  simp only [h, Bool.false_eq_true, if_false, hcfg]
  unfold replyTaken expectedAt replyRecord at *
  rw [hdoff]

theorem replyTaken_onlyIn (k : Nat) (counts : List Nat) (expected : Nat) (s : State) :
    onlyIn [.mon] s (replyTaken k counts expected s) :=
  ⟨by simp [replyTaken], fun b hb => by cases b <;> simp_all [Block.same, replyTaken]⟩

theorem replyTaken_mon (k : Nat) (counts : List Nat) (expected : Nat) (s : State) :
    (replyTaken k counts expected s).mon = { s.mon with
      spindles := (replyTaken k counts expected s).mon.spindles, strips := (replyTaken k counts expected s).mon.strips } := by
  have h : (replyTaken k counts expected s).mon =
      { (setStrip k (Strip.good s.count s.now expected counts) s).mon with
        spindles := (replyTaken k counts expected s).mon.spindles } := by
    unfold replyTaken
    exact each_modifySp_mon (indicesOf k) (replyRecord s.cfg expected counts) _
  have hstrips := congrArg Monitor.strips h
  dsimp only at hstrips
  rw [hstrips]
  exact h

theorem replyTaken_strip {k : Nat} {s : State} (hk : 1 ≤ k) (hks : k ≤ s.mon.strips.length) (counts : List Nat)
    (expected : Nat) :
    (replyTaken k counts expected s).strip k = Strip.good s.count s.now expected counts ∧
    ∀ m, m ≠ k → (replyTaken k counts expected s).strip m = s.strip m := by
  have h : ∀ m, (replyTaken k counts expected s).strip m =
      (setStrip k (Strip.good s.count s.now expected counts) s).strip m := fun m => by
    unfold replyTaken
    exact each_keeps (fun u => u.strip m) (indicesOf k) (fun i => modifySp i (replyRecord s.cfg expected counts i))
      (fun _ _ => rfl) _
  exact ⟨(h k).trans (strip_setStrip_self k _ s hk hks), fun m hm => (h m).trans (strip_setStrip_ne k m _ s hm.symm)⟩

theorem replyTaken_sp {k : Nat} {s : State} (hk : 1 ≤ k) (hks : k ≤ s.mon.strips.length)
    (hn : s.mon.spindles.length = 24 * s.mon.strips.length) (counts : List Nat) (expected i : Nat) :
    (replyTaken k counts expected s).sp i = if 24 * (k - 1) < i ∧ i ≤ 24 * k then
        { s.sp i with lastClass :=
            if expected < 32 then .none else classOf s.cfg expected (counts.getD ((i - 1) % 24) 0) }
      else s.sp i := by
  simp only [← mem_indicesOf hk]
  exact each_modifySp_sp (nodup_indicesOf k) (replyRecord s.cfg expected counts) (fun hi => hasSpindle_of_strip (s := s) hk hks hn hi)

/-- STRIP_READ in RUNNING takes the reply of the strip whose turn it is and moves the rotation on (R23). -/
theorem exec_stripRead {s : State} (hw : s.works) {pass k : Nat} (hrot : s.mon.rotation = some { pass := pass, strip := k })
    (reply : Option (List Nat)) :
    exec (.stripRead reply) s = .next
      (let u := match reply with
        | some counts => goodReply k counts s
        | none => missedReply k s
       { u with mon := { u.mon with
          rotation := some (Rotation.next u.mon.strips.length { pass := pass, strip := k }) } }) := by
  refine (inRunning_works hw _).trans ?_
  cases reply <;> simp only [hrot]

theorem rotation_next (n pass k : Nat) :
    Rotation.next n { pass := pass, strip := k } =
      if k < n then { pass := pass, strip := k + 1 } else { pass := pass + 1, strip := 1 } := rfl

theorem replyTaken_strips_length (k : Nat) (counts : List Nat) (expected : Nat) (s : State) :
    (replyTaken k counts expected s).mon.strips.length = s.mon.strips.length := by
  rw [replyTaken, each_keeps (fun u => u.mon.strips.length) (indicesOf k)
    (fun i => modifySp i (replyRecord s.cfg expected counts i)) (fun _ _ => rfl)]
  exact length_setNth _ _ _

/-- The spindle monitor with its rotation set (R23). -/
def Monitor.withRotation (r : Option Rotation) (m : Monitor) : Monitor := { m with rotation := r }

/-- Moving the rotation on changes nothing but it. -/
theorem setRotation_onlyIn {s u : State} {bs : List Block} (hbs : Block.mon ∈ bs) (h : onlyIn bs s u) (r : Option Rotation) :
    onlyIn bs s { u with mon := { u.mon with rotation := r } } := by
  obtain ⟨hpending, hsame⟩ := h
  refine ⟨hpending, fun b hb => ?_⟩
  cases b with
  | mon => exact absurd hbs hb
  | _ => exact hsame _ hb

theorem classifies_iff (d : DoffState) :
    d.classifies = true ↔ d = .spinning ∨ d = .claimed ∨ d = .fullWait ∨ d = .granted ∨ d = .unknown := by
  cases d <;> simp [DoffState.classifies]

/-- Settles O9: with too few expected, or in RUNDOWN to SETTLING, the reply is `replyTaken` alone. -/
theorem stripReadWithoutClassifying : Obligations.StripReadWithoutClassifying := by
  intro s counts pass k hw hrot hk hks hn hok expected hplain
  have hexpected : expected = expectedAt k s := by simp only [expected, expectedAt, expectedCount, State.count]
  clear_value expected
  have hnot : ¬ (Config.minExpected ≤ expectedAt k s ∧ s.doff.state.classifies = true) := by
    rw [classifies_iff, ← hexpected]
    rintro ⟨h32, hd⟩
    obtain h | h | h | h | h := hplain
    · exact absurd h32 (not_le.mpr h)
    all_goals simp [h] at hd
  obtain ⟨hself, hother⟩ := replyTaken_strip hk hks counts expected
  have hkept := replyTaken_onlyIn k counts expected s
  have hmon := replyTaken_mon k counts expected s
  have hsp := replyTaken_sp hk hks hn counts expected
  have hlength := replyTaken_strips_length k counts expected s
  have hreply : goodReply k counts s = replyTaken k counts expected s := by
    rw [goodReply_ok hok, if_neg hnot, hexpected]
  generalize replyTaken k counts expected s = u at *
  refine ⟨_, exec_stripRead hw hrot (some counts), ?_⟩
  dsimp only
  rw [hreply, hlength, rotation_next]
  exact ⟨setRotation_onlyIn List.mem_cons_self hkept _, congrArg (Monitor.withRotation _) hmon, hself,
    hother, hsp⟩

/-- Settles O10: the reply is `replyTaken`, and then the 24 records in ascending order. -/
theorem stripReadClassifiesInOrder : Obligations.StripReadClassifiesInOrder := by
  intro s counts pass k hw hrot hk hks hn hok expected h32 hd
  have hexpected : expected = expectedAt k s := by simp only [expected, expectedAt, expectedCount, State.count]
  clear_value expected
  obtain ⟨hself, hother⟩ := replyTaken_strip hk hks counts expected
  refine ⟨replyTaken k counts expected s, replyTaken_onlyIn k counts expected s, replyTaken_mon k counts expected s, hother,
    fun i => ?_, hself, _, exec_stripRead hw hrot (some counts), ?_⟩
  · rw [replyTaken_sp hk hks hn, if_neg (not_lt.mpr h32)]
  · have hlength : (each (indicesOf k) classify (replyTaken k counts expected s)).mon.strips.length = s.mon.strips.length := by
      obtain ⟨hstrips, -⟩ := beside_fields (each_beside (indicesOf k) classify_beside (replyTaken k counts expected s))
      rw [hstrips, replyTaken_strips_length]
    dsimp only
    rw [goodReply_ok hok, if_pos ⟨hexpected ▸ h32, (classifies_iff _).mpr hd⟩, ← hexpected, hlength, rotation_next,
      indicesOf_eq]

/-! ### Recovery of a failed strip (R33) -/

theorem goodReply_failed {k : Nat} {s : State} (h : (s.strip k).failed = true) (counts : List Nat) :
    goodReply k counts s =
      each (indicesOf k) recoverRecord (setStrip k (Strip.good s.count s.now (expectedAt k s) counts) s) := by
  unfold goodReply
  simp only [h, if_true]
  rfl

/-- A record whose last class has been cleared, as a recovery leaves it before it moves (R33). -/
def Spindle.declassed (r : Spindle) : Spindle := { r with lastClass := .none }

theorem recoverRecord_eq {i : Nat} {s : State} (hi : s.hasSpindle i = true) :
    recoverRecord i s = if (s.sp i).state = .unobserved then
        bookEnter i (if (s.sp i).rogueMark then .rogue else .unseen) (modifySp i Spindle.declassed s)
      else modifySp i Spindle.declassed s := by
  have hself := modifySp_sp_self hi Spindle.declassed
  have hstate : ((modifySp i Spindle.declassed s).sp i).state = (s.sp i).state := by rw [hself]; rfl
  have hmark : ((modifySp i Spindle.declassed s).sp i).rogueMark = (s.sp i).rogueMark := by rw [hself]; rfl
  rw [← hstate, ← hmark]
  rfl

theorem recoverRecord_sp_ne {i j : Nat} (s : State) (h : i ≠ j) : (recoverRecord i s).sp j = s.sp j := by
  unfold recoverRecord
  dsimp only
  split
  · exact (bookEnter_sp_ne h _ _).trans (modifySp_sp_ne h _ _)
  · exact modifySp_sp_ne h _ _

theorem recoverRecord_closing (i : Nat) (s : State) (hc : s.shift.closing = none) :
    (recoverRecord i s).shift.closing = none := by
  unfold recoverRecord
  dsimp only
  split
  · exact bookEnter_closing (by simpa using hc) _ _
  · simpa using hc

/-- An UNOBSERVED record, LOCKED or ROGUE enters no queue and is not counted among the ends down: its move leaves the piecing engine
and the frame interface alone. -/
theorem enter_outside {i : Nat} {st : SpState} {s : State}
    (hold : (s.sp i).state.counts = false) (hnew : st.counts = false) :
    (enter i st s).pie = s.pie ∧ (enter i st s).frame = s.frame := by
  have hstate : ((touch i s).sp i).state.counts = false := by rw [touch_state]; exact hold
  have hold' : ((touch i s).sp i).state ≠ .queued ∧ ((touch i s).sp i).state ≠ .waiting := by
    constructor <;> intro h <;> simp [h, SpState.counts] at hstate
  have hnew' : st ≠ .queued ∧ st ≠ .waiting := by
    constructor <;> intro h <;> simp [h, SpState.counts] at hnew
  unfold enter
  dsimp only
  rw [requeue_outside i hold' hnew', if_pos (hstate.trans hnew.symm)]
  simp

theorem recoverRecord_pie_frame (i : Nat) (s : State) :
    (recoverRecord i s).pie = s.pie ∧ (recoverRecord i s).frame = s.frame := by
  unfold recoverRecord
  dsimp only
  split
  · rename_i h
    obtain ⟨hpie, hframe⟩ := enter_outside (i := i)
      (st := if ((modifySp i (fun r => { r with lastClass := .none }) s).sp i).rogueMark = true then .rogue else .unseen)
      (s := book i (modifySp i (fun r => { r with lastClass := .none }) s))
      (by rw [book_state, h]; rfl) (by split <;> rfl)
    exact ⟨hpie.trans (by simp), hframe.trans (by simp)⟩
  · simp

theorem lose_lastClass (r : Spindle) (cause : Option Cause) (pulses : Nat) : (r.lose cause pulses).lastClass = r.lastClass := by
  unfold Spindle.lose
  split <;> rfl

/-- What the recovery of its strip makes of a record (R33), at device second `now` and delivery count `count`. -/
def Spindle.Recovers (now count : Nat) (r r' : Spindle) : Prop :=
  r'.lastClass = .none ∧
  (r.state = .unobserved → r.rogueMark = true →
    r'.state = .rogue ∧ r'.cause = some .rogue ∧ r'.downSince = some now ∧ r'.bookedTo = some count) ∧
  (r.state = .unobserved → r.rogueMark = false → r'.state = .unseen ∧ r'.cause = none ∧ r'.bookedTo = some count) ∧
  (r.state ≠ .unobserved → r' = { r with lastClass := .none })

/-- One record of a strip that recovers: an UNOBSERVED one is booked and enters ROGUE or UNSEEN (R33). -/
theorem recoverRecord_self {i : Nat} {s : State} (hi : s.hasSpindle i = true) (hc : s.shift.closing = none) :
    (s.sp i).Recovers s.del.seconds s.del.count ((recoverRecord i s).sp i) := by
  have hself := modifySp_sp_self hi Spindle.declassed
  have hi' : (modifySp i Spindle.declassed s).hasSpindle i = true := by simpa using hi
  have hc' : (modifySp i Spindle.declassed s).shift.closing = none := by simpa using hc
  rw [recoverRecord_eq hi]
  unfold Spindle.Recovers
  by_cases hu : (s.sp i).state = .unobserved
  · rw [if_pos hu, bookEnter_self hi' hc' (if (s.sp i).rogueMark then .rogue else .unseen)]
    have hbooked : ((book i (modifySp i Spindle.declassed s)).sp i).state = .unobserved := by
      rw [book_state, hself]
      exact hu
    have hclass : ((book i (modifySp i Spindle.declassed s)).sp i).lastClass = .none := by
      rw [book_self hi' hc', hself]
      split
      · rfl
      · exact lose_lastClass _ _ _
    refine ⟨by simp [hclass], fun _ hm => ?_, fun _ hm => ?_, fun h => absurd hu h⟩
    · simp [hm, moved_state, moved_cause, moved_downSince, moved_bookedTo, hbooked, SpState.isDown, SpState.cause,
        State.now, State.count]
    · simp [hm, moved_state, moved_cause, moved_bookedTo, SpState.isDown, SpState.cause, State.count]
  · rw [if_neg hu, hself]
    exact ⟨rfl, fun h => absurd h hu, fun h => absurd h hu, fun _ => rfl⟩

/-- The recovery of the records `l`: each is taken as `Spindle.Recovers` says, every other one is left alone. -/
theorem each_recoverRecord {l : List Nat} (hnodup : l.Nodup) {u : State} (hl : ∀ i ∈ l, u.hasSpindle i = true)
    (hc : u.shift.closing = none) :
    onlyIn [.mon, .shift] u (each l recoverRecord u) ∧
    (∀ i ∈ l, (u.sp i).Recovers u.del.seconds u.del.count ((each l recoverRecord u).sp i)) ∧
    (∀ i ∉ l, (each l recoverRecord u).sp i = u.sp i) := by
  have hne : ∀ j i (v : State), i ≠ j → (recoverRecord i v).sp j = v.sp j := fun j i v h => recoverRecord_sp_ne v h
  refine ⟨⟨by simp, fun b hb => ?_⟩, fun i hi => ?_, fun i hi => each_sp_notMem (hne i) hi u⟩
  · cases b with
    | mon | shift => simp at hb
    | pie => exact each_keeps State.pie l recoverRecord (fun i u => (recoverRecord_pie_frame i u).1) u
    | frame => exact each_keeps State.frame l recoverRecord (fun i u => (recoverRecord_pie_frame i u).2) u
    | _ => simp [Block.same]
  · obtain ⟨before, hkept, hown⟩ := each_sp_mem (hne i) hi hnodup u
    have hhas : (each before recoverRecord u).hasSpindle i = true :=
      (has_of_beside (each_beside before recoverRecord_beside u) i).trans (hl i hi)
    have hrecord := recoverRecord_self hhas (each_closing recoverRecord_closing before hc)
    rw [hown, ← hkept]
    simpa using hrecord

theorem setStrip_onlyIn (k : Nat) (t : Strip) (s : State) : onlyIn [.mon] s (setStrip k t s) :=
  ⟨rfl, fun b hb => by cases b <;> simp_all [Block.same]⟩

/-- Settles O12: the strip's new record, and `each_recoverRecord` for its records. -/
theorem failedStripRecovers : Obligations.FailedStripRecovers := by
  intro s counts pass k hw hrot hk hks hn hfailed hc
  have hexpected : expectedAt k s = (s.del.count - (s.strip k).reference) * s.cfg.circumference *
      ((s.del.active.map Article.twist).getD 0) / (s.cfg.ppr * 1000000) := by
    simp only [expectedAt, expectedCount, State.count]
  refine ⟨_, exec_stripRead hw hrot (some counts), ?_⟩
  dsimp only
  rw [goodReply_failed hfailed, ← hexpected]
  have hreply := setStrip_onlyIn k (Strip.good s.count s.now (expectedAt k s) counts) s
  have hstrip := strip_setStrip_self k (Strip.good s.count s.now (expectedAt k s) counts) s hk hks
  have hsp : ∀ i, (setStrip k (Strip.good s.count s.now (expectedAt k s) counts) s).sp i = s.sp i := fun _ => rfl
  have hhas : ∀ i ∈ indicesOf k, (setStrip k (Strip.good s.count s.now (expectedAt k s) counts) s).hasSpindle i = true :=
    fun i hi => hasSpindle_of_strip (s := s) hk hks hn hi
  generalize setStrip k (Strip.good s.count s.now (expectedAt k s) counts) s = u at hreply hstrip hsp hhas ⊢
  have hclosing : u.shift.closing = none := (congrArg ShiftCounter.closing (hreply.2 .shift (by simp))).trans hc
  have hdel : u.del = s.del := hreply.2 .del (by simp)
  obtain ⟨hrest, hinside, houtside⟩ := each_recoverRecord (nodup_indicesOf k) hhas hclosing
  have hstrips := (strip_of_beside (each_beside (indicesOf k) recoverRecord_beside u) k).trans hstrip
  generalize each (indicesOf k) recoverRecord u = v at hrest hinside houtside hstrips ⊢
  simp only [mem_indicesOf hk, hdel, hsp] at hinside houtside
  refine ⟨setRotation_onlyIn (by simp) ⟨hrest.1.trans hreply.1, fun b hb => ?_⟩ _, congrArg Strip.failed hstrips,
    congrArg Strip.missed hstrips, congrArg Strip.reference hstrips, congrArg Strip.lastAnswered hstrips,
    congrArg Strip.lastCounts hstrips, congrArg Strip.lastExpected hstrips, fun i hlo hhi => hinside i ⟨hlo, hhi⟩, houtside⟩
  have hmon : b ∉ [Block.mon] := fun h => hb (by simp_all)
  cases b with
  | mon | shift => simp at hb
  | _ => exact (hrest.2 _ hb).trans (hreply.2 _ hmon)

end Sys2Proof.Machine
end

section
/-! PROOFS. A missed reply counts, or fails the strip (R24, R32). -/

namespace Sys2Proof.Machine

theorem missedReply_eq (k : Nat) (s : State) :
    missedReply k s = if 3 ≤ (s.strip k).missed + 1 ∧ (s.strip k).failed = false then
        failStrip k (setStrip k { s.strip k with missed := min 3 ((s.strip k).missed + 1) } s)
      else setStrip k { s.strip k with missed := min 3 ((s.strip k).missed + 1) } s := rfl

/-- A record booked and moved keeps its rogue mark, its lazy flag and, into UNOBSERVED, its attempts, also while a close is in
progress. -/
theorem bookEnter_unobserved {i : Nat} {s : State} (hi : s.hasSpindle i = true) :
    ((bookEnter i .unobserved s).sp i).state = .unobserved ∧ ((bookEnter i .unobserved s).sp i).cause = none ∧
    ((bookEnter i .unobserved s).sp i).bookedTo = some s.del.count ∧
    ((bookEnter i .unobserved s).sp i).rogueMark = (s.sp i).rogueMark ∧
    ((bookEnter i .unobserved s).sp i).lazy = (s.sp i).lazy ∧
    ((bookEnter i .unobserved s).sp i).attempts = (s.sp i).attempts := by
  have hi' : (book i s).hasSpindle i = true := by simpa using hi
  obtain ⟨hmark, hattempts, hlazy⟩ := touch_marks hi'
  obtain ⟨hmark', hattempts', hlazy'⟩ := book_marks hi
  rw [bookEnter, enter_sp_self hi']
  refine ⟨moved_state .., moved_cause .., ?_, ?_, ?_, ?_⟩
  · simp [moved_bookedTo, SpState.isDown, SpState.cause, State.count]
  · rw [moved_rogueMark, hmark, hmark']
  · rw [moved_lazy, hlazy, hlazy']
  · rw [moved_attempts, hattempts, hattempts']
    simp

/-- What the failure of its strip makes of a record (R32), at delivery count `count`. -/
def Spindle.Unobserves (count : Nat) (r r' : Spindle) : Prop :=
  (r.state = .locked → r' = r) ∧
  (r.state ≠ .locked → r'.state = .unobserved ∧ r'.cause = none ∧
    (r.state ≠ .unobserved → r'.bookedTo = some count) ∧
    r'.rogueMark = r.rogueMark ∧ r'.lazy = r.lazy ∧ r'.attempts = r.attempts)

theorem unobserve_self {i : Nat} {s : State} (hi : s.hasSpindle i = true) (htab : s.tabled) :
    (s.sp i).Unobserves s.del.count ((unobserve i s).sp i) := by
  have hwithdrawn := bookEnter_unobserved (i := i) (s := withdrawOrder i s)
    ((has_of_mon (s := s) (by simp) i).trans hi)
  rw [sp_of_mon (s := s) (t := withdrawOrder i s) (by simp) i, show (withdrawOrder i s).del = s.del by simp] at hwithdrawn
  have hmoved := bookEnter_unobserved hi
  have hcause := (htab.2.1 _ (sp_mem hi)).1
  unfold Spindle.Unobserves unobserve
  cases hst : (s.sp i).state with
  | locked => simp
  | unobserved => simp [hst, hcause, SpState.cause]
  | ordered =>
    obtain ⟨h1, h2, h3, h4, h5, h6⟩ := hwithdrawn
    exact ⟨nofun, fun _ => ⟨h1, h2, fun _ => h3, h4, h5, h6⟩⟩
  | up | unseen | waiting | queued | confirming | empty | exchange | rogue =>
    obtain ⟨h1, h2, h3, h4, h5, h6⟩ := hmoved
    exact ⟨nofun, fun _ => ⟨h1, h2, fun _ => h3, h4, h5, h6⟩⟩

theorem unobserve_sp_ne {i j : Nat} (s : State) (h : i ≠ j) : (unobserve i s).sp j = s.sp j := by
  unfold unobserve
  split
  · rfl
  · rfl
  · exact (bookEnter_sp_ne h _ _).trans (sp_of_mon (by simp) j)
  · exact bookEnter_sp_ne h _ _

/-- The records of a strip that fails. -/
theorem each_unobserve {l : List Nat} (hnodup : l.Nodup) {u : State} (htab : u.tabled) (hl : ∀ i ∈ l, u.hasSpindle i = true) :
    (each l unobserve u).tabled ∧ ∀ i ∈ l, (u.sp i).Unobserves u.del.count ((each l unobserve u).sp i) := by
  have hne : ∀ j i (v : State), i ≠ j → (unobserve i v).sp j = v.sp j := fun j i v h => unobserve_sp_ne v h
  have htabled : ∀ before, (each before unobserve u).tabled := fun before =>
    each_keepsProp State.tabled before unobserve (fun i v hv => tabled_unobserve hv i) htab
  refine ⟨htabled l, fun i hi => ?_⟩
  obtain ⟨before, hkept, hown⟩ := each_sp_mem (hne i) hi hnodup u
  have hhas : (each before unobserve u).hasSpindle i = true :=
    (has_of_beside (each_beside before unobserve_beside u) i).trans (hl i hi)
  have hrecord := unobserve_self hhas (htabled before)
  rw [hown, ← hkept]
  simpa using hrecord

/-- A record that the failure of its strip has taken is in no queue and no waiting set. -/
theorem Spindle.Unobserves.state {count : Nat} {r r' : Spindle} (h : r.Unobserves count r') :
    r'.state = .locked ∨ r'.state = .unobserved := by
  by_cases hr : r.state = .locked
  · exact .inl ((congrArg Spindle.state (h.1 hr)).trans hr)
  · exact .inr (h.2 hr).1

/-- The failure of strip `k`: the strip's flag, its records by `each_unobserve`, which the piecing engine leaves alone after it, and
the alert. -/
theorem failStrip_effect {k : Nat} {s : State} (htab : s.tabled) (hk : 1 ≤ k) (hks : k ≤ s.mon.strips.length)
    (hn : s.mon.spindles.length = 24 * s.mon.strips.length) :
    (failStrip k s).besideRecords = (setStrip k { s.strip k with failed := true } s).besideRecords ∧
    (∀ i ∈ indicesOf k, (s.sp i).Unobserves s.del.count ((failStrip k s).sp i)) ∧
    alerted .stripLost (some k) (failStrip k s) := by
  unfold failStrip
  dsimp only
  have hsp : ∀ i, (setStrip k { s.strip k with failed := true } s).sp i = s.sp i := fun _ => rfl
  have hdel : (setStrip k { s.strip k with failed := true } s).del = s.del := rfl
  have htab' : (setStrip k { s.strip k with failed := true } s).tabled := tabled_setStrip htab _ _
  have hhas : ∀ i ∈ indicesOf k, (setStrip k { s.strip k with failed := true } s).hasSpindle i = true :=
    fun i hi => hasSpindle_of_strip (s := s) hk hks hn hi
  generalize setStrip k { s.strip k with failed := true } s = u at *
  obtain ⟨htabled, hrecords⟩ := each_unobserve (nodup_indicesOf k) htab' hhas
  refine ⟨(raiseAlert_beside ..).trans (piecingEvent_beside (each_beside (indicesOf k) unobserve_beside u)),
    fun i hi => ?_, alerted_raise ..⟩
  have hrecord := hrecords i hi
  have hstate := hrecord.state
  rw [sp_of_mon (raiseAlert_frame ..).2.1, piecingEvent_sp _ htabled i (by rcases hstate with h | h <;> simp [h])
    (by rcases hstate with h | h <;> simp [h]), ← hdel, ← hsp]
  exact hrecord

/-- Settles O11: short of the third miss the strip record alone changes; the third fails the strip by `failStrip_effect`. -/
theorem missedReplyCountsOrFailsStrip : Obligations.MissedReplyCountsOrFailsStrip := by
  intro s pass k hw htab hrot hk hks hn
  refine ⟨_, exec_stripRead hw hrot none, ?_⟩
  dsimp only
  rw [missedReply_eq]
  have hlength : ∀ t, (setStrip k t s).mon.strips.length = s.mon.strips.length := fun t => length_setNth _ _ _
  by_cases hfails : 3 ≤ (s.strip k).missed + 1 ∧ (s.strip k).failed = false
  · rw [if_pos hfails]
    obtain ⟨hthird, hok⟩ := hfails
    obtain ⟨hbeside, hrecords, halert⟩ := failStrip_effect (s := setStrip k { s.strip k with missed := min 3 ((s.strip k).missed + 1) } s)
      (tabled_setStrip htab _ _) hk (hks.trans_eq (hlength _).symm) (hn.trans (congrArg (24 * ·) (hlength _).symm))
    have hframe := failStrip_frame k (setStrip k { s.strip k with missed := min 3 ((s.strip k).missed + 1) } s)
    have hself : (setStrip k { s.strip k with missed := min 3 ((s.strip k).missed + 1) } s).strip k =
        { s.strip k with missed := min 3 ((s.strip k).missed + 1) } := strip_setStrip_self k _ s hk hks
    have hother : ∀ m, m ≠ k → (setStrip k { s.strip k with missed := min 3 ((s.strip k).missed + 1) } s).strip m = s.strip m :=
      fun m hm => strip_setStrip_ne k m _ s hm.symm
    have hkept := setStrip_onlyIn k { s.strip k with missed := min 3 ((s.strip k).missed + 1) } s
    have hsp : ∀ i, (setStrip k { s.strip k with missed := min 3 ((s.strip k).missed + 1) } s).sp i = s.sp i := fun _ => rfl
    have hlength' := hlength { s.strip k with missed := min 3 ((s.strip k).missed + 1) }
    generalize setStrip k { s.strip k with missed := min 3 ((s.strip k).missed + 1) } s = u at *
    obtain ⟨hstrips, -⟩ := beside_fields hbeside
    have hlength'' : (failStrip k u).mon.strips.length = s.mon.strips.length :=
      (congrArg List.length hstrips).trans ((length_setNth _ _ _).trans hlength')
    have hdel : u.del = s.del := hkept.2 .del (by simp)
    rw [hlength'', rotation_next]
    generalize failStrip k u = v at *
    refine ⟨rfl, ?_, fun m hm => ?_, fun h => ?_, fun _ _ => ⟨setRotation_onlyIn (by simp) ⟨?_, fun b hb => ?_⟩ _, ?_, halert⟩⟩
    · refine (strip_of_beside hbeside k).trans ((strip_setStrip_self k _ u hk (hks.trans_eq hlength'.symm)).trans ?_)
      rw [hself]
      simp [show 2 ≤ (s.strip k).missed by omega]
    · exact (strip_of_beside hbeside m).trans ((strip_setStrip_ne k m _ u hm.symm).trans (hother m hm))
    · rcases h with h | h
      · omega
      · simp [hok] at h
    · exact hframe.2.2.2.2.trans hkept.1
    · have hmon : b ∉ [Block.mon] := fun h => hb (by simp_all)
      have hu := hkept.2 b hmon
      cases b <;> simp_all [Block.same]
    · intro i hlo hhi
      rw [← hdel, ← hsp]
      exact hrecords i ((mem_indicesOf hk).mpr ⟨hlo, hhi⟩)
  · rw [if_neg hfails, hlength, rotation_next]
    have hfailed : ((s.strip k).failed || decide (2 ≤ (s.strip k).missed)) = (s.strip k).failed := by
      rcases Bool.eq_false_or_eq_true (s.strip k).failed with h | h
      · simp [h]
      · simp only [h, Bool.false_or, decide_eq_false_iff_not]
        exact fun h2 => hfails ⟨by omega, h⟩
    rw [hfailed]
    refine ⟨rfl, strip_setStrip_self k _ s hk hks, fun m hm => strip_setStrip_ne k m _ s hm.symm,
      fun _ => ⟨setRotation_onlyIn (by simp) (setStrip_onlyIn k _ s) _, rfl⟩,
      fun h2 hok => absurd ⟨by omega, hok⟩ hfails⟩

end Sys2Proof.Machine
end

section
/-! PROOFS. Booking takes each pulse once (R22, R145). -/

namespace Sys2Proof.Machine

theorem setNth_nth {α : Type} (d : α) (l : List α) (n : Nat) (h1 : 1 ≤ n) (h2 : n ≤ l.length) :
    setNth l n (nth d l n) = l := by
  obtain ⟨m, rfl⟩ : ∃ m, n = m + 1 := ⟨n - 1, by omega⟩
  simp only [setNth, nth, List.getD_eq_getElem l d h2]
  exact List.set_getElem_self h2

theorem setSp_sp {i : Nat} {s : State} (hi : s.hasSpindle i = true) : setSp i (s.sp i) s = s := by
  have h := setNth_nth Spindle.blank s.mon.spindles i (range_of_has hi).1 (range_of_has hi).2
  unfold setSp State.sp
  rw [h]

/-- A record booked with no close in progress, as one equation. -/
theorem book_eq {i b : Nat} {s : State} (hc : s.shift.closing = none) (hb : (s.sp i).bookedTo = some b) :
    book i s = { setSp i { (s.sp i).lose (s.sp i).cause (s.count - b) with bookedTo := some s.count } s with
      shift := { s.shift with opened := s.shift.opened.book (s.sp i).cause (s.count - b) } } := by
  simp only [book, bookOpen, touch_idle hc, hb, Option.isSome_some, if_true]
  rfl

theorem Segment.book_zero (c : Cause) (g : Segment) : g.book c 0 = g := by cases c <;> rfl

/-- What losses of a cause do to a segment, field by field. -/
theorem Segment.book_eq (c : Cause) (n : Nat) (g : Segment) : g.book c n = { g with
    brk := if c = .brk then g.brk + n else g.brk
    roving := if c = .roving then g.roving + n else g.roving
    lockout := if c = .lockout then g.lockout + n else g.lockout
    rogue := if c = .rogue then g.rogue + n else g.rogue
    openLosses := g.openLosses + n } := by cases c <;> rfl

/-- What a counted event does to a segment, field by field. -/
theorem Segment.countOne_eq (k : Counted) (g : Segment) : g.countOne k = { g with
    breaks := if k = .brk then min 65535 (g.breaks + 1) else g.breaks
    doffStarts := if k = .doffStart then min 65535 (g.doffStarts + 1) else g.doffStarts
    byRobot := if k = .byRobot then min 65535 (g.byRobot + 1) else g.byRobot
    byHand := if k = .byHand then min 65535 (g.byHand + 1) else g.byHand } := by cases k <;> rfl

theorem addCapped_zero {limit a : Nat} (h : a ≤ limit) : addCapped limit a 0 = a := Nat.min_eq_right h

theorem Spindle.lose_some (c : Cause) (n : Nat) (r : Spindle) :
    r.lose (some c) n = { r with lostSinceBase := min 281474976710655 (r.lostSinceBase + n) } := rfl

theorem Spindle.lose_none (n : Nat) (r : Spindle) : r.lose none n = r := rfl

theorem Shift.book_some (c : Cause) (n : Nat) (sh : Shift) :
    sh.book (some c) n = { sh with segments := modifyLast (Segment.book c n) sh.segments } := rfl

theorem Shift.book_none (n : Nat) (sh : Shift) :
    sh.book none n = { sh with unobserved := min 18446744073709551615 (sh.unobserved + n) } := rfl

/-- A record booked up to the present count books no pulse more. -/
theorem book_atCount {i : Nat} {s : State} (hi : s.hasSpindle i = true) (hc : s.shift.closing = none)
    (hb : (s.sp i).bookedTo = some s.count) (hlost : (s.sp i).lostSinceBase ≤ Config.maxCount)
    (hun : s.shift.opened.unobserved ≤ Config.max64) {first : List Segment} {g : Segment}
    (hsegments : s.shift.opened.segments = first ++ [g]) : book i s = s := by
  have hrecord : ({ (s.sp i).lose (s.sp i).cause 0 with bookedTo := some s.count } : Spindle) = s.sp i := by
    have hsame : (s.sp i).lose (s.sp i).cause 0 = s.sp i := by
      unfold Spindle.lose
      rw [addCapped_zero hlost]
      split <;> rfl
    rw [hsame, ← hb]
  have hopened : s.shift.opened.book (s.sp i).cause 0 = s.shift.opened := by
    cases (s.sp i).cause with
    | none => exact congrArg (fun n => { s.shift.opened with unobserved := n }) (addCapped_zero hun)
    | some c => rw [Shift.book_some, hsegments, modifyLast_append, Segment.book_zero, ← hsegments]
  rw [book_eq hc hb, Nat.sub_self, hrecord, hopened, setSp_sp hi]

/-- Settles O14. -/
theorem bookingTakesEachPulseOnce : Obligations.BookingTakesEachPulseOnce := by
  refine ⟨fun s i h => book_none h, fun s k first g hsegments => ?_, fun s i first g hi hc hsegments => ?_⟩
  · simp only [countEvent, hsegments, modifyLast_append, Segment.countOne_eq]
  intro r t b hb n
  have hself : t.sp i = { r.lose r.cause n with bookedTo := some s.count } := by
    rw [show t.sp i = _ from book_self hi hc, show (s.sp i).bookedTo = some b from hb]
    rfl
  have hshift : t.shift = { s.shift with opened := s.shift.opened.book r.cause n } := by
    rw [show t.shift = _ from book_shift hc, show (s.sp i).bookedTo = some b from hb]
    rfl
  refine ⟨⟨by simp [t], fun b hb => by cases b <;> simp_all [Block.same, t]⟩, fun j hj => book_sp_ne hj.symm s, fun c hcause => ⟨?_, ?_⟩,
    fun hcause => ⟨?_, ?_⟩, fun hlost hun => ?_⟩
  · rw [hself, hcause, Spindle.lose_some]
    simp only [hcause, State.count]
  · rw [hshift, hcause, Shift.book_some, hsegments, modifyLast_append, Segment.book_eq]
  · rw [hself, hcause, Spindle.lose_none]
    simp only [hcause, State.count]
  · rw [hshift, hcause, Shift.book_none]
  · obtain ⟨g', hg'⟩ : ∃ g', t.shift.opened.segments = first ++ [g'] := by
      rw [hshift]
      cases r.cause with
      | none => exact ⟨g, hsegments⟩
      | some c => exact ⟨g.book c n, by simp only [Shift.book_some, hsegments, modifyLast_append]⟩
    refine book_atCount (by simpa [t] using hi) (by rw [hshift]; exact hc) ?_ ?_ ?_ hg'
    · rw [hself]
      simp [t, State.count]
    · rw [hself]
      show (r.lose r.cause n).lostSinceBase ≤ _
      unfold Spindle.lose
      split
      · exact Nat.min_le_left _ _
      · exact hlost
    · rw [hshift]
      cases r.cause with
      | none => exact Nat.min_le_left _ _
      | some c => exact hun

end Sys2Proof.Machine
end

section
/-! PROOFS. Host commands that refuse or complete, and the lockout range with its pin (R35 to R37, R182). -/

namespace Sys2Proof.Machine

/-! ### Host commands with the port open -/

theorem running_of_works {s : State} (h : s.works) : s.running = true := by simp [State.running, h.2]

theorem hostRow_refused {s : State} (hopen : s.portOpen) {c : Command} {tag k : Nat} {r : Result}
    (h : perform c tag s = Effect.refuse r s) (hk : commandKind c = k) :
    hostRow c tag s = .next { s with port := s.port.completed k tag r [] } := by
  rw [hostRow_open hopen, h, finish_refuse, hk]

theorem hostRow_done {s t : State} (hopen : s.portOpen) {c : Command} {tag k : Nat} (h : perform c tag s = Effect.done t)
    (hk : commandKind c = k) :
    hostRow c tag s = .next { t with port := t.port.completed k tag .done [] } := by
  rw [hostRow_open hopen, h, finish_done, hk]

/-- A change of the port is no change of another block. -/
theorem onlyIn_setPort {bs : List Block} {s t : State} (h : onlyIn bs s t) (hbs : Block.port ∈ bs) (p : Port) :
    onlyIn bs s { t with port := p } := by
  refine ⟨h.1, fun b hb => ?_⟩
  cases b with
  | port => exact absurd hbs hb
  | _ => exact h.2 _ hb

/-! ### A record booked and moved, close or no close -/

/-- Record `i` is due no close step: no close is in progress, or it carries the open shift's number (R39). -/
def State.settled (i : Nat) (s : State) : Prop :=
  s.shift.closing = none ∨ (s.sp i).shiftTag = s.shift.opened.number

theorem touch_settled {i : Nat} {s : State} (h : s.settled i) : touch i s = s := by
  obtain h | h := h
  · exact touch_idle h i
  · unfold touch
    split <;> simp [h]

theorem closed_shiftTag (p tag : Nat) (r : Spindle) : (r.closed p tag).2.shiftTag = tag := by
  unfold Spindle.closed
  repeat' split
  all_goals rfl

/-- A touched record has taken its close step. -/
theorem settled_touch {i : Nat} {s : State} (hi : s.hasSpindle i = true) : (touch i s).settled i := by
  unfold touch
  split
  · split
    · exact .inr (by assumption)
    · exact .inr ((congrArg Spindle.shiftTag (sp_setSp_self _ _ _ (range_of_has hi).1 (range_of_has hi).2)).trans
        (closed_shiftTag _ _ _))
  · exact .inl (by assumption)

theorem bookOpen_closing (i : Nat) (s : State) : (bookOpen i s).shift.closing = s.shift.closing := by
  unfold bookOpen
  dsimp only
  split <;> rfl

theorem bookOpen_tag (i : Nat) {s : State} (hi : s.hasSpindle i = true) :
    ((bookOpen i s).sp i).shiftTag = (s.sp i).shiftTag ∧ (bookOpen i s).shift.opened.number = s.shift.opened.number := by
  unfold bookOpen
  dsimp only
  split
  · exact ⟨rfl, rfl⟩
  · refine ⟨?_, ?_⟩
    · exact (congrArg Spindle.shiftTag (sp_setSp_self _ _ _ (range_of_has hi).1 (range_of_has hi).2)).trans (lose_shiftTag _ _ _)
    · show (Shift.book _ _ _).number = _
      unfold Shift.book
      split <;> rfl

/-- A booked record has taken its close step. -/
theorem settled_book {i : Nat} {s : State} (hi : s.hasSpindle i = true) (hb : (s.sp i).bookedTo.isSome = true) :
    (book i s).settled i := by
  cases hc : s.shift.closing with
  | none => exact .inl (book_closing i hc)
  | some cl =>
    obtain ⟨htag, hnumber⟩ := bookOpen_tag i (s := touch i s) (by simpa using hi)
    rw [book, if_pos hb]
    obtain hnone | hsame := settled_touch hi
    · exact .inl (by rw [bookOpen_closing]; exact hnone)
    · exact .inr (by rw [htag, hnumber, hsame])

/-- A record in any state but UP has a booked-to (R21). -/
theorem bookedTo_of_sound {r : Spindle} (h : r.sound) (hup : r.state ≠ .up) : r.bookedTo.isSome = true := by
  have hnone := h.2.1
  cases hb : r.bookedTo with
  | none => simp [hb, hup] at hnone
  | some b => rfl

/-- A booked record stands booked up to the present count. -/
theorem book_bookedTo {i : Nat} {s : State} (hi : s.hasSpindle i = true) (hb : (s.sp i).bookedTo.isSome = true) :
    ((book i s).sp i).bookedTo = some s.count := by
  obtain ⟨b, hb'⟩ := Option.isSome_iff_exists.mp ((touch_booked i i s).trans hb)
  rw [book_sp_self hi b hb']

/-- A record booked and moved: the move of what the booking leaves, where it had a booked-to. -/
theorem bookEnter_sp {i : Nat} {s : State} (hi : s.hasSpindle i = true) (hb : (s.sp i).bookedTo.isSome = true) (st : SpState) :
    (bookEnter i st s).sp i = ((book i s).sp i).moved st s.now s.count := by
  rw [bookEnter, enter_sp_self (by simpa using hi), touch_settled (settled_book hi hb)]
  simp [State.now, State.count]

/-- A record booked and moved into any state but UP stands booked up to the present count. -/
theorem bookEnter_bookedTo {i : Nat} {s : State} (hi : s.hasSpindle i = true) (hsound : (s.sp i).sound) {st : SpState}
    (hst : st ≠ .up) : ((bookEnter i st s).sp i).bookedTo = some s.count := by
  by_cases hb : (s.sp i).bookedTo.isSome = true
  · rw [bookEnter_sp hi hb, moved_bookedTo, if_neg hst]
    split
    · exact book_bookedTo hi hb
    · rfl
  · have hup : (s.sp i).state = .up := by
      by_contra h
      exact hb (bookedTo_of_sound hsound h)
    rw [bookEnter, book_none (by simpa using hb), enter_sp_self hi, moved_bookedTo, if_neg hst, touch_state, hup]
    simp [SpState.isDown, SpState.cause]

/-! ### The range (R35, R36) -/

/-- A record that the lockout takes: what of it `lockRecord` says, on the state with its order withdrawn. -/
theorem bookEnter_locked {i : Nat} {s : State} (hi : s.hasSpindle i = true) (hsound : (s.sp i).sound) :
    ((bookEnter i .locked s).sp i).state = .locked ∧ ((bookEnter i .locked s).sp i).cause = some .lockout ∧
    ((bookEnter i .locked s).sp i).bookedTo = some s.count ∧
    ((bookEnter i .locked s).sp i).rogueMark = (s.sp i).rogueMark ∧
    ((s.sp i).state = .up → ((bookEnter i .locked s).sp i).piecedAt = none) := by
  have hi' : (book i s).hasSpindle i = true := by simpa using hi
  have hself : (bookEnter i .locked s).sp i = _ := enter_sp_self hi' .locked
  refine ⟨?_, ?_, bookEnter_bookedTo hi hsound (by decide), ?_, fun hup => ?_⟩
  · rw [hself, moved_state]
  · rw [hself, moved_cause]
    rfl
  · rw [hself, moved_rogueMark, (touch_marks hi').1, (book_marks hi).1]
  · rw [hself, moved_piecedAt, touch_state, book_state, hup]
    simp

/-- What the lockout makes of a record that enters its range (R35). -/
theorem lockRecord_self {i : Nat} {s : State} (hi : s.hasSpindle i = true) (hsound : (s.sp i).sound) :
    ((lockRecord i s).sp i).state = .locked ∧ ((lockRecord i s).sp i).cause = some .lockout ∧
    ((lockRecord i s).sp i).bookedTo = some s.count ∧ ((lockRecord i s).sp i).rogueMark = (s.sp i).rogueMark ∧
    ((s.sp i).state = .up → ((lockRecord i s).sp i).piecedAt = none) := by
  have hmon : (if (s.sp i).state = .ordered then withdrawOrder i s else s).mon = s.mon := by split <;> simp
  have hcount : (if (s.sp i).state = .ordered then withdrawOrder i s else s).count = s.count := by
    split <;> simp [State.count]
  have h := bookEnter_locked ((has_of_mon hmon i).trans hi) (by rw [sp_of_mon hmon]; exact hsound)
  rw [hcount, sp_of_mon hmon] at h
  exact h

/-- What the lockout makes of a LOCKED record that leaves its range (R35). -/
theorem unlockRecord_self {i : Nat} {s : State} (hi : s.hasSpindle i = true) (hsound : (s.sp i).sound)
    (hl : (s.sp i).state = .locked) :
    ((unlockRecord i s).sp i).bookedTo = some s.count ∧
    ((unlockRecord i s).sp i).state = (if (s.strip (stripOf i)).failed then .unobserved
      else if (s.sp i).rogueMark then .rogue else .unseen) ∧
    (((unlockRecord i s).sp i).state = .rogue → ((unlockRecord i s).sp i).downSince = some s.now) := by
  have hb : (s.sp i).bookedTo.isSome = true := bookedTo_of_sound hsound (by simp [hl])
  have hi' : (book i s).hasSpindle i = true := by simpa using hi
  have hstrip : (book i s).strip (stripOf i) = s.strip (stripOf i) := strip_of_beside (book_beside i s) _
  unfold unlockRecord
  dsimp only
  rw [hstrip, (book_marks hi).1]
  have hmoved : ∀ st : SpState, ((enter i st (book i s)).sp i).state = st := fun st =>
    (congrArg Spindle.state (enter_sp_self hi' st)).trans (moved_state ..)
  split
  · exact ⟨bookEnter_bookedTo hi hsound (by decide), hmoved _, fun h => by simp [hmoved] at h⟩
  · split
    · have hsp := modifySp_sp_self hi' (fun r => { r with downSince := some (book i s).now })
      have hsettled : (modifySp i (fun r => { r with downSince := some (book i s).now }) (book i s)).settled i :=
        (settled_book hi hb).imp id fun h => by rw [hsp]; exact h
      have hbooked := book_bookedTo hi hb
      have hstate : ((book i s).sp i).state = .locked := by rw [book_state]; exact hl
      rw [enter_sp_self (by simpa using hi'), touch_settled hsettled, hsp]
      simp [moved_state, moved_bookedTo, moved_downSince, hstate, hbooked, SpState.isDown, SpState.cause, State.now]
    · exact ⟨bookEnter_bookedTo hi hsound (by decide), hmoved _, fun h => by simp [hmoved] at h⟩

theorem lockRecord_sp_ne {i j : Nat} (s : State) (h : i ≠ j) : (lockRecord i s).sp j = s.sp j := by
  unfold lockRecord
  exact (bookEnter_sp_ne h _ _).trans (sp_of_mon (by split <;> simp) j)

theorem unlockRecord_sp_ne {i j : Nat} (s : State) (h : i ≠ j) : (unlockRecord i s).sp j = s.sp j := by
  unfold unlockRecord
  dsimp only
  split
  · exact bookEnter_sp_ne h _ s
  · split
    · exact (enter_sp_ne h _ _).trans ((modifySp_sp_ne h _ _).trans (book_sp_ne h s))
    · exact bookEnter_sp_ne h _ s

theorem rangeRecord_sp_ne {i j : Nat} (old new : Option Lockout) (s : State) (h : i ≠ j) :
    (rangeRecord old new i s).sp j = s.sp j := by
  unfold rangeRecord
  split
  · split
    · rfl
    · exact lockRecord_sp_ne s h
  · split
    · exact unlockRecord_sp_ne s h
    · rfl

/-- What a change of the range makes of record `i` (R35, R36): `enters` and `leaves` say where it lies, `failed` whether its strip
has failed. -/
def Spindle.Ranges (now count : Nat) (old new failed : Bool) (r r' : Spindle) : Prop :=
  (new = true → old = false → r'.state = .locked ∧ r'.cause = some .lockout ∧ r'.bookedTo = some count ∧
    r'.rogueMark = r.rogueMark ∧ (r.state = .up → r'.piecedAt = none)) ∧
  (new = false → old = true → r.state = .locked → r'.bookedTo = some count ∧
    r'.state = (if failed then .unobserved else if r.rogueMark then .rogue else .unseen) ∧
    (r'.state = .rogue → r'.downSince = some now)) ∧
  (new = old → r' = r) ∧ (new = false → r.state ≠ .locked → r' = r)

theorem rangeRecord_self {i : Nat} {s : State} (hi : s.hasSpindle i = true) (hsound : (s.sp i).sound)
    (old new : Option Lockout) :
    (s.sp i).Ranges s.now s.count (insideOf old i) (insideOf new i) (s.strip (stripOf i)).failed
      ((rangeRecord old new i s).sp i) := by
  unfold Spindle.Ranges rangeRecord
  cases hnew : insideOf new i <;> cases hold : insideOf old i
  case true.false => simpa using lockRecord_self hi hsound
  case true.true => simp
  case false.false => simp
  case false.true =>
    by_cases hl : (s.sp i).state = .locked
    · simpa [hl] using unlockRecord_self hi hsound hl
    · simp [hl]

/-- A record that a change of the range takes, gives up or leaves alone is left neither WAITING nor QUEUED, unless it was. -/
theorem Spindle.Ranges.state {now count : Nat} {old new failed : Bool} {r r' : Spindle}
    (h : r.Ranges now count old new failed r')
    (hr : (new = true ∧ old = false) ∨ (new = false ∧ old = true ∧ r.state = .locked) ∨
      (r' = r ∧ r.state ≠ .waiting ∧ r.state ≠ .queued)) : r'.state ≠ .waiting ∧ r'.state ≠ .queued := by
  obtain ⟨hnew, hold⟩ | ⟨hnew, hold, hl⟩ | ⟨hsame, hstate⟩ := hr
  · simp [(h.1 hnew hold).1]
  · rw [(h.2.1 hnew hold hl).2.1]
    repeat' split
    all_goals simp
  · rw [hsame]
    exact hstate

theorem mem_indices {s : State} {i : Nat} : i ∈ s.indices ↔ s.hasSpindle i = true := by
  simp [State.indices, State.hasSpindle, List.mem_range'_1]
  omega

/-- What a change of the range makes of every record, with the refill and the decisions of the engagements after it: these reach
only a record that is WAITING or QUEUED. -/
theorem applyRange_record {i : Nat} {s : State} (htab : s.tabled) (hi : s.hasSpindle i = true) (new : Option Lockout) :
    ∃ r', (s.sp i).Ranges s.now s.count (insideOf s.mon.lockout i) (insideOf new i) (s.strip (stripOf i)).failed r' ∧
      (r'.state ≠ .waiting → r'.state ≠ .queued → (applyRange new s).sp i = r') := by
  unfold applyRange
  dsimp only
  have hne : ∀ (j m : Nat) (v : State), m ≠ j → (rangeRecord s.mon.lockout new m v).sp j = v.sp j :=
    fun j m v h => rangeRecord_sp_ne _ _ v h
  have htab' : State.tabled { s with mon := { s.mon with lockout := new } } :=
    SameTables.tabled (s := s)
      { spindles := rfl, strips := rfl, flag := rfl, sections := rfl, queue := fun _ => rfl, waiting := fun _ => rfl,
        config := rfl } htab
  have hsp : State.sp { s with mon := { s.mon with lockout := new } } i = s.sp i := rfl
  have hstrip : State.strip { s with mon := { s.mon with lockout := new } } (stripOf i) = s.strip (stripOf i) := rfl
  have hhas : State.hasSpindle { s with mon := { s.mon with lockout := new } } i = true := hi
  have hdel : State.del { s with mon := { s.mon with lockout := new } } = s.del := rfl
  generalize State.mk .. = u at *
  have htabled : ∀ before, (each before (rangeRecord s.mon.lockout new) u).tabled := fun before =>
    each_keepsProp State.tabled before _ (fun m v hv => tabled_rangeRecord hv _ _ m) htab'
  obtain ⟨before, hkept, hown⟩ := each_sp_mem (hne i) (mem_indices.mpr hi) List.nodup_range' u
  refine ⟨(each s.indices (rangeRecord s.mon.lockout new) u).sp i, ?_, fun hw hq => piecingEvent_sp _ (htabled _) i hw hq⟩
  have hbeside := each_beside before (rangeRecord_beside s.mon.lockout new) u
  have hhas' := (has_of_beside hbeside i).trans hhas
  have hrecord := rangeRecord_self hhas' ((htabled before).2.1 _ (sp_mem hhas')) s.mon.lockout new
  have hdel' : (each before (rangeRecord s.mon.lockout new) u).del = s.del := by simp [hdel]
  rw [hown, ← hsp, ← hkept, ← hstrip, ← strip_of_beside hbeside, State.now, State.count, ← hdel']
  exact hrecord

theorem applyRange_onlyIn (new : Option Lockout) (s : State) (p : Port) :
    onlyIn [.mon, .pie, .shift, .line, .frame, .draws, .port] s { applyRange new s with port := p } := by
  obtain ⟨hdel, hcreel, hdoff, -, hpending⟩ := applyRange_frame new s
  refine ⟨hpending, fun b hb => ?_⟩
  cases b with
  | del => exact hdel
  | creel => exact hcreel
  | doff => exact hdoff
  | _ => simp at hb

theorem applyRange_beside (new : Option Lockout) (s : State) :
    (applyRange new s).besideRecords = State.besideRecords { s with mon := { s.mon with lockout := new } } :=
  piecingEvent_beside (each_beside _ (rangeRecord_beside _ _) _)

theorem doSetLockout_works {s : State} (hw : s.works) (lower upper invert : Nat) :
    doSetLockout lower upper invert s =
      if s.mon.pin = true then Effect.refuse .pinned s
      else if (s.hasSpindle lower && s.hasSpindle upper) = false then Effect.refuse .noSuch s
      else if upper < lower then Effect.refuse .outOfRange s
      else Effect.done (applyRange (some { lower := lower, upper := upper, invert := flagOfByte invert }) s) := by
  rw [doSetLockout, whileRunning_works (running_of_works hw)]
  simp only [Bool.not_eq_true']

/-- Settles O15: the refusals by the branches of the command, the records by `applyRange_record`. -/
theorem setLockoutRefusesOrApplies : Obligations.SetLockoutRefusesOrApplies := by
  intro s tag lower upper invert hopen hw htab hinvert
  have heffect := doSetLockout_works hw lower upper invert
  refine ⟨fun hpin => ?_, fun hpin hno => ?_, fun hpin hl hu hlt => ?_, fun hpin hl hu hle => ?_⟩
  · rw [if_pos hpin] at heffect
    exact hostRow_refused hopen heffect rfl
  · rw [if_neg (by simp [hpin]), if_pos hno] at heffect
    exact hostRow_refused hopen heffect rfl
  · rw [if_neg (by simp [hpin]), if_neg (by simp [hl, hu]), if_pos hlt] at heffect
    exact hostRow_refused hopen heffect rfl
  · rw [if_neg (by simp [hpin]), if_neg (by simp [hl, hu]), if_neg (not_lt.mpr hle)] at heffect
    have hflag : flagOfByte invert = (invert == 1) := by
      obtain rfl | rfl : invert = 0 ∨ invert = 1 := by omega
      all_goals decide
    rw [hflag] at heffect
    refine ⟨_, hostRow_done (k := 23) hopen heffect rfl, applyRange_onlyIn _ s _, ?_⟩
    obtain ⟨hstrips, -, hlockout, hpin', -⟩ := beside_fields
      (applyRange_beside (some { lower := lower, upper := upper, invert := invert == 1 }) s)
    have hport := (applyRange_frame (some { lower := lower, upper := upper, invert := invert == 1 }) s).2.2.2.1
    have hrecord := fun i hi =>
      applyRange_record (i := i) htab hi (some { lower := lower, upper := upper, invert := invert == 1 })
    generalize applyRange (some { lower := lower, upper := upper, invert := invert == 1 }) s = u at *
    refine ⟨congrArg (Port.completed 23 tag .done []) hport, hlockout, hpin'.trans hpin, fun k => ?_, fun i hi => ?_⟩
    · show nth _ u.mon.strips k = nth _ s.mon.strips k
      rw [hstrips]
    intro inside was
    obtain ⟨r', hranges, hsp⟩ := hrecord i hi
    have hinside : insideOf (some { lower := lower, upper := upper, invert := invert == 1 }) i = inside := by
      simp only [insideOf, Lockout.inside, inside]
      by_cases h : invert = 1 <;> simp [h]
    rw [hinside] at hranges
    clear_value inside
    have hfinal : r'.state ≠ .waiting ∧ r'.state ≠ .queued → State.sp { u with port := Port.completed 23 tag .done [] u.port } i = r' :=
      fun h => hsp h.1 h.2
    refine ⟨fun hin hwas => ?_, fun hin hwas hl => ?_, fun hsame hw hq => ?_⟩
    · rw [hfinal (hranges.state (.inl ⟨hin, hwas⟩))]
      exact hranges.1 hin hwas
    · rw [hfinal (hranges.state (.inr (.inl ⟨hin, hwas, hl⟩)))]
      exact hranges.2.1 hin hwas hl
    · have hkept := hranges.2.2.1 hsame
      rw [hfinal (hranges.state (.inr (.inr ⟨hkept, hw, hq⟩))), hkept]

/-- Settles O16: CLEAR_LOCKOUT by `applyRange_record` with no new range. -/
theorem clearLockoutAndPin : Obligations.ClearLockoutAndPin := by
  refine ⟨fun s tag hopen hw htab => ?_, fun s tag hopen hw => ?_, fun s level hreset => ?_⟩
  · have heffect : doClearLockout s = if s.mon.pin = true then Effect.refuse .pinned s
        else match s.mon.lockout with
          | some _ => Effect.done (applyRange none s)
          | none => Effect.done s := whileRunning_works (running_of_works hw) _
    refine ⟨fun hpin => ?_, fun hpin hnone => ?_, fun l hpin hsome => ?_⟩
    · rw [if_pos hpin] at heffect
      exact hostRow_refused hopen heffect rfl
    · rw [if_neg (by simp [hpin]), hnone] at heffect
      exact hostRow_done hopen heffect rfl
    · rw [if_neg (by simp [hpin]), hsome] at heffect
      refine ⟨_, hostRow_done (k := 24) hopen heffect rfl, applyRange_onlyIn _ s _, ?_⟩
      obtain ⟨-, -, hlockout, hpin', -⟩ := beside_fields (applyRange_beside none s)
      have hport := (applyRange_frame none s).2.2.2.1
      have hrecord := fun i hi => applyRange_record (i := i) htab hi none
      generalize applyRange none s = u at *
      refine ⟨congrArg (Port.completed 24 tag .done []) hport, hlockout, hpin'.trans hpin, fun i hi => ?_⟩
      obtain ⟨r', hranges, hsp⟩ := hrecord i hi
      rw [hsome] at hranges
      have hfinal : r'.state ≠ .waiting ∧ r'.state ≠ .queued → State.sp { u with port := Port.completed 24 tag .done [] u.port } i = r' :=
        fun h => hsp h.1 h.2
      refine ⟨fun hin hl => ?_, fun hl hw hq => ?_⟩
      · rw [hfinal (hranges.state (.inr (.inl ⟨rfl, hin, hl⟩)))]
        obtain ⟨hbooked, hstate, -⟩ := hranges.2.1 rfl hin hl
        exact ⟨hbooked, hstate⟩
      · have hkept := hranges.2.2.2 rfl hl
        rw [hfinal (hranges.state (.inr (.inr ⟨hkept, hw, hq⟩))), hkept]
  · have heffect : doPinLockout s = Effect.done { s with mon := { s.mon with pin := true } } :=
      whileRunning_works (running_of_works hw) _
    exact hostRow_done (c := .pinLockout) hopen heffect rfl
  · refine (show exec (.maintChange level) s = .next (if s.frame.resetLow then
      { s with frame := { s.frame with maint := level } } else takeMaint level s) from rfl).trans (congrArg Host.Outcome.next ?_)
    rw [hreset, if_neg Bool.false_ne_true]
    unfold takeMaint
    split <;> rfl

end Sys2Proof.Machine
end

section
/-! PROOFS. The host hold, the fault inputs and the alert list (R175 to R179). -/

namespace Sys2Proof.Machine

/-! ### The four cases of a raised alert (R178) -/

theorem Alert.is_iff {code : AlertCode} {subject : Option Nat} {a : Alert} :
    Alert.is code subject a = true ↔ a.code = code ∧ a.subject = subject := by simp [Alert.is]

theorem any_is_iff {code : AlertCode} {subject : Option Nat} {l : List Alert} :
    l.any (Alert.is code subject) = true ↔ ∃ a ∈ l, a.code = code ∧ a.subject = subject := by
  simp [Alert.is]

theorem map_repeat_of_none {code : AlertCode} {subject : Option Nat} {l : List Alert}
    (h : ∀ b ∈ l, ¬ (b.code = code ∧ b.subject = subject)) :
    l.map (fun a => if Alert.is code subject a then { a with repeats := addCapped Config.max8 a.repeats 1 } else a) = l := by
  conv_rhs => rw [← List.map_id l]
  refine List.map_congr_left fun b hb => if_neg ?_
  rw [Alert.is_iff]
  exact h b hb

/-- The code and the subject stand already: the entry's repeat count rises. -/
theorem alertsRaised_repeat {f : Frame} {before after : List Alert} {a : Alert} (hnodup : (f.alerts.map (fun a => (a.code, a.subject))).Nodup)
    (hlist : f.alerts = before ++ a :: after) (cls : AlertClass) (now : Nat) :
    alertsRaised a.code cls a.subject now f =
      (before ++ { a with repeats := min 255 (a.repeats + 1) } :: after, f.overflow) := by
  rw [hlist, List.map_append, List.map_cons, List.nodup_middle, List.nodup_cons] at hnodup
  have hother : ∀ b ∈ before ++ after, ¬ (b.code = a.code ∧ b.subject = a.subject) := fun b hb h =>
    hnodup.1 (by
      rw [← List.map_append]
      exact List.mem_map.mpr ⟨b, hb, by rw [h.1, h.2]⟩)
  have hany : f.alerts.any (Alert.is a.code a.subject) = true := any_is_iff.mpr ⟨a, by simp [hlist], rfl, rfl⟩
  unfold alertsRaised
  dsimp only
  rw [if_pos hany, hlist, List.map_append, List.map_cons, if_pos (Alert.is_iff.mpr ⟨rfl, rfl⟩),
    map_repeat_of_none fun b hb => hother b (List.mem_append_left _ hb),
    map_repeat_of_none fun b hb => hother b (List.mem_append_right _ hb)]
  rfl

/-- Without the last entry that passes a test. -/
theorem dropLastSuch_append {α : Type} {p : α → Bool} {before after : List α} {a : α} (ha : p a = true)
    (hafter : ∀ b ∈ after, p b = false) : dropLastSuch p (before ++ a :: after) = before ++ after := by
  have hnone : ∀ b ∈ after.reverse, ¬ p b = true := fun b hb => by simp [hafter b (List.mem_reverse.mp hb)]
  rw [dropLastSuch, List.reverse_append, List.reverse_cons, List.append_assoc, List.eraseP_append_right _ hnone,
    List.singleton_append, List.eraseP_cons_of_pos ha, List.reverse_append, List.reverse_reverse, List.reverse_reverse]

/-- A new code and subject. -/
theorem alertsRaised_new {f : Frame} {code : AlertCode} {subject : Option Nat}
    (hnew : ∀ a ∈ f.alerts, ¬ (a.code = code ∧ a.subject = subject)) (cls : AlertClass) (now : Nat) :
    alertsRaised code cls subject now f =
      if f.alerts.length < 32 then
        (f.alerts ++ [{ code := code, cls := cls, subject := subject, raised := now, repeats := 1 }], f.overflow)
      else if cls ≠ .note ∧ ∃ a ∈ f.alerts, a.cls = .note then
        (dropLastSuch (fun a => a.cls == .note) f.alerts ++
          [{ code := code, cls := cls, subject := subject, raised := now, repeats := 1 }], f.overflow)
      else (f.alerts, min 65535 (f.overflow + 1)) := by
  have hany : ¬ f.alerts.any (Alert.is code subject) = true := fun h => by
    obtain ⟨a, ha, hsame⟩ := any_is_iff.mp h
    exact hnew a ha hsame
  have hnote : (cls != .note && f.alerts.any (fun a => a.cls == .note)) = true ↔ cls ≠ .note ∧ ∃ a ∈ f.alerts, a.cls = .note := by
    simp
  unfold alertsRaised
  dsimp only
  rw [if_neg hany]
  simp only [hnote]
  rfl

/-! ### The fault inputs (R175) -/

theorem ofByte_cls (b : Nat) : (FaultSetup.ofByte b).cls =
    if b / 4 % 4 = 0 then .note else if b / 4 % 4 = 1 then .action else .stop := by
  unfold FaultSetup.ofByte
  split <;> simp_all

theorem ofByte_stop (b : Nat) : (FaultSetup.ofByte b).cls = .stop ↔ 2 ≤ b / 4 % 4 := by
  rw [ofByte_cls]
  split
  · simp; omega
  · split
    · simp; omega
    · simp; omega

theorem faultSetup_some {s : State} {n b : Nat} (hb : s.cfg.faults[n]? = some b) (hc : s.port.config ≠ none) :
    s.faultSetup n = some (FaultSetup.ofByte b) := by
  unfold State.faultSetup
  cases h : s.port.config with
  | none => exact absurd h hc
  | some c =>
    simp only [State.cfg, h, Option.getD_some] at hb
    simp [hb]

/-- The frame interface after an active edge (R175). -/
def Frame.edged (n : Nat) (cls : AlertClass) (now : Nat) (f : Frame) : Frame :=
  let edge : Frame := Frame.raised .faultInput cls (some n) now { f with latches := f.latches.set n true }
  if cls = .stop then { edge with holds := edge.holds.put (HoldCause.fault n) true } else edge

theorem activeEdge_eq (n : Nat) (f : FaultSetup) (s : State) :
    activeEdge n f s = { s with frame := s.frame.edged n f.cls s.del.seconds } := by
  unfold activeEdge Frame.edged
  dsimp only
  split <;> rfl

/-- A cleared latch, as one change of the frame interface. -/
theorem clearLatch_eq (n : Nat) (f : FaultSetup) (s : State) :
    clearLatch n f s = { s with frame := { s.frame with
      latches := s.frame.latches.set n false
      holds := if f.cls = .stop then s.frame.holds.put (HoldCause.fault n) false else s.frame.holds } } := by
  unfold clearLatch
  dsimp only
  split <;> rfl

theorem takeFault_same {s : State} {n : Nat} {level : Bool} (h : s.frame.levels.getD n false = level) :
    takeFault n level s = s := if_pos h

/-- A new level before CONFIGURE: it is taken, and nothing else. -/
theorem takeFault_unset {s : State} {n : Nat} {level : Bool} (h : s.frame.levels.getD n false ≠ level)
    (hf : s.faultSetup n = none) : takeFault n level s = setLevel n level s := by
  refine (if_neg h).trans ?_
  dsimp only
  rw [show (setLevel n level s).faultSetup n = none from hf]

/-- A new level of an input with a setup. -/
theorem takeFault_set {s : State} {n : Nat} {level : Bool} (h : s.frame.levels.getD n false ≠ level) {f : FaultSetup}
    (hf : s.faultSetup n = some f) :
    takeFault n level s =
      if f.isActive level then activeEdge n f (setLevel n level s)
      else if f.manual then setLevel n level s else clearLatch n f (setLevel n level s) := by
  refine (if_neg h).trans ?_
  dsimp only
  rw [show (setLevel n level s).faultSetup n = some f from hf]

theorem exec_faultInput {s : State} (h : s.frame.resetLow = false) (n : Nat) (level : Bool) :
    exec (.faultInput n level) s = .next (takeFault n level s) := by
  refine (show exec (.faultInput n level) s = .next (if s.frame.resetLow then setLevel n level s else takeFault n level s)
    from rfl).trans ?_
  rw [h, if_neg Bool.false_ne_true]

/-! ### The commands (R176, R177, R179) -/

theorem subjectCode_eq (subject : Option Nat) : subjectCode subject = subject.getD 65535 := by cases subject <;> rfl

theorem doAckAlert_taken {s : State} (hw : s.works) {code subject : Nat} {a : Alert} {rest : List Alert}
    (hlist : s.frame.alerts = a :: rest) (h : a.code.code = code ∧ a.subject.getD 65535 = subject) :
    doAckAlert code subject s = Effect.done { s with frame := Frame.followStop { s.frame with alerts := rest } } := by
  rw [doAckAlert, whileRunning_works (running_of_works hw), hlist]
  dsimp only
  rw [subjectCode_eq, if_pos h]

theorem doAckAlert_other {s : State} (hw : s.works) {code subject : Nat}
    (h : ∀ a ∈ s.frame.alerts.head?, ¬ (a.code.code = code ∧ a.subject.getD 65535 = subject)) :
    doAckAlert code subject s = Effect.refuse .noSuch s := by
  rw [doAckAlert, whileRunning_works (running_of_works hw)]
  cases hlist : s.frame.alerts with
  | nil => rfl
  | cons a rest =>
    dsimp only
    rw [subjectCode_eq, if_neg (h a (by simp [hlist]))]

theorem doFaultAck_beyond {s : State} (hw : s.works) {n : Nat} (h : 4 ≤ n) :
    doFaultAck n s = Effect.refuse .noSuch s := by
  rw [doFaultAck, whileRunning_works (running_of_works hw), if_pos h]

theorem doFaultAck_set {s : State} (hw : s.works) {n : Nat} (h : n < 4) {f : FaultSetup} (hf : s.faultSetup n = some f) :
    doFaultAck n s =
      if f.isActive (s.faultLevel n) then Effect.refuse .stillActive s else Effect.done (clearLatch n f s) := by
  rw [doFaultAck, whileRunning_works (running_of_works hw), if_neg (not_le.mpr h), hf]

/-- Settles O54: the commands and the change of a fault input by the lemmas above, the raised alert by `alertsRaised_repeat` and
`alertsRaised_new`. -/
theorem holdsFaultsAndAlerts : Obligations.HoldsFaultsAndAlerts := by
  refine ⟨fun s tag hopen hw => ⟨?_, ?_, ?acks, fun n h => ?_, ?faultAck⟩, ?inputs, ?alerts⟩
  · exact hostRow_done (c := .holdSet) hopen (whileRunning_works (running_of_works hw) _) rfl
  · exact hostRow_done (c := .holdClear) hopen (whileRunning_works (running_of_works hw) _) rfl
  case acks =>
    intro code subject matches_
    refine ⟨fun a rest hlist h => ?_, fun h => ?_⟩
    · exact hostRow_done (c := .ackAlert code subject) hopen (doAckAlert_taken hw hlist h) rfl
    · exact hostRow_refused (c := .ackAlert code subject) hopen (doAckAlert_other hw h) rfl
  · exact hostRow_refused (c := .faultAck n) hopen (doFaultAck_beyond hw h) rfl
  case faultAck =>
    intro n b hn hb hc active
    have heffect := doFaultAck_set hw hn (faultSetup_some hb hc)
    rw [show (FaultSetup.ofByte b).isActive (s.faultLevel n) = active from rfl, clearLatch_eq] at heffect
    simp only [ofByte_stop] at heffect
    by_cases hactive : active = true
    · rw [if_pos hactive] at heffect ⊢
      exact hostRow_refused (c := .faultAck n) hopen heffect rfl
    · rw [if_neg hactive] at heffect ⊢
      exact hostRow_done (c := .faultAck n) hopen heffect rfl
  case inputs =>
    intro s n level hreset taken
    refine ⟨fun h => ?_, fun h => ⟨fun hc => ?_, ?_⟩⟩
    · rw [exec_faultInput hreset, takeFault_same h]
    · rw [exec_faultInput hreset, takeFault_unset h (by simp [State.faultSetup, hc])]
      rfl
    intro b hc hb active cls edge
    refine ⟨fun ha => ?_, fun ha hm => ?_, fun ha hm => ?_⟩
    · have hcls : (FaultSetup.ofByte b).cls = cls := ofByte_cls b
      rw [exec_faultInput hreset, takeFault_set h (faultSetup_some hb hc),
        if_pos (show (FaultSetup.ofByte b).isActive level = true from ha), activeEdge_eq, hcls]
      rfl
    · rw [exec_faultInput hreset, takeFault_set h (faultSetup_some hb hc),
        if_neg (by rw [show (FaultSetup.ofByte b).isActive level = false from ha]; decide),
        if_pos (show (FaultSetup.ofByte b).manual = true by simp [FaultSetup.ofByte, hm])]
      rfl
    · have hcls : (FaultSetup.ofByte b).cls = cls := ofByte_cls b
      rw [exec_faultInput hreset, takeFault_set h (faultSetup_some hb hc),
        if_neg (by rw [show (FaultSetup.ofByte b).isActive level = false from ha]; decide),
        if_neg (show ¬ (FaultSetup.ofByte b).manual = true by simp [FaultSetup.ofByte, hm]), clearLatch_eq, hcls]
      rfl
  case alerts =>
    intro f code cls subject now hf g new
    refine ⟨?_, ?_, fun before a after hlist hcode hsub => ?_, fun hnew => ⟨fun hlt => ?_,
      fun before a after hfull hcls hlist ha hafter => ?_, fun hfull h => ?_⟩⟩
    · exact alertsRaised_listed code cls subject now hf
    · rfl
    · subst hcode hsub
      exact Prod.ext_iff.mp (alertsRaised_repeat hf.2.1 hlist cls now)
    · have h := alertsRaised_new hnew cls now
      rw [if_pos hlt] at h
      exact Prod.ext_iff.mp h
    · have h := alertsRaised_new hnew cls now
      rw [if_neg (by omega), if_pos ⟨hcls, a, by simp [hlist], ha⟩, hlist,
        dropLastSuch_append (by simp [ha]) (fun b hb => by simp [hafter b hb])] at h
      exact Prod.ext_iff.mp h
    · have h' := alertsRaised_new hnew cls now
      rw [if_neg (by omega), if_neg (by
        rintro ⟨hcls, a, ha, hnote⟩
        obtain h | h := h
        · exact hcls h
        · exact h a ha hnote)] at h'
      exact Prod.ext_iff.mp h'

end Sys2Proof.Machine
end

section
/-! PROOFS. Power-on, RESET_N low, and what happens or is refused outside RUNNING (R174, R183, R187). -/

namespace Sys2Proof.Machine

/-- While RESET_N is low no row but POWER_ON, RESET_N_LOW and the three that carry a level changes anything. -/
theorem exec_resetLow {s : State} (h : s.frame.resetLow = true) {i : Instr} (hon : i ≠ .powerOn) (hlow : i ≠ .resetNLow)
    (hrun : ∀ level, i ≠ .runChange level) (hmaint : ∀ level, i ≠ .maintChange level)
    (hfault : ∀ n level, i ≠ .faultInput n level) : exec i s = .next s := by
  cases i with
  | powerOn => exact absurd rfl hon
  | resetNLow => exact absurd rfl hlow
  | runChange level => exact absurd rfl (hrun level)
  | maintChange level => exact absurd rfl (hmaint level)
  | faultInput n level => exact absurd rfl (hfault n level)
  | _ => exact powered_low h _

/-- The events of RUNNING change nothing in INIT and READY. -/
theorem exec_notRunning {s : State} (h : s.port.part ≠ .running) {i : Instr} (hi : rowNeedsRunning i = true) :
    exec i s = .next s := by
  cases i with
  | powerOn | resetNLow | deliveryPulse | deviceSecond | runChange | maintChange | faultInput | commandWrite | commandDispatch
  | responseRead | status | configure | stageArticle | armArticle | start | warmReset | lineRestart | clearFault | readSpindle
  | readStrip | readQueue | readEngagement | readSection | readBookings | readDoff | readPeers | readShift | readReport | readAlert
  | ackAlert | readLine | readInputs | setLockout | clearLockout | pinLockout | clearRogue | creelConfirm | doffRequest
  | doffComplete | doffAbandon | closeShift | holdSet | holdClear | faultAck => cases hi
  | _ => exact inRunning_idle h _

/-- The row of a host command is the event of that command. -/
theorem exec_rowOf {c : Command} (hc : c ≠ .warmReset) (tag : Nat) (s : State) : exec (rowOf c tag) s = hostRow c tag s := by
  cases c with
  | warmReset => exact absurd rfl hc
  | _ => rfl

theorem perform_notRunning {s : State} (h : s.port.part ≠ .running) {c : Command} (hc : commandNeedsRunning c = true) (tag : Nat) :
    perform c tag s = Effect.refuse .notRunning s := by
  have hidle : s.running = false := by simp [State.running, h]
  cases c with
  | status | configure | stageArticle | armArticle | start | warmReset | clearFault | readSpindle | readStrip | readQueue
  | readEngagement | readSection | readBookings | readDoff | readPeers | readShift | readReport | readAlert | readLine
  | readInputs => cases hc
  | _ => exact whileRunning_idle hidle _

/-- Settles O53. -/
theorem heldAtPowerOnAndBeforeStart : Obligations.HeldAtPowerOnAndBeforeStart := by
  refine ⟨fun s => ⟨rfl, rfl⟩, ⟨rfl, rfl, rfl, rfl, rfl, rfl, rfl, rfl, rfl, rfl, rfl, rfl, rfl, fun c => by cases c <;> rfl⟩,
    ⟨rfl, rfl, fun x => ?_, rfl, rfl, rfl, rfl, rfl, rfl, rfl⟩, fun i s h hon hlow => ⟨?_, ?_, ?_, ?_⟩, fun i s hi h => exec_notRunning h hi,
    fun c tag s hc hopen h => ?_⟩
  · cases x <;> exact ⟨rfl, rfl⟩
  · rintro level rfl
    refine (show exec (.runChange level) s = .next (if s.frame.resetLow then
      { s with frame := { s.frame with run := level } } else takeRun level s) from rfl).trans ?_
    rw [if_pos h]
  · rintro level rfl
    refine (show exec (.maintChange level) s = .next (if s.frame.resetLow then
      { s with frame := { s.frame with maint := level } } else takeMaint level s) from rfl).trans ?_
    rw [if_pos h]
  · rintro n level rfl
    refine (show exec (.faultInput n level) s = .next (if s.frame.resetLow then setLevel n level s else takeFault n level s)
      from rfl).trans ?_
    rw [if_pos h]
    rfl
  · exact exec_resetLow h hon hlow
  · have hwarm : c ≠ .warmReset := fun h => by
      rw [h] at hc
      cases hc
    rw [exec_rowOf hwarm]
    exact hostRow_refused hopen (perform_notRunning h hc tag) rfl

end Sys2Proof.Machine
end

section
/-! PROOFS. The command port: transactions, the slot and its dispatch, the command-fault latch and the status byte (R180 to R182,
R189). -/

namespace Sys2Proof.Machine

/-! ### The status byte (R180) -/

/-- Seven flags as the low bits of a byte. -/
def flagByte (b0 b1 b2 b3 b4 b5 b6 : Bool) : Byte :=
  BitVec.ofNat 8 ((if b0 then 1 else 0) + (if b1 then 2 else 0) + (if b2 then 4 else 0) + (if b3 then 8 else 0) +
    (if b4 then 16 else 0) + (if b5 then 32 else 0) + (if b6 then 64 else 0))

theorem flagByte_bits : ∀ b0 b1 b2 b3 b4 b5 b6 : Bool,
    (flagByte b0 b1 b2 b3 b4 b5 b6).getLsbD 0 = b0 ∧ (flagByte b0 b1 b2 b3 b4 b5 b6).getLsbD 1 = b1 ∧
    (flagByte b0 b1 b2 b3 b4 b5 b6).getLsbD 2 = b2 ∧ (flagByte b0 b1 b2 b3 b4 b5 b6).getLsbD 3 = b3 ∧
    (flagByte b0 b1 b2 b3 b4 b5 b6).getLsbD 4 = b4 ∧ (flagByte b0 b1 b2 b3 b4 b5 b6).getLsbD 5 = b5 ∧
    (flagByte b0 b1 b2 b3 b4 b5 b6).getLsbD 6 = b6 ∧ (flagByte b0 b1 b2 b3 b4 b5 b6).getLsbD 7 = false := by
  decide

theorem statusByte_eq (s : State) : statusByte s =
    flagByte s.port.slot.isNone (s.port.slot.isNone && s.port.executing.isNone) s.port.unread s.port.latch.isSome
      (s.frame.lineOf .note) (s.frame.lineOf .action) (s.frame.lineOf .stop) := rfl

/-! ### A record taken (R181) -/

/-- The command port after a fault of the host's record (R181). -/
def Port.faulted (c : FaultCause) (p : Port) : Port :=
  match p.latch with
  | none => { p with latch := some c }
  | some _ => { p with faults := min 255 (p.faults + 1) }

theorem latchFault_eq (c : FaultCause) (s : State) : latchFault c s = { s with port := s.port.faulted c } := by
  cases hl : s.port.latch with
  | none => simp only [latchFault, Port.faulted, hl]
  | some c' => simp only [latchFault, Port.faulted, hl, addCapped, Config.max8]

theorem takeRecord_overrun {s : State} {bs : List Byte} (hslot : s.port.slot ≠ none) (hkind : recordKind bs ≠ some 6) :
    takeRecord bs s = latchFault .slotOverrun s :=
  if_pos (by simpa [Option.isSome_iff_ne_none] using ⟨hslot, hkind⟩)

theorem takeRecord_bad {s : State} {bs : List Byte} (h : s.port.slot = none ∨ recordKind bs = some 6)
    (hread : readRecord bs = none) : takeRecord bs s = latchFault .badCommand s := by
  refine (if_neg (by rcases h with h | h <;> simp [h])).trans ?_
  rw [hread]

theorem takeRecord_warmReset {s : State} {bs : List Byte} (h : s.port.slot = none ∨ recordKind bs = some 6) {tag : Nat}
    (hread : readRecord bs = some (.warmReset, tag)) : takeRecord bs s = runCommand .warmReset tag s := by
  refine (if_neg (by rcases h with h | h <;> simp [h])).trans ?_
  rw [hread]

theorem takeRecord_slot {s : State} {bs : List Byte} (h : s.port.slot = none ∨ recordKind bs = some 6) {c : Command} {tag : Nat}
    (hc : c ≠ .warmReset) (hread : readRecord bs = some (c, tag)) :
    takeRecord bs s = { s with port := { s.port with slot := some (c, tag) } } := by
  refine (if_neg (by rcases h with h | h <;> simp [h])).trans ?_
  rw [hread]
  cases c with
  | warmReset => exact absurd rfl hc
  | _ => rfl

/-! ### The rows (R180, R181, R189) -/

theorem exec_commandWrite {s : State} (h : s.frame.resetLow = false) (bs : List Byte) :
    exec (.commandWrite (1#8 :: bs)) s = .next (writeRecord bs s) := powered_high h _

theorem exec_responseRead {s : State} (h : s.frame.resetLow = false) (bs : List Byte) :
    exec (.responseRead (2#8 :: bs)) s = .next (readResponse bs.length s) := powered_high h _

theorem exec_statusRead {s : State} (h : s.frame.resetLow = false) {b : Byte} {bs : List Byte} {c : Instr} (h1 : b ≠ 1#8)
    (h2 : b ≠ 2#8) (hc : c = .commandWrite (b :: bs) ∨ c = .responseRead (b :: bs)) :
    exec c s = .next (readStatus bs.length s) := by
  have hstatus := transactionOf_other h1 h2
  obtain rfl | rfl := hc
  · refine (powered_high h _).trans (congrArg Host.Outcome.next ?_)
    dsimp only
    rw [hstatus]
  · refine (powered_high h _).trans (congrArg Host.Outcome.next ?_)
    dsimp only
    rw [hstatus]

theorem hostRow_leaves {s : State} (hreset : s.frame.resetLow = false) (hexec : s.port.executing = none) (c : Command) (tag : Nat) :
    hostRow c tag s = .next (leaveSlot c tag s) := by
  rw [hostRow, powered_high hreset, hexec]
  rfl

theorem leaveSlot_latched {s : State} (hlatch : s.port.latch ≠ none) {c : Command} (hs : c ≠ .status) (hcf : c ≠ .clearFault)
    (tag : Nat) :
    leaveSlot c tag s = { s with port := { s.port with discarded := min 65535 (s.port.discarded + 1) } } := by
  have hpass : passesLatch c = false := by cases c <;> first | rfl | contradiction
  exact if_pos (by simp [Option.isSome_iff_ne_none, hlatch, hpass])

theorem leaveSlot_clearFault (tag : Nat) (s : State) : leaveSlot .clearFault tag s = { s with
      port := ({ s.port with latch := none, faults := 0 } : Port).completed 8 tag .done [] } :=
  if_neg (by simp [passesLatch])

theorem dispatch_taken {s : State} (hexec : s.port.executing = none) {c : Command} {tag : Nat}
    (hslot : s.port.slot = some (c, tag)) :
    dispatch s = leaveSlot c tag { s with port := { s.port with slot := none } } := by
  simp only [dispatch, hexec, hslot]

theorem dispatch_none {s : State} (h : s.port.executing ≠ none ∨ s.port.slot = none) : dispatch s = s := by
  unfold dispatch
  split
  · rename_i hexec hslot
    rcases h with h | h
    · exact absurd hexec h
    · rw [h] at hslot
      cases hslot
  · rfl

/-- Settles O52. -/
theorem commandPortTakesAndReturnsRecords : Obligations.CommandPortTakesAndReturnsRecords := by
  intro s hreset port
  refine ⟨?writes, ?reads, ?others, fun bs => ⟨powered_high hreset _, powered_high hreset _⟩,
    ⟨powered_high hreset _, powered_high hreset _⟩, fun h => ?idle, ?dispatched, fun tag hexec => ?cleared, ?status⟩
  case writes =>
    intro bs p faulted
    have hfaulted : ∀ c, p.faulted c = faulted c := fun c => by
      cases hl : s.port.latch <;> simp only [Port.faulted, p, faulted, port, hl]
    have hwrite : ∀ t, takeRecord bs { s with port := p } = t → exec (.commandWrite (1#8 :: bs)) s = .next t := fun t ht =>
      (exec_commandWrite hreset bs).trans (congrArg Host.Outcome.next ht)
    have hlatch : ∀ c, latchFault c { s with port := p } = { s with port := faulted c } := fun c => by
      rw [latchFault_eq, ← hfaulted]
    refine ⟨fun hslot hkind => ?_, fun h => ⟨fun hread => ?_, fun tag hread => ?_, fun c tag hc hread => ?_⟩⟩
    · exact hwrite _ ((takeRecord_overrun (s := { s with port := p }) hslot hkind).trans (hlatch _))
    · exact hwrite _ ((takeRecord_bad (s := { s with port := p }) h hread).trans (hlatch _))
    · exact (hwrite _ (takeRecord_warmReset (s := { s with port := p }) h hread)).trans
        (powered_high (s := { s with port := p }) hreset _).symm
    · exact hwrite _ (takeRecord_slot (s := { s with port := p }) h hc hread)
  case reads =>
    intro bs
    rw [exec_responseRead hreset]
    cases bs <;> simp [readResponse, port]
  case others =>
    intro b bs c h1 h2 hc
    obtain ⟨hport, hhead, hlength⟩ := readStatus_port bs.length s
    exact ⟨_, exec_statusRead hreset h1 h2 hc, ⟨rfl, fun b hb => by cases b <;> simp_all [Block.same, readStatus]⟩, hport, hhead, hlength⟩
  case idle =>
    exact (powered_high hreset _).trans (congrArg Host.Outcome.next (dispatch_none h))
  case dispatched =>
    intro c tag hc
    refine ⟨fun hexec hslot => ?_, fun hexec => ?_, fun hexec hlatch hs hcf => ?_⟩
    · rw [exec_rowOf hc, hostRow_leaves (s := { s with port := { port with slot := none } }) hreset hexec]
      exact (powered_high hreset _).trans (congrArg Host.Outcome.next (dispatch_taken hexec hslot))
    · rw [exec_rowOf hc]
      exact hostRow_executing (Option.isSome_iff_ne_none.mpr hexec) c tag
    · rw [exec_rowOf hc, hostRow_leaves hreset hexec, leaveSlot_latched hlatch hs hcf]
  case cleared =>
    exact (hostRow_leaves hreset hexec .clearFault tag).trans (congrArg Host.Outcome.next (leaveSlot_clearFault tag s))
  case status =>
    rw [statusByte_eq]
    exact flagByte_bits _ _ _ _ _ _ _

end Sys2Proof.Machine
end

section
/-! PROOFS. The fault latches re-sampled, and CONFIGURE (R175, R184). -/

namespace Sys2Proof.Machine

/-! ### An alert that stands stays, or the list is full (R178) -/

theorem standing_raised {f : Frame} {code : AlertCode} {subject : Option Nat}
    (h : (∃ a ∈ f.alerts, a.code = code ∧ a.subject = subject) ∨ Config.alertCapacity ≤ f.alerts.length)
    (code' : AlertCode) (cls : AlertClass) (subject' : Option Nat) (now : Nat) :
    (∃ a ∈ (f.raised code' cls subject' now).alerts, a.code = code ∧ a.subject = subject) ∨
      Config.alertCapacity ≤ (f.raised code' cls subject' now).alerts.length := by
  show (∃ a ∈ (alertsRaised code' cls subject' now f).1, a.code = code ∧ a.subject = subject) ∨
    Config.alertCapacity ≤ (alertsRaised code' cls subject' now f).1.length
  unfold alertsRaised
  dsimp only
  split
  · refine h.imp (fun ⟨a, ha, hcode, hsub⟩ => ?_) (fun h => by simpa using h)
    refine ⟨_, List.mem_map.mpr ⟨a, ha, rfl⟩, ?_⟩
    split <;> exact ⟨hcode, hsub⟩
  · split
    · refine h.imp (fun ⟨a, ha, hsame⟩ => ⟨a, List.mem_append_left _ ha, hsame⟩) (fun h => ?_)
      rw [List.length_append]
      omega
    · split
      · rename_i _ hfull hnote
        have hlength := dropLastSuch_length _ f.alerts (Bool.and_eq_true_iff.mp hnote).2
        right
        rw [List.length_append, List.length_singleton]
        omega
      · exact h

theorem alerted_raise_of {s : State} {code : AlertCode} {subject : Option Nat} (h : alerted code subject s) (code' : AlertCode)
    (cls : AlertClass) (subject' : Option Nat) : alerted code subject (raiseAlert code' cls subject' s) :=
  standing_raised h code' cls subject' s.now

/-! ### One input re-sampled (R175) -/

/-- The frame interface with input `n` re-sampled under its setup. -/
def Frame.resampled (n : Nat) (setup : FaultSetup) (now : Nat) (f : Frame) : Frame :=
  if setup.isActive (f.levels.getD n false) then
    if f.latches.getD n false then
      { f with holds := if setup.cls = .stop then f.holds.put (HoldCause.fault n) true else f.holds }
    else f.edged n setup.cls now
  else
    { f with
      latches := f.latches.set n false
      holds := if setup.cls = .stop then f.holds.put (HoldCause.fault n) false else f.holds }

theorem resampleOne_eq {s : State} {n : Nat} {setup : FaultSetup} (h : s.faultSetup n = some setup) :
    resampleOne n s = { s with frame := s.frame.resampled n setup s.del.seconds } := by
  have hlevel : s.faultLevel n = s.frame.levels.getD n false := rfl
  have hlatch : s.faultLatch n = s.frame.latches.getD n false := rfl
  unfold resampleOne Frame.resampled
  rw [h]
  dsimp only
  rw [hlevel, hlatch, activeEdge_eq, clearLatch_eq]
  split
  · split
    · split <;> rfl
    · rfl
  · rfl

theorem resampleOne_unset {s : State} {n : Nat} (h : s.faultSetup n = none) : resampleOne n s = s := by
  unfold resampleOne
  rw [h]

theorem resampleOne_faultSetup (n m : Nat) (s : State) : (resampleOne n s).faultSetup m = s.faultSetup m := by
  simp [State.faultSetup]

theorem put_has_self (h : HoldSet) (c : HoldCause) (v : Bool) : (h.put c v).has c = v := by cases c <;> rfl

theorem put_has_ne (h : HoldSet) {c d : HoldCause} (hne : d ≠ c) (v : Bool) : (h.put c v).has d = h.has d := by
  cases c <;> cases d <;> first | rfl | exact absurd rfl hne

theorem raised_has (f : Frame) (code : AlertCode) (cls : AlertClass) (subject : Option Nat) (now : Nat) {c : HoldCause}
    (hc : c ≠ .alertStop) : (f.raised code cls subject now).holds.has c = f.holds.has c := put_has_ne _ hc _

theorem fault_injective {n m : Nat} (hn : n < 4) (hm : m < 4) (h : n ≠ m) : HoldCause.fault n ≠ HoldCause.fault m := by
  have hall : ∀ a b : Fin 4, a ≠ b → HoldCause.fault a ≠ HoldCause.fault b := by decide
  exact hall ⟨n, hn⟩ ⟨m, hm⟩ (by simpa using h)

/-- What re-sampling input `n` leaves of the inputs' levels and of the other latches and holds. -/
theorem resampled_other (n : Nat) (setup : FaultSetup) (now : Nat) (f : Frame) :
    (f.resampled n setup now).levels = f.levels ∧ (f.resampled n setup now).latches.length = f.latches.length ∧
    (∀ m, m ≠ n → (f.resampled n setup now).latches.getD m false = f.latches.getD m false) ∧
    (∀ c, c ≠ .alertStop → c ≠ HoldCause.fault n → (f.resampled n setup now).holds.has c = f.holds.has c) := by
  have hset : ∀ (v : Bool) m, m ≠ n → (f.latches.set n v).getD m false = f.latches.getD m false := fun v m hm => by
    simp [List.getD_eq_getElem?_getD, List.getElem?_set_ne hm.symm]
  unfold Frame.resampled Frame.edged
  dsimp only
  split
  · split
    · refine ⟨rfl, rfl, fun _ _ => rfl, fun c _ hc => ?_⟩
      dsimp only
      split
      · exact put_has_ne _ hc _
      · rfl
    · split
      · exact ⟨rfl, List.length_set .., hset true, fun c hstop hc => (put_has_ne _ hc _).trans (raised_has _ _ _ _ _ hstop)⟩
      · exact ⟨rfl, List.length_set .., hset true, fun c hstop hc => raised_has _ _ _ _ _ hstop⟩
  · refine ⟨rfl, List.length_set .., hset false, fun c _ hc => ?_⟩
    dsimp only
    split
    · exact put_has_ne _ hc _
    · rfl

/-- What re-sampling makes of input `n`: its latch is whether it is active, its hold follows it where its class is STOP, and an edge
has raised its alert. -/
theorem resampled_self {n : Nat} (setup : FaultSetup) (now : Nat) {f : Frame} (hn : n < f.latches.length) :
    (f.resampled n setup now).latches.getD n false = setup.isActive (f.levels.getD n false) ∧
    ((f.resampled n setup now).holds.has (HoldCause.fault n) =
      if setup.cls = .stop then setup.isActive (f.levels.getD n false) else f.holds.has (HoldCause.fault n)) := by
  have hset : ∀ v : Bool, (f.latches.set n v).getD n false = v := fun v => by
    simp [List.getD_eq_getElem?_getD, List.getElem?_set_self hn]
  unfold Frame.resampled Frame.edged
  dsimp only
  cases hactive : setup.isActive (f.levels.getD n false)
  · refine ⟨hset false, ?_⟩
    simp only [Bool.false_eq_true, if_false]
    split
    · exact put_has_self _ _ _
    · rfl
  · simp only [if_true]
    split
    · rename_i hlatch
      refine ⟨hlatch, ?_⟩
      dsimp only
      split
      · exact put_has_self _ _ _
      · rfl
    · split
      · exact ⟨hset true, put_has_self _ _ _⟩
      · exact ⟨hset true, raised_has _ _ _ _ _ (fault_ne_alertStop n)⟩

/-- The present level of input `n`, its latch and its hold, as the other inputs' re-sampling keeps them. -/
def State.inputAt (n : Nat) (s : State) : Bool × Bool × Bool × Option FaultSetup × Nat :=
  (s.faultLevel n, s.faultLatch n, s.frame.holds.has (HoldCause.fault n), s.faultSetup n, s.frame.latches.length)

theorem resampleOne_inputAt_ne {n m : Nat} (hn : n < 4) (hm : m < 4) (h : m ≠ n) (s : State) :
    (resampleOne n s).inputAt m = s.inputAt m := by
  cases hsetup : s.faultSetup n with
  | none => rw [resampleOne_unset hsetup]
  | some setup =>
    obtain ⟨hlevels, hlength, hlatch, hhold⟩ := resampled_other n setup s.del.seconds s.frame
    have hkept := hhold _ (fault_ne_alertStop m) (fault_injective hm hn h)
    rw [State.inputAt, resampleOne_faultSetup, resampleOne_eq hsetup]
    simp only [State.inputAt, State.faultLevel, State.faultLatch, hlevels, hlength, hlatch m h, hkept]

/-- What the re-sampling of an input makes of it. -/
def Resamples (n : Nat) (setup : FaultSetup) (s t : State) : Prop :=
  t.faultLatch n = setup.isActive (s.faultLevel n) ∧
  (t.frame.holds.has (HoldCause.fault n) =
    if setup.cls = .stop then setup.isActive (s.faultLevel n) else s.frame.holds.has (HoldCause.fault n)) ∧
  (setup.isActive (s.faultLevel n) = true → s.faultLatch n = false → alerted .faultInput (some n) t)

theorem resampleOne_self {n : Nat} {s : State} {setup : FaultSetup} (hsetup : s.faultSetup n = some setup)
    (hn : n < s.frame.latches.length) : Resamples n setup s (resampleOne n s) := by
  obtain ⟨hlatch, hhold⟩ := resampled_self (n := n) setup s.del.seconds hn
  refine ⟨?_, ?_, fun hactive hl => ?_⟩
  · rw [resampleOne_eq hsetup]
    exact hlatch
  · rw [resampleOne_eq hsetup]
    exact hhold
  · have hedge : alerted .faultInput (some n) (activeEdge n setup s) := by
      unfold activeEdge
      dsimp only
      split <;> exact alerted_raise _ _ _ _
    unfold resampleOne
    simp only [hsetup, hactive, hl, if_true, Bool.false_eq_true, if_false]
    exact hedge

theorem resampleOne_alerted {code : AlertCode} {subject : Option Nat} (n : Nat) {s : State} (h : alerted code subject s) :
    alerted code subject (resampleOne n s) := by
  have hedge : ∀ setup, alerted code subject (activeEdge n setup s) := fun setup => by
    unfold activeEdge
    dsimp only
    split <;> exact alerted_raise_of (s := setLatch n true s) h _ _ _
  unfold resampleOne
  split
  · exact h
  · split
    · split
      · split <;> exact h
      · exact hedge _
    · unfold clearLatch
      dsimp only
      split <;> exact h

theorem each_resample_notMem {l : List Nat} {n : Nat} (hl : ∀ m ∈ l, m < 4) (hn : n < 4) (h : n ∉ l) (s : State) :
    (each l resampleOne s).inputAt n = s.inputAt n := by
  induction l generalizing s with
  | nil => rfl
  | cons m l ih =>
    rw [List.mem_cons, not_or] at h
    exact (ih (fun k hk => hl k (List.mem_cons_of_mem _ hk)) h.2 _).trans
      (resampleOne_inputAt_ne (hl m List.mem_cons_self) hn h.1 s)

theorem each_resample_mem {l : List Nat} {n : Nat} (hl : ∀ m ∈ l, m < 4) (hn : n < 4) (hnodup : l.Nodup) (h : n ∈ l) {s : State}
    {setup : FaultSetup} (hsetup : s.faultSetup n = some setup) (hlength : s.frame.latches.length = 4) :
    Resamples n setup s (each l resampleOne s) := by
  induction l generalizing s with
  | nil => exact absurd h List.not_mem_nil
  | cons m l ih =>
    obtain ⟨hm, hnodup'⟩ := List.nodup_cons.mp hnodup
    have hl' : ∀ k ∈ l, k < 4 := fun k hk => hl k (List.mem_cons_of_mem _ hk)
    by_cases hmn : m = n
    · subst hmn
      obtain ⟨hlatch, hhold, halert⟩ := resampleOne_self hsetup (hlength ▸ hn)
      have hkept := each_resample_notMem hl' hn hm (resampleOne m s)
      simp only [State.inputAt, Prod.mk.injEq] at hkept
      obtain ⟨-, hlatch', hhold', -⟩ := hkept
      exact ⟨hlatch'.trans hlatch, hhold'.trans hhold, fun hactive hl =>
        each_keepsProp (alerted .faultInput (some m)) l resampleOne (fun k _ hk => resampleOne_alerted k hk) (halert hactive hl)⟩
    · have hkept := resampleOne_inputAt_ne (hl m List.mem_cons_self) hn (Ne.symm hmn) s
      simp only [State.inputAt, Prod.mk.injEq] at hkept
      obtain ⟨hlevel, hlatch, hhold, hsetup', hlength'⟩ := hkept
      have hmem : n ∈ l := (List.mem_cons.mp h).resolve_left (Ne.symm hmn)
      have hrest := ih hl' hnodup' hmem (hsetup'.trans hsetup) (hlength'.trans hlength)
      unfold Resamples at hrest ⊢
      rw [hlevel, hlatch, hhold] at hrest
      exact hrest

/-- The re-sampling of the four inputs, input by input. -/
theorem resampleFaults_input {n : Nat} (hn : n < 4) {s : State} {setup : FaultSetup} (hsetup : s.faultSetup n = some setup)
    (hlength : s.frame.latches.length = 4) : Resamples n setup s (resampleFaults s) :=
  each_resample_mem (l := [0, 1, 2, 3]) (by decide) hn (by decide) (by
    simp only [List.mem_cons, List.not_mem_nil, or_false]
    omega) hsetup hlength

end Sys2Proof.Machine
end

section
/-! PROOFS. CONFIGURE (R42, R61, R100, R175, R184). -/

namespace Sys2Proof.Machine

theorem within_iff {lo hi v : Nat} : within lo hi v = true ↔ lo ≤ v ∧ v ≤ hi := by
  simp [within]

theorem setupInRange_iff {b : Nat} : setupInRange b = true ↔ b / 4 % 4 ≠ 3 ∧ (b < 16 ∨ Config.oddSetupByte b = true) := by
  simp [setupInRange]

/-- Every field of CONFIGURE in its range, field by field (R184). -/
theorem configurationInRange_iff (c : Configuration) : configurationInRange c = true ↔
    (1 ≤ c.station ∧ c.station ≤ 62) ∧ (96 ≤ c.spindles ∧ c.spindles ≤ 2016 ∧ 48 ∣ c.spindles) ∧ c.joined ≤ 1 ∧
    (60000 ≤ c.circumference ∧ c.circumference ≤ 150000) ∧ (50 ≤ c.ppr ∧ c.ppr ≤ 2000) ∧
    (500 ≤ c.scanPeriod ∧ c.scanPeriod ≤ 4000) ∧ (50 ≤ c.upPercent ∧ c.upPercent ≤ 95) ∧
    (5 ≤ c.downPercent ∧ c.downPercent ≤ 45 ∧ c.downPercent < c.upPercent) ∧ (1 ≤ c.slots ∧ c.slots ≤ 6) ∧
    (900 ≤ c.claimLevel ∧ c.claimLevel ≤ 995) ∧ (10 ≤ c.settleWindow ∧ c.settleWindow ≤ 120) ∧
    (1 ≤ c.attemptLimit ∧ c.attemptLimit ≤ 5) ∧ (4 ≤ c.rogueLimit ∧ c.rogueLimit ≤ 60) ∧
    (30 ≤ c.escalationAge ∧ c.escalationAge ≤ 900) ∧ (1 ≤ c.endsDownLimit ∧ c.endsDownLimit ≤ 200) ∧
    c.emptyMargin ≤ 50 ∧ c.lineDivisor ≤ 255 ∧
    (∀ b ∈ c.faults, b / 4 % 4 ≠ 3 ∧ (b < 16 ∨ Config.oddSetupByte b = true)) ∧
    (60 ≤ c.arrivalTime ∧ c.arrivalTime ≤ 600) ∧ (10 ≤ c.orderTime ∧ c.orderTime ≤ 120) ∧
    (300 ≤ c.exchangeTime ∧ c.exchangeTime ≤ 3600) ∧ (120 ≤ c.bookingGrace ∧ c.bookingGrace ≤ 1800) ∧
    (120 ≤ c.doffTime ∧ c.doffTime ≤ 1800) ∧ (10 ≤ c.horizon ∧ c.horizon ≤ 240) := by
  simp only [configurationInRange, Bool.and_eq_true, within_iff, decide_eq_true_eq, beq_iff_eq, List.all_eq_true,
    setupInRange_iff, Nat.dvd_iff_mod_eq_zero, and_assoc]

theorem doConfigure_past {s : State} (h : s.port.part ≠ .init) (c : Configuration) :
    doConfigure c s = Effect.refuse .alreadyConfigured s := by
  unfold doConfigure
  split
  · contradiction
  · rfl
  · rfl

theorem doConfigure_init {s : State} (h : s.port.part = .init) (c : Configuration) :
    doConfigure c s = if configurationInRange c then Effect.done (configured c s) else Effect.refuse .outOfRange s := by
  unfold doConfigure
  rw [h]

/-- What an accepted CONFIGURE leaves of the state that it re-samples. -/
theorem configured_eq (c : Configuration) (s : State) : configured c s =
    { createTables c { s with port := { s.port with config := some c } } with
      frame := (configured c s).frame, port := { s.port with config := some c, part := .ready } } := by
  have h := resampleFaults_frame (createTables c { s with port := { s.port with config := some c } })
  have hframe : (configured c s).frame = (resampleFaults (createTables c { s with port := { s.port with config := some c } })).frame := rfl
  rw [hframe]
  unfold configured
  dsimp only
  generalize resampleFaults (createTables c { s with port := { s.port with config := some c } }) = u at *
  obtain ⟨h1, h2, h3, h4, h5, h6, h7, h8, h9, h10⟩ := h
  cases u
  subst h1 h2 h3 h4 h5 h6 h7 h8 h9 h10
  rfl

/-- Settles O56. -/
theorem configureTakesOrRefuses : Obligations.ConfigureTakesOrRefuses := by
  intro s tag c hopen inRange
  have hrange : configurationInRange c = true ↔ inRange := configurationInRange_iff c
  refine ⟨fun hpart => ?_, fun hpart hout => ?_, fun hpart hin => ?_⟩
  · exact hostRow_refused (c := .configure c) hopen (doConfigure_past hpart c) rfl
  · have heffect := doConfigure_init hpart c
    rw [if_neg (fun h => hout (hrange.mp h))] at heffect
    exact hostRow_refused (c := .configure c) hopen heffect rfl
  · have heffect := doConfigure_init hpart c
    rw [if_pos (hrange.mpr hin)] at heffect
    have hinputs := configured_inputs c s
    have hinput : ∀ n b, n < 4 → c.faults[n]? = some b → s.frame.latches.length = 4 →
        Resamples n (FaultSetup.ofByte b) s (configured c s) := fun n b hn hb hlength =>
      resampleFaults_input hn (s := createTables c { s with port := { s.port with config := some c } })
        (faultSetup_some hb (by simp [createTables])) hlength
    refine ⟨_, hostRow_done (c := .configure c) (k := 2) hopen heffect rfl, ?_⟩
    have heq := configured_eq c s
    generalize configured c s = u at *
    obtain ⟨-, -, hlevels, -, hnotStarted, -⟩ := hinputs
    have hkept : onlyIn [.mon, .pie, .creel, .frame, .port] s u := by
      refine ⟨by rw [heq]; rfl, fun b hb => ?_⟩
      rw [heq]
      cases b with
      | mon | pie | creel | frame | port => simp at hb
      | _ => rfl
    have hport : u.port = { s.port with config := some c, part := .ready } := congrArg State.port heq
    refine ⟨onlyIn_setPort hkept (by simp) _, congrArg (Port.completed 2 tag .done []) hport, congrArg State.mon heq,
      congrArg State.pie heq, congrArg State.creel heq, hlevels, hnotStarted, ?_⟩
    intro n b hn hb hlength active
    obtain ⟨hlatch, hhold, halert⟩ := hinput n b hn hb hlength
    simp only [ofByte_stop] at hhold
    exact ⟨hlatch, halert, hhold⟩

end Sys2Proof.Machine
end

section
/-! PROOFS. The operations of the piecing engine and the creel unit change nothing of the frame interface but the alert list, its
overflow count and ALERT_STOP (R177, R178). One lemma per operation. -/

namespace Sys2Proof.Machine

/-- The frame interface beside the alert list: the levels, the latches and every hold but ALERT_STOP. -/
def Frame.besideAlerts (f : Frame) : Frame :=
  { f with alerts := [], overflow := 0, holds := { f.holds with alertStop := false } }

theorem holds_of_besideAlerts {f g : Frame} (h : f.besideAlerts = g.besideAlerts) {c : HoldCause} (hc : c ≠ .alertStop) :
    f.holds.has c = g.holds.has c := by
  have hholds : ({ f.holds with alertStop := false } : HoldSet).has c = ({ g.holds with alertStop := false } : HoldSet).has c :=
    congrArg (fun k : Frame => k.holds.has c) h
  cases c with
  | alertStop => exact absurd rfl hc
  | _ => exact hholds

theorem each_besideAlerts (l : List Nat) {f : Nat → State → State} (h : ∀ i s, (f i s).frame.besideAlerts = s.frame.besideAlerts)
    (s : State) : (each l f s).frame.besideAlerts = s.frame.besideAlerts := each_keeps (fun u => u.frame.besideAlerts) l f h s

theorem foldl_besideAlerts {β : Type} (l : List β) {f : State → β → State}
    (h : ∀ s b, (f s b).frame.besideAlerts = s.frame.besideAlerts) (s : State) :
    (l.foldl f s).frame.besideAlerts = s.frame.besideAlerts := by
  induction l generalizing s with
  | nil => rfl
  | cons b l ih => exact (ih _).trans (h s b)

@[simp] theorem raiseAlert_besideAlerts (code : AlertCode) (cls : AlertClass) (subject : Option Nat) (s : State) :
    (raiseAlert code cls subject s).frame.besideAlerts = s.frame.besideAlerts := by
  rfl

@[simp] theorem joinLine_besideAlerts (t : Telegram) (s : State) :
    (joinLine t s).frame.besideAlerts = s.frame.besideAlerts := by
  unfold joinLine telegramDropped
  dsimp only
  split
  · simp
  · rfl

@[simp] theorem enqueue_besideAlerts (k : Kind) (dest : Nat) (payload : List Byte) (s : State) :
    (enqueue k dest payload s).frame.besideAlerts = s.frame.besideAlerts := by
  unfold enqueue
  repeat' split
  all_goals simp

@[simp] theorem endsDownCheck_besideAlerts (s : State) :
    (endsDownCheck s).frame.besideAlerts = s.frame.besideAlerts := by
  unfold endsDownCheck
  dsimp only
  repeat' split
  all_goals simp

@[simp] theorem enter_besideAlerts (i : Nat) (st : SpState) (s : State) :
    (enter i st s).frame.besideAlerts = s.frame.besideAlerts := by
  unfold enter
  dsimp only
  repeat' split
  all_goals simp

@[simp] theorem bookEnter_besideAlerts (i : Nat) (st : SpState) (s : State) :
    (bookEnter i st s).frame.besideAlerts = s.frame.besideAlerts := by
  unfold bookEnter
  simp

@[simp] theorem joinQueue_besideAlerts (i : Nat) (s : State) :
    (joinQueue i s).frame.besideAlerts = s.frame.besideAlerts := by
  unfold joinQueue
  repeat' split
  all_goals simp

@[simp] theorem refillSide_besideAlerts (n : Nat) (x : Side) (s : State) :
    (refillSide n x s).frame.besideAlerts = s.frame.besideAlerts := by
  induction n generalizing s with
  | zero => rfl
  | succ n ih =>
    unfold refillSide
    split
    · split
      · rfl
      · exact (ih _).trans (enter_besideAlerts _ _ s)
    · rfl

@[simp] theorem refill_besideAlerts (s : State) :
    (refill s).frame.besideAlerts = s.frame.besideAlerts := by
  unfold refill
  simp

@[simp] theorem makeRogue_besideAlerts (i : Nat) (s : State) :
    (makeRogue i s).frame.besideAlerts = s.frame.besideAlerts := by
  unfold makeRogue
  dsimp only
  simp

@[simp] theorem place_besideAlerts (k : Placement) (i : Nat) (s : State) :
    (place k i s).frame.besideAlerts = s.frame.besideAlerts := by
  unfold place
  dsimp only
  repeat' split
  all_goals simp

@[simp] theorem failedPiecing_besideAlerts (i : Nat) (s : State) :
    (failedPiecing i s).frame.besideAlerts = s.frame.besideAlerts := by
  unfold failedPiecing
  dsimp only
  repeat' split
  all_goals simp

@[simp] theorem returnToPiecing_besideAlerts (i : Nat) (s : State) :
    (returnToPiecing i s).frame.besideAlerts = s.frame.besideAlerts := by
  unfold returnToPiecing
  repeat' split
  all_goals simp

@[simp] theorem pieceCall_besideAlerts (x : Side) (s : State) :
    (pieceCall x s).frame.besideAlerts = s.frame.besideAlerts := by
  unfold pieceCall
  dsimp only
  repeat' split
  all_goals simp

@[simp] theorem enterCalling_besideAlerts (x : Side) (s : State) :
    (enterCalling x s).frame.besideAlerts = s.frame.besideAlerts := by
  unfold enterCalling
  dsimp only
  simp

@[simp] theorem enterIdle_besideAlerts (x : Side) (s : State) :
    (enterIdle x s).frame.besideAlerts = s.frame.besideAlerts := by
  unfold enterIdle
  dsimp only
  simp

@[simp] theorem callOrIdle_besideAlerts (x : Side) (s : State) :
    (callOrIdle x s).frame.besideAlerts = s.frame.besideAlerts := by
  unfold callOrIdle
  repeat' split
  all_goals simp

@[simp] theorem sendRelease_besideAlerts (x : Side) (s : State) :
    (sendRelease x s).frame.besideAlerts = s.frame.besideAlerts := by
  unfold sendRelease
  repeat' split
  all_goals simp

@[simp] theorem sendCancel_besideAlerts (x : Side) (s : State) :
    (sendCancel x s).frame.besideAlerts = s.frame.besideAlerts := by
  unfold sendCancel
  repeat' split
  all_goals simp

@[simp] theorem issueOrder_besideAlerts (x : Side) (i : Nat) (asc : Bool) (s : State) :
    (issueOrder x i asc s).frame.besideAlerts = s.frame.besideAlerts := by
  unfold issueOrder
  dsimp only
  repeat' split
  all_goals simp

@[simp] theorem decideNext_besideAlerts (x : Side) (s : State) :
    (decideNext x s).frame.besideAlerts = s.frame.besideAlerts := by
  unfold decideNext
  repeat' split
  all_goals simp

@[simp] theorem notifyOne_besideAlerts (s0 : State) (x : Side) (s : State) :
    (notifyOne s0 x s).frame.besideAlerts = s.frame.besideAlerts := by
  unfold notifyOne
  dsimp only
  repeat' split
  all_goals simp

@[simp] theorem notify_besideAlerts (s0 : State) (s : State) :
    (notify s0 s).frame.besideAlerts = s.frame.besideAlerts := by
  unfold notify
  exact foldl_besideAlerts _ (fun u x => notifyOne_besideAlerts _ x u) s

theorem piecingEvent_besideAlerts {f : State → State} {s : State} (h : (f s).frame.besideAlerts = s.frame.besideAlerts) :
    (piecingEvent f s).frame.besideAlerts = s.frame.besideAlerts := by
  simp [piecingEvent, h]

@[simp] theorem withdrawOf_besideAlerts (x : Side) (i : Nat) (s : State) :
    (withdrawOf x i s).frame.besideAlerts = s.frame.besideAlerts := by
  unfold withdrawOf
  dsimp only
  repeat' split
  all_goals simp

@[simp] theorem withdrawOrder_besideAlerts (i : Nat) (s : State) :
    (withdrawOrder i s).frame.besideAlerts = s.frame.besideAlerts := by
  unfold withdrawOrder
  simp

@[simp] theorem returnOrdered_besideAlerts (x : Side) (s : State) :
    (returnOrdered x s).frame.besideAlerts = s.frame.besideAlerts := by
  unfold returnOrdered
  repeat' split
  all_goals simp

@[simp] theorem suspendOne_besideAlerts (x : Side) (s : State) :
    (suspendOne x s).frame.besideAlerts = s.frame.besideAlerts := by
  unfold suspendOne
  dsimp only
  repeat' split
  all_goals simp

@[simp] theorem suspendEngagements_besideAlerts (s : State) :
    (suspendEngagements s).frame.besideAlerts = s.frame.besideAlerts := by
  unfold suspendEngagements
  exact foldl_besideAlerts _ (fun u x => suspendOne_besideAlerts x u) s

@[simp] theorem resumeEngagements_besideAlerts (s : State) :
    (resumeEngagements s).frame.besideAlerts = s.frame.besideAlerts := by
  unfold resumeEngagements
  exact foldl_besideAlerts _ (fun u x => by split <;> simp) s

@[simp] theorem endEngagement_besideAlerts (x : Side) (s : State) :
    (endEngagement x s).frame.besideAlerts = s.frame.besideAlerts := by
  unfold endEngagement
  dsimp only
  simp

@[simp] theorem restartEngagement_besideAlerts (x : Side) (s : State) :
    (restartEngagement x s).frame.besideAlerts = s.frame.besideAlerts := by
  unfold restartEngagement
  repeat' split
  all_goals simp

@[simp] theorem restartPiecing_besideAlerts (s : State) :
    (restartPiecing s).frame.besideAlerts = s.frame.besideAlerts := by
  unfold restartPiecing
  exact foldl_besideAlerts _ (fun u x => restartEngagement_besideAlerts x u) s

@[simp] theorem announceDue_besideAlerts (s : State) :
    (announceDue s).frame.besideAlerts = s.frame.besideAlerts := by
  unfold announceDue
  dsimp only
  simp

@[simp] theorem rebuildDue_besideAlerts (s : State) :
    (rebuildDue s).frame.besideAlerts = s.frame.besideAlerts := by
  unfold rebuildDue
  dsimp only
  repeat' split
  all_goals simp

@[simp] theorem emptyAlert_besideAlerts (i : Nat) (s : State) :
    (emptyAlert i s).frame.besideAlerts = s.frame.besideAlerts := by
  unfold emptyAlert
  repeat' split
  all_goals simp

@[simp] theorem marginOne_besideAlerts (i : Nat) (s : State) :
    (marginOne i s).frame.besideAlerts = s.frame.besideAlerts := by
  unfold marginOne
  repeat' split
  all_goals simp

@[simp] theorem recomputeSection_besideAlerts (k : Nat) (s : State) :
    (recomputeSection k s).frame.besideAlerts = s.frame.besideAlerts := by
  have hrecords : ∀ u : State, (each (indicesOf k) marginOne u).frame.besideAlerts = u.frame.besideAlerts :=
    each_besideAlerts _ marginOne_besideAlerts
  have hevent := piecingEvent_besideAlerts (hrecords s)
  unfold recomputeSection
  dsimp only
  split
  · simpa using hevent
  · rfl

@[simp] theorem recomputeAll_besideAlerts (s : State) :
    (recomputeAll s).frame.besideAlerts = s.frame.besideAlerts := by
  unfold recomputeAll
  rw [rebuildDue_besideAlerts]
  exact each_besideAlerts _ recomputeSection_besideAlerts s

@[simp] theorem recomputeOne_besideAlerts (k : Nat) (s : State) :
    (recomputeOne k s).frame.besideAlerts = s.frame.besideAlerts := by
  unfold recomputeOne
  simp

@[simp] theorem goneEmpty_besideAlerts (i : Nat) (s : State) :
    (goneEmpty i s).frame.besideAlerts = s.frame.besideAlerts := by
  unfold goneEmpty
  dsimp only
  repeat' split
  all_goals simp

@[simp] theorem goDown_besideAlerts (k : Placement) (i : Nat) (s : State) :
    (goDown k i s).frame.besideAlerts = s.frame.besideAlerts := by
  unfold goDown
  dsimp only
  repeat' split
  all_goals simp

@[simp] theorem rebase_besideAlerts (k loaded : Nat) (rem : List Nat) (s : State) :
    (rebase k loaded rem s).frame.besideAlerts = s.frame.besideAlerts := by
  unfold rebase
  dsimp only
  exact (each_besideAlerts _ (fun _ _ => by simp) _).trans (by simp)

@[simp] theorem loadRebase_besideAlerts (k : Nat) (s : State) :
    (loadRebase k s).frame.besideAlerts = s.frame.besideAlerts := by
  unfold loadRebase
  dsimp only
  rw [rebase_besideAlerts]
  exact each_besideAlerts _ (fun _ _ => by simp) _

@[simp] theorem carryRebase_besideAlerts (k : Nat) (s : State) :
    (carryRebase k s).frame.besideAlerts = s.frame.besideAlerts := by
  unfold carryRebase
  split
  · dsimp only
    rw [rebase_besideAlerts]
    exact each_besideAlerts _ (fun _ _ => by simp) _
  · rfl

@[simp] theorem leaveNormal_besideAlerts (k : Nat) (s : State) :
    (leaveNormal k s).frame.besideAlerts = s.frame.besideAlerts := by
  unfold leaveNormal
  simp

@[simp] theorem enterNormal_besideAlerts (k : Nat) (s : State) :
    (enterNormal k s).frame.besideAlerts = s.frame.besideAlerts := by
  unfold enterNormal
  simp

@[simp] theorem freeSlot_besideAlerts (n : Nat) (s : State) :
    (freeSlot n s).frame.besideAlerts = s.frame.besideAlerts := by
  unfold freeSlot
  split
  · rw [show ∀ u : State, (setSlot n none u).frame = u.frame from fun u => by simp]
    exact each_besideAlerts _ (fun _ _ => by simp) _
  · rfl

@[simp] theorem unbook_besideAlerts (k : Nat) (s : State) :
    (unbook k s).frame.besideAlerts = s.frame.besideAlerts := by
  unfold unbook
  dsimp only
  repeat' split
  all_goals simp

@[simp] theorem freshBreak_besideAlerts (i : Nat) (s : State) :
    (freshBreak i s).frame.besideAlerts = s.frame.besideAlerts := by
  unfold freshBreak
  dsimp only
  simp

@[simp] theorem freshIf_besideAlerts (which : SpState → Bool) (i : Nat) (s : State) :
    (freshIf which i s).frame.besideAlerts = s.frame.besideAlerts := by
  unfold freshIf
  split
  · exact piecingEvent_besideAlerts (freshBreak_besideAlerts i s)
  · rfl

@[simp] theorem endLoaded_besideAlerts (k : Nat) (s : State) :
    (endLoaded k s).frame.besideAlerts = s.frame.besideAlerts := by
  unfold endLoaded
  dsimp only
  rw [enterNormal_besideAlerts, each_besideAlerts (indicesOf k) (freshIf_besideAlerts _)]
  simp [settleSection]

@[simp] theorem endNotLoaded_besideAlerts (k : Nat) (s : State) :
    (endNotLoaded k s).frame.besideAlerts = s.frame.besideAlerts := by
  unfold endNotLoaded
  dsimp only
  rw [enterNormal_besideAlerts, each_besideAlerts (indicesOf k) (freshIf_besideAlerts _)]
  simp [settleSection]

@[simp] theorem endUnknown_besideAlerts (k : Nat) (s : State) :
    (endUnknown k s).frame.besideAlerts = s.frame.besideAlerts := by
  unfold endUnknown
  simp [settleSection]

end Sys2Proof.Machine
end

section
/-! PROOFS. The outgoing queue of the line controller (R166). -/

namespace Sys2Proof.Machine

/-! ### Replacement keys -/

theorem sameKey_iff {t u : Telegram} : t.sameKey u = true ↔ t.key.isSome = true ∧ t.key = u.key := by
  simp [Telegram.sameKey]

/-- A key names its kind. -/
theorem key_kind {t : Telegram} {k : ReplaceKey} (h : t.key = some k) : k.kind = t.kind := by
  unfold Telegram.key at h
  split at h
  all_goals cases h
  all_goals simp_all

theorem kind_of_sameKey {t u : Telegram} (h : t.sameKey u = true) : t.kind = u.kind := by
  obtain ⟨hsome, hkey⟩ := sameKey_iff.mp h
  obtain ⟨k, hk⟩ := Option.isSome_iff_exists.mp hsome
  exact (key_kind hk).symm.trans (key_kind (hkey ▸ hk))

/-- Telegrams of one key have it with the same others. -/
theorem sameKey_congr {t u : Telegram} (h : t.sameKey u = true) (v : Telegram) : t.sameKey v = u.sameKey v := by
  obtain ⟨-, hkey⟩ := sameKey_iff.mp h
  simp [Telegram.sameKey, hkey]

theorem sameKey_congr_right {t u : Telegram} (h : t.sameKey u = true) (v : Telegram) : v.sameKey t = v.sameKey u := by
  obtain ⟨-, hkey⟩ := sameKey_iff.mp h
  simp [Telegram.sameKey, hkey]

/-! ### The order of the queue -/

theorem before_iff {o q : Outgoing} : o.before q = true ↔
    o.tel.kind.cls < q.tel.kind.cls ∨ o.tel.kind.cls = q.tel.kind.cls ∧ o.joined < q.joined := by
  simp [Outgoing.before]

theorem before_trans {o q r : Outgoing} (h1 : o.before q = true) (h2 : q.before r = true) : o.before r = true := by
  rw [before_iff] at *
  omega

theorem before_of_fresh {o q : Outgoing} (h : q.joined < o.joined) (hnot : ¬ o.before q = true) : q.before o = true := by
  rw [before_iff] at *
  omega

theorem mem_insertOutgoing {o q : Outgoing} {l : List Outgoing} : q ∈ insertOutgoing o l ↔ q = o ∨ q ∈ l := by
  induction l with
  | nil => simp [insertOutgoing]
  | cons p l ih =>
    unfold insertOutgoing
    split
    · simp
    · rw [List.mem_cons, ih, List.mem_cons]
      exact or_left_comm

theorem perm_insertOutgoing (o : Outgoing) (l : List Outgoing) : (insertOutgoing o l).Perm (o :: l) := by
  induction l with
  | nil => exact List.Perm.refl _
  | cons p l ih =>
    unfold insertOutgoing
    split
    · exact List.Perm.refl _
    · exact (ih.cons p).trans (List.Perm.swap o p l)

/-- A telegram that joins after all others keeps the queue in order. -/
theorem ordered_insertOutgoing {o : Outgoing} {l : List Outgoing} (hl : l.Pairwise (fun a b => a.before b = true))
    (hfresh : ∀ q ∈ l, q.joined < o.joined) : (insertOutgoing o l).Pairwise (fun a b => a.before b = true) := by
  induction l with
  | nil => exact List.pairwise_singleton _ _
  | cons p l ih =>
    obtain ⟨hp, hl'⟩ := List.pairwise_cons.mp hl
    unfold insertOutgoing
    split
    · rename_i hop
      exact List.pairwise_cons.mpr ⟨fun q hq => (List.mem_cons.mp hq).elim (fun h => h ▸ hop)
        (fun h => before_trans hop (hp q h)), hl⟩
    · rename_i hop
      refine List.pairwise_cons.mpr ⟨fun q hq => ?_, ih hl' fun q hq => hfresh q (List.mem_cons_of_mem _ hq)⟩
      obtain rfl | hq := mem_insertOutgoing.mp hq
      · exact before_of_fresh (hfresh p List.mem_cons_self) hop
      · exact hp q hq

/-! ### The telegram that makes room (R166, case 3) -/

/-- One step of the search for the telegram that joined last among those of a class greater than `c`. -/
def laterOf (c : Nat) (best : Option Outgoing) (q : Outgoing) : Option Outgoing :=
  if c < q.tel.kind.cls then
    match best with
    | none => some q
    | some b => if b.joined < q.joined then some q else some b
  else best

theorem laterOf_mono {c : Nat} {best : Option Outgoing} {q b : Outgoing} (h : b ∈ best) :
    ∃ b' ∈ laterOf c best q, b.joined ≤ b'.joined := by
  obtain rfl := Option.mem_def.mp h
  unfold laterOf
  split
  · dsimp only
    split
    · exact ⟨q, rfl, by omega⟩
    · exact ⟨b, rfl, le_refl _⟩
  · exact ⟨b, rfl, le_refl _⟩

theorem laterOf_new {c : Nat} {best : Option Outgoing} {q : Outgoing} (h : c < q.tel.kind.cls) :
    ∃ b' ∈ laterOf c best q, q.joined ≤ b'.joined := by
  unfold laterOf
  rw [if_pos h]
  cases best with
  | none => exact ⟨q, rfl, le_refl _⟩
  | some b =>
    dsimp only
    split
    · exact ⟨q, rfl, le_refl _⟩
    · exact ⟨b, rfl, by omega⟩

theorem laterOf_mem {c : Nat} {best : Option Outgoing} {q b : Outgoing} (h : b ∈ laterOf c best q) :
    b ∈ best ∨ b = q ∧ c < q.tel.kind.cls := by
  unfold laterOf at h
  split at h
  · rename_i hc
    split at h
    · exact .inr ⟨(Option.some.inj h).symm, hc⟩
    · split at h
      · exact .inr ⟨(Option.some.inj h).symm, hc⟩
      · exact .inl h
  · exact .inl h

theorem foldl_laterOf_mono {c : Nat} (l : List Outgoing) {best : Option Outgoing} {b : Outgoing} (h : b ∈ best) :
    ∃ b' ∈ l.foldl (laterOf c) best, b.joined ≤ b'.joined := by
  induction l generalizing best b with
  | nil => exact ⟨b, h, le_refl _⟩
  | cons q l ih =>
    obtain ⟨b1, hb1, hle⟩ := laterOf_mono (c := c) (q := q) h
    obtain ⟨b2, hb2, hle'⟩ := ih hb1
    exact ⟨b2, hb2, hle.trans hle'⟩

theorem foldl_laterOf_covers {c : Nat} {l : List Outgoing} {q : Outgoing} (hq : q ∈ l) (h : c < q.tel.kind.cls)
    (best : Option Outgoing) : ∃ b' ∈ l.foldl (laterOf c) best, q.joined ≤ b'.joined := by
  induction l generalizing best with
  | nil => exact absurd hq List.not_mem_nil
  | cons p l ih =>
    obtain rfl | hq := List.mem_cons.mp hq
    · obtain ⟨b, hb, hle⟩ := laterOf_new (best := best) h
      obtain ⟨b', hb', hle'⟩ := foldl_laterOf_mono l hb
      exact ⟨b', hb', hle.trans hle'⟩
    · exact ih hq _

theorem foldl_laterOf_mem {c : Nat} {l : List Outgoing} {best : Option Outgoing} {b : Outgoing}
    (h : b ∈ l.foldl (laterOf c) best) : b ∈ best ∨ b ∈ l ∧ c < b.tel.kind.cls := by
  induction l generalizing best with
  | nil => exact .inl h
  | cons q l ih =>
    obtain h | ⟨hmem, hc⟩ := ih h
    · obtain h | ⟨rfl, hc⟩ := laterOf_mem h
      · exact .inl h
      · exact .inr ⟨List.mem_cons_self, hc⟩
    · exact .inr ⟨List.mem_cons_of_mem _ hmem, hc⟩

theorem lastOfGreater_greater {c : Nat} {l : List Outgoing} {b : Outgoing} (h : lastOfGreater c l = some b) :
    b ∈ l ∧ c < b.tel.kind.cls :=
  (foldl_laterOf_mem (best := none) (b := b) h).resolve_left (Option.not_mem_none b)

theorem lastOfGreater_last {c : Nat} {l : List Outgoing} {q : Outgoing} (hq : q ∈ l) (h : c < q.tel.kind.cls) :
    ∃ b, lastOfGreater c l = some b ∧ q.joined ≤ b.joined := foldl_laterOf_covers hq h none

/-! ### The four cases of R166 -/

/-- A telegram as it joins the queue. -/
def Outgoing.joining (t : Telegram) (l : Line) : Outgoing := { tel := t, collisions := 0, joined := l.nextJoin }

/-- A queued telegram with its content replaced by a newer one of its key. -/
def Outgoing.replacedBy (t : Telegram) (q : Outgoing) : Outgoing :=
  if q.tel.sameKey t then { q with tel := t, collisions := 0 } else q

theorem any_sameKey {t : Telegram} {l : List Outgoing} :
    l.any (fun q => q.tel.sameKey t) = true ↔ ∃ q ∈ l, q.tel.sameKey t = true := List.any_eq_true

theorem any_sameKey_false {t : Telegram} {l : List Outgoing} (h : ∀ q ∈ l, q.tel.sameKey t = false) :
    ¬ l.any (fun q => q.tel.sameKey t) = true := by
  simpa using h

theorem joined_replaced {t : Telegram} {l : Line} (h : ∃ q ∈ l.out, q.tel.sameKey t = true) :
    joined t l = ({ l with out := l.out.map (Outgoing.replacedBy t) }, false) := if_pos (any_sameKey.mpr h)

theorem joined_room {t : Telegram} {l : Line} (h : ∀ q ∈ l.out, q.tel.sameKey t = false) (hroom : l.out.length < 8) :
    joined t l = ({ l with out := insertOutgoing (Outgoing.joining t l) l.out, nextJoin := l.nextJoin + 1 }, false) :=
  (if_neg (any_sameKey_false h)).trans (if_pos hroom)

theorem joined_made {t : Telegram} {l : Line} (h : ∀ q ∈ l.out, q.tel.sameKey t = false) (hfull : 8 ≤ l.out.length)
    {q : Outgoing} (hq : lastOfGreater t.kind.cls l.out = some q) :
    joined t l =
      ({ l with out := insertOutgoing (Outgoing.joining t l) (l.out.erase q), nextJoin := l.nextJoin + 1 }, true) := by
  refine (if_neg (any_sameKey_false h)).trans ((if_neg (not_lt.mpr hfull)).trans ?_)
  rw [hq]
  rfl

theorem joined_dropped {t : Telegram} {l : Line} (h : ∀ q ∈ l.out, q.tel.sameKey t = false) (hfull : 8 ≤ l.out.length)
    (hnone : ∀ q ∈ l.out, q.tel.kind.cls ≤ t.kind.cls) : joined t l = (l, true) := by
  have hlast : lastOfGreater t.kind.cls l.out = none := by
    cases hb : lastOfGreater t.kind.cls l.out with
    | none => rfl
    | some b =>
      obtain ⟨hmem, hlt⟩ := lastOfGreater_greater hb
      exact absurd hlt (not_lt.mpr (hnone b hmem))
  refine (if_neg (any_sameKey_false h)).trans ((if_neg (not_lt.mpr hfull)).trans ?_)
  rw [hlast]

theorem replacedBy_joined (t : Telegram) (q : Outgoing) : (q.replacedBy t).joined = q.joined := by
  unfold Outgoing.replacedBy
  split <;> rfl

theorem replacedBy_cls (t : Telegram) (q : Outgoing) : (q.replacedBy t).tel.kind.cls = q.tel.kind.cls := by
  unfold Outgoing.replacedBy
  split
  · rename_i h
    rw [kind_of_sameKey h]
  · rfl

theorem replacedBy_sameKey (t : Telegram) (q r : Outgoing) :
    (q.replacedBy t).tel.sameKey (r.replacedBy t).tel = q.tel.sameKey r.tel := by
  have hright : ∀ u : Telegram, u.sameKey (r.replacedBy t).tel = u.sameKey r.tel := fun u => by
    unfold Outgoing.replacedBy
    split
    · rename_i h
      exact (sameKey_congr_right h u).symm
    · rfl
  rw [hright]
  unfold Outgoing.replacedBy
  split
  · rename_i h
    exact (sameKey_congr h r.tel).symm
  · rfl

/-- What R166 keeps of the outgoing queue: its order, its stamps and its keys. -/
structure Line.ordered (l : Line) : Prop where
  before : l.out.Pairwise (fun a b => a.before b = true)
  stamped : ∀ q ∈ l.out, q.joined < l.nextJoin
  keyed : l.out.Pairwise (fun a b => a.tel.sameKey b.tel = false)
  joined : (l.out.map Outgoing.joined).Nodup

theorem ordered_replaced {l : Line} (h : l.ordered) (t : Telegram) :
    Line.ordered { l with out := l.out.map (Outgoing.replacedBy t) } where
  before := List.pairwise_map.mpr (h.before.imp fun hab => by
    rw [before_iff] at hab ⊢
    simpa only [replacedBy_cls, replacedBy_joined] using hab)
  stamped q hq := by
    obtain ⟨p, hp, rfl⟩ := List.mem_map.mp hq
    rw [replacedBy_joined]
    exact h.stamped p hp
  keyed := List.pairwise_map.mpr (h.keyed.imp fun hab => by rwa [replacedBy_sameKey])
  joined := by
    rw [List.map_map, show Outgoing.joined ∘ Outgoing.replacedBy t = Outgoing.joined from funext (replacedBy_joined t)]
    exact h.joined

theorem sameKey_symm {t u : Telegram} (h : t.sameKey u = true) : u.sameKey t = true := by
  obtain ⟨hsome, hkey⟩ := sameKey_iff.mp h
  exact sameKey_iff.mpr ⟨hkey ▸ hsome, hkey.symm⟩

/-- A telegram of a new key that joins a part of the queue. -/
theorem ordered_inserted {l : Line} (h : l.ordered) {t : Telegram} {kept : List Outgoing} (hkept : kept.Sublist l.out)
    (hnew : ∀ q ∈ kept, q.tel.sameKey t = false) :
    Line.ordered { l with out := insertOutgoing (Outgoing.joining t l) kept, nextJoin := l.nextJoin + 1 } := by
  have hstamped : ∀ q ∈ kept, q.joined < l.nextJoin := fun q hq => h.stamped q (hkept.subset hq)
  have hperm := perm_insertOutgoing (Outgoing.joining t l) kept
  refine ⟨ordered_insertOutgoing (h.before.sublist hkept) hstamped, fun q hq => ?_, ?_, ?_⟩
  · obtain rfl | hq := mem_insertOutgoing.mp hq
    · exact Nat.lt_succ_self _
    · exact (hstamped q hq).trans (Nat.lt_succ_self _)
  · refine (hperm.pairwise_iff (fun {a b} hab => ?_)).mpr (List.pairwise_cons.mpr ⟨fun q hq => ?_, h.keyed.sublist hkept⟩)
    · exact Bool.eq_false_iff.mpr fun hba => Bool.eq_false_iff.mp hab (sameKey_symm hba)
    · exact Bool.eq_false_iff.mpr fun htq => Bool.eq_false_iff.mp (hnew q hq) (sameKey_symm htq)
  · refine (hperm.map Outgoing.joined).nodup_iff.mpr (List.nodup_cons.mpr ⟨fun hmem => ?_, h.joined.sublist (hkept.map _)⟩)
    obtain ⟨q, hq, hjoined⟩ := List.mem_map.mp hmem
    exact (hstamped q hq).ne hjoined

/-- R166 keeps the queue within eight, ordered, stamped and keyed. -/
theorem joined_ordered {l : Line} (h : l.ordered) (hlength : l.out.length ≤ 8) (t : Telegram) :
    (joined t l).1.out.length ≤ 8 ∧ (joined t l).1.ordered := by
  by_cases hsame : ∃ q ∈ l.out, q.tel.sameKey t = true
  · rw [joined_replaced hsame]
    exact ⟨by simpa using hlength, ordered_replaced h t⟩
  · have hnew : ∀ q ∈ l.out, q.tel.sameKey t = false := fun q hq => Bool.eq_false_iff.mpr fun hq' => hsame ⟨q, hq, hq'⟩
    by_cases hroom : l.out.length < 8
    · rw [joined_room hnew hroom]
      exact ⟨by rw [length_insertOutgoing]; omega, ordered_inserted h (List.Sublist.refl _) hnew⟩
    · cases hlast : lastOfGreater t.kind.cls l.out with
      | some b =>
        rw [joined_made hnew (not_lt.mp hroom) hlast]
        have hmem := (lastOfGreater_greater hlast).1
        refine ⟨?_, ordered_inserted h List.erase_sublist fun q hq => hnew q (List.mem_of_mem_erase hq)⟩
        rw [length_insertOutgoing, List.length_erase_of_mem hmem]
        omega
      | none =>
        have hnone : ∀ q ∈ l.out, q.tel.kind.cls ≤ t.kind.cls := fun q hq => by
          by_contra hlt
          obtain ⟨b, hb, -⟩ := lastOfGreater_last hq (not_le.mp hlt)
          rw [hlast] at hb
          cases hb
        rw [joined_dropped hnew (not_lt.mp hroom) hnone]
        exact ⟨hlength, h⟩

/-- Two queued telegrams of one stamp are one. -/
theorem eq_of_joined {l : List Outgoing} (h : (l.map Outgoing.joined).Nodup) {p q : Outgoing} (hp : p ∈ l) (hq : q ∈ l)
    (heq : p.joined = q.joined) : p = q := List.inj_on_of_nodup_map h hp hq heq

/-- Settles O49: what the queue keeps by `joined_ordered`, what joins by the four cases of R166. -/
theorem outgoingQueueKeepsOrderAndKeys : Obligations.OutgoingQueueKeepsOrderAndKeys := by
  intro t l hlength hbefore hstamped hkeyed hjoined r dropped
  obtain ⟨hlength', hbefore', hstamped', hkeyed', hjoined'⟩ := joined_ordered ⟨hbefore, hstamped, hkeyed, hjoined⟩ hlength t
  refine ⟨hlength', hbefore', hstamped', hkeyed', hjoined', fun hsame => ?_, fun hnew hroom => ?_, fun hnew hfull => ?full⟩
  · have hcase := joined_replaced hsame
    exact ⟨congrArg Prod.snd hcase, congrArg (fun x => x.1.nextJoin) hcase, congrArg (fun x => x.1.out) hcase⟩
  · have hcase := joined_room hnew hroom
    have hout : r.out = insertOutgoing (Outgoing.joining t l) l.out := congrArg (fun x => x.1.out) hcase
    rw [hout]
    exact ⟨congrArg Prod.snd hcase, mem_insertOutgoing.mpr (.inl rfl), fun q hq => mem_insertOutgoing.mpr (.inr hq)⟩
  case full =>
    by_cases hnone : ∀ q ∈ l.out, q.tel.kind.cls ≤ t.kind.cls
    · have hcase := joined_dropped hnew hfull.ge hnone
      exact ⟨congrArg Prod.snd hcase, fun _ => congrArg Prod.fst hcase, fun q hq hlt _ => absurd hlt (not_lt.mpr (hnone q hq))⟩
    · push Not at hnone
      obtain ⟨g, hg, hgreater⟩ := hnone
      obtain ⟨b, hb, -⟩ := lastOfGreater_last hg hgreater
      have hcase := joined_made hnew hfull.ge hb
      have hout : r.out = insertOutgoing (Outgoing.joining t l) (l.out.erase b) := congrArg (fun x => x.1.out) hcase
      refine ⟨congrArg Prod.snd hcase, fun hle => absurd hgreater (not_lt.mpr (hle g hg)), fun q hq hlt hlast => ?_⟩
      obtain ⟨hbmem, hbgreater⟩ := lastOfGreater_greater hb
      obtain ⟨b', hb', hle⟩ := lastOfGreater_last hq hlt
      obtain rfl : b = b' := Option.some.inj (hb.symm.trans hb')
      obtain rfl : b = q := eq_of_joined hjoined hbmem hq (le_antisymm (hlast b hbmem hbgreater) hle)
      have hnodup : l.out.Nodup := List.Nodup.of_map _ hjoined
      rw [hout]
      refine ⟨fun hmem => ?_, mem_insertOutgoing.mpr (.inl rfl), fun p hp hne =>
        mem_insertOutgoing.mpr (.inr ((List.mem_erase_of_ne hne).mpr hp))⟩
      obtain heq | hmem := mem_insertOutgoing.mp hmem
      · exact absurd (congrArg Outgoing.joined heq) (hstamped b hq).ne
      · exact hnodup.not_mem_erase hmem

end Sys2Proof.Machine
end

section
/-! PROOFS. The open shift's number, and the number and the waiting command of the closing one, through the operations of the piecing
engine and the creel unit (R150, R153, R160). One lemma per operation. -/

namespace Sys2Proof.Machine

/-- What a close in progress is known by: the open shift's number, the closing one's, and whether a CLOSE_SHIFT waits for it. -/
def State.closeMark (s : State) : Nat × Option (Nat × Bool) :=
  (s.shift.opened.number, s.shift.closing.map fun cl => (cl.shift.number, cl.waiting))

theorem closeMark_of_shift {s t : State} (h : t.shift = s.shift) : t.closeMark = s.closeMark := by
  simp [State.closeMark, h]

theorem each_closeMark (l : List Nat) {f : Nat → State → State} (h : ∀ i s, (f i s).closeMark = s.closeMark) (s : State) :
    (each l f s).closeMark = s.closeMark := each_keeps State.closeMark l f h s

theorem foldl_closeMark {β : Type} (l : List β) {f : State → β → State} (h : ∀ s b, (f s b).closeMark = s.closeMark)
    (s : State) : (l.foldl f s).closeMark = s.closeMark := by
  induction l generalizing s with
  | nil => rfl
  | cons b l ih => exact (ih _).trans (h s b)

theorem number_book (c : Option Cause) (n : Nat) (sh : Shift) : (sh.book c n).number = sh.number := by
  unfold Shift.book
  split <;> rfl

@[simp] theorem setSp_closeMark (i : Nat) (r : Spindle) (s : State) : (setSp i r s).closeMark = s.closeMark := rfl

@[simp] theorem modifySp_closeMark (i : Nat) (f : Spindle → Spindle) (s : State) : (modifySp i f s).closeMark = s.closeMark := rfl

@[simp] theorem raiseAlert_closeMark (code : AlertCode) (cls : AlertClass) (subject : Option Nat) (s : State) :
    (raiseAlert code cls subject s).closeMark = s.closeMark := rfl

@[simp] theorem enqueue_closeMark (k : Kind) (dest : Nat) (payload : List Byte) (s : State) :
    (enqueue k dest payload s).closeMark = s.closeMark := closeMark_of_shift (by simp)

@[simp] theorem setEng_closeMark (x : Side) (e : Engagement) (s : State) : (setEng x e s).closeMark = s.closeMark :=
  closeMark_of_shift (by simp)

@[simp] theorem modifySec_closeMark (k : Nat) (f : Section → Section) (s : State) :
    (modifySec k f s).closeMark = s.closeMark := closeMark_of_shift (by simp)

@[simp] theorem requeue_closeMark (i : Nat) (a b : SpState) (s : State) : (requeue i a b s).closeMark = s.closeMark :=
  closeMark_of_shift (by simp)

@[simp] theorem touch_closeMark (i : Nat) (s : State) :
    (touch i s).closeMark = s.closeMark := by
  unfold touch
  split
  · rename_i cl hcl
    split
    · rfl
    · simp only [State.closeMark, closeStep, hcl, Option.map_some, number_book]
      rfl
  · rfl

@[simp] theorem bookOpen_closeMark (i : Nat) (s : State) :
    (bookOpen i s).closeMark = s.closeMark := by
  unfold bookOpen
  dsimp only
  split
  · rfl
  · exact congrArg (fun m => (m, s.shift.closing.map fun cl => (cl.shift.number, cl.waiting))) (number_book _ _ _)

@[simp] theorem book_closeMark (i : Nat) (s : State) :
    (book i s).closeMark = s.closeMark := by
  unfold book
  repeat' split
  all_goals simp

@[simp] theorem countEvent_closeMark (k : Counted) (s : State) :
    (countEvent k s).closeMark = s.closeMark := by
  rfl

@[simp] theorem endsDownCheck_closeMark (s : State) :
    (endsDownCheck s).closeMark = s.closeMark := by
  exact closeMark_of_shift (by simp)

@[simp] theorem enter_closeMark (i : Nat) (st : SpState) (s : State) :
    (enter i st s).closeMark = s.closeMark := by
  unfold enter
  dsimp only
  repeat' split
  all_goals simp

@[simp] theorem bookEnter_closeMark (i : Nat) (st : SpState) (s : State) :
    (bookEnter i st s).closeMark = s.closeMark := by
  unfold bookEnter
  simp

@[simp] theorem joinQueue_closeMark (i : Nat) (s : State) :
    (joinQueue i s).closeMark = s.closeMark := by
  unfold joinQueue
  repeat' split
  all_goals simp

@[simp] theorem refillSide_closeMark (n : Nat) (x : Side) (s : State) :
    (refillSide n x s).closeMark = s.closeMark := by
  induction n generalizing s with
  | zero => rfl
  | succ n ih =>
    unfold refillSide
    split
    · split
      · rfl
      · exact (ih _).trans (enter_closeMark _ _ s)
    · rfl

@[simp] theorem refill_closeMark (s : State) :
    (refill s).closeMark = s.closeMark := by
  unfold refill
  simp

@[simp] theorem makeRogue_closeMark (i : Nat) (s : State) :
    (makeRogue i s).closeMark = s.closeMark := by
  unfold makeRogue
  dsimp only
  simp

@[simp] theorem place_closeMark (k : Placement) (i : Nat) (s : State) :
    (place k i s).closeMark = s.closeMark := by
  unfold place
  dsimp only
  repeat' split
  all_goals simp

@[simp] theorem failedPiecing_closeMark (i : Nat) (s : State) :
    (failedPiecing i s).closeMark = s.closeMark := by
  unfold failedPiecing
  dsimp only
  repeat' split
  all_goals simp

@[simp] theorem returnToPiecing_closeMark (i : Nat) (s : State) :
    (returnToPiecing i s).closeMark = s.closeMark := by
  unfold returnToPiecing
  repeat' split
  all_goals simp

@[simp] theorem pieceCall_closeMark (x : Side) (s : State) :
    (pieceCall x s).closeMark = s.closeMark := by
  exact closeMark_of_shift (by simp)

@[simp] theorem enterCalling_closeMark (x : Side) (s : State) :
    (enterCalling x s).closeMark = s.closeMark := by
  exact closeMark_of_shift (by simp)

@[simp] theorem enterIdle_closeMark (x : Side) (s : State) :
    (enterIdle x s).closeMark = s.closeMark := by
  exact closeMark_of_shift (by simp)

@[simp] theorem callOrIdle_closeMark (x : Side) (s : State) :
    (callOrIdle x s).closeMark = s.closeMark := by
  exact closeMark_of_shift (by simp)

@[simp] theorem sendRelease_closeMark (x : Side) (s : State) :
    (sendRelease x s).closeMark = s.closeMark := by
  exact closeMark_of_shift (by simp)

@[simp] theorem sendCancel_closeMark (x : Side) (s : State) :
    (sendCancel x s).closeMark = s.closeMark := by
  exact closeMark_of_shift (by simp)

@[simp] theorem issueOrder_closeMark (x : Side) (i : Nat) (asc : Bool) (s : State) :
    (issueOrder x i asc s).closeMark = s.closeMark := by
  unfold issueOrder
  dsimp only
  refine (closeMark_of_shift ?_).trans ((refill_closeMark _).trans (enter_closeMark i .ordered s))
  split <;> simp

@[simp] theorem decideNext_closeMark (x : Side) (s : State) :
    (decideNext x s).closeMark = s.closeMark := by
  unfold decideNext
  repeat' split
  all_goals simp

@[simp] theorem notifyOne_closeMark (s0 : State) (x : Side) (s : State) :
    (notifyOne s0 x s).closeMark = s.closeMark := by
  unfold notifyOne
  dsimp only
  repeat' split
  all_goals simp

@[simp] theorem notify_closeMark (s0 : State) (s : State) :
    (notify s0 s).closeMark = s.closeMark := by
  unfold notify
  exact foldl_closeMark _ (fun u x => notifyOne_closeMark _ x u) s

theorem piecingEvent_closeMark {f : State → State} {s : State} (h : (f s).closeMark = s.closeMark) :
    (piecingEvent f s).closeMark = s.closeMark := by
  simp [piecingEvent, h]

@[simp] theorem returnOrdered_closeMark (x : Side) (s : State) :
    (returnOrdered x s).closeMark = s.closeMark := by
  unfold returnOrdered
  repeat' split
  all_goals simp

@[simp] theorem endEngagement_closeMark (x : Side) (s : State) :
    (endEngagement x s).closeMark = s.closeMark := by
  unfold endEngagement
  dsimp only
  simp

@[simp] theorem restartEngagement_closeMark (x : Side) (s : State) :
    (restartEngagement x s).closeMark = s.closeMark := by
  unfold restartEngagement
  repeat' split
  all_goals simp

@[simp] theorem restartPiecing_closeMark (s : State) :
    (restartPiecing s).closeMark = s.closeMark := by
  unfold restartPiecing
  exact foldl_closeMark _ (fun u x => restartEngagement_closeMark x u) s

@[simp] theorem announceDue_closeMark (s : State) :
    (announceDue s).closeMark = s.closeMark := by
  exact closeMark_of_shift (by simp)

@[simp] theorem rebuildDue_closeMark (s : State) :
    (rebuildDue s).closeMark = s.closeMark := by
  exact closeMark_of_shift (by simp)

@[simp] theorem emptyAlert_closeMark (i : Nat) (s : State) :
    (emptyAlert i s).closeMark = s.closeMark := by
  exact closeMark_of_shift (by simp)

@[simp] theorem marginOne_closeMark (i : Nat) (s : State) :
    (marginOne i s).closeMark = s.closeMark := by
  unfold marginOne
  repeat' split
  all_goals simp

@[simp] theorem recomputeSection_closeMark (k : Nat) (s : State) :
    (recomputeSection k s).closeMark = s.closeMark := by
  have hrecords : ∀ u : State, (each (indicesOf k) marginOne u).closeMark = u.closeMark :=
    each_closeMark _ marginOne_closeMark
  have hevent := piecingEvent_closeMark (hrecords s)
  unfold recomputeSection
  dsimp only
  split
  · simpa using hevent
  · rfl

@[simp] theorem recomputeAll_closeMark (s : State) :
    (recomputeAll s).closeMark = s.closeMark := by
  unfold recomputeAll
  rw [rebuildDue_closeMark]
  exact each_closeMark _ recomputeSection_closeMark s

end Sys2Proof.Machine
end

section
/-! PROOFS. The telegrams that an event hands over (R166): composing `hands`, and the traffic of the piecing engine and the creel
unit, which holds no STATION_RESTART. -/

namespace Sys2Proof.Machine

/-! ### Handing over, telegram after telegram -/

/-- What the line controller makes of a telegram depends on it and on the configuration alone. -/
theorem enqueue_line_congr {s t : State} (hline : t.line = s.line) (hport : t.port = s.port) (kind : Kind) (dest : Nat)
    (payload : List Byte) : (enqueue kind dest payload t).line = (enqueue kind dest payload s).line := by
  unfold enqueue joinLine telegramDropped
  rw [running_of_port hport, cfg_of_port hport, hline]
  split
  · dsimp only
    split <;> rfl
  · exact hline

theorem handAll_port (l : List Handed) (s : State) : (handAll l s).port = s.port := by
  induction l generalizing s with
  | nil => rfl
  | cons m l ih => exact (ih _).trans (by simp)

theorem handAll_line_congr (l : List Handed) {s t : State} (hline : t.line = s.line) (hport : t.port = s.port) :
    (handAll l t).line = (handAll l s).line := by
  induction l generalizing s t with
  | nil => exact hline
  | cons m l ih => exact ih (enqueue_line_congr hline hport _ _ _) (by simpa using hport)

theorem handAll_append (l m : List Handed) (s : State) : handAll (l ++ m) s = handAll m (handAll l s) := by
  simp [handAll, List.foldl_append]

theorem hands_of_line {s t : State} (h : t.line = s.line) : hands [] s t := h

theorem hands_enqueue (kind : Kind) (dest : Nat) (payload : List Byte) (s : State) :
    hands [(kind, dest, payload)] s (enqueue kind dest payload s) := rfl

theorem hands_trans {l m : List Handed} {s t u : State} (h1 : hands l s t) (hport : t.port = s.port) (h2 : hands m t u) :
    hands (l ++ m) s u := by
  unfold hands at *
  rw [h2, handAll_append]
  exact handAll_line_congr m h1 (hport.trans (handAll_port l s).symm)

/-- Only the line, the port matter of where the telegrams are handed over from. -/
theorem hands_congr {l : List Handed} {s s' t t' : State} (h : hands l s t) (hline : s'.line = s.line) (hport : s'.port = s.port)
    (hline' : t'.line = t.line) : hands l s' t' := by
  unfold hands at *
  rw [hline', h, handAll_line_congr l hline hport]

/-! ### What the line controller keeps beside its queue -/

/-- The line controller beside its queue, its stamp and its counters. -/
def Line.besideQueue (l : Line) : Line := { l with out := [], nextJoin := 0, counters := LineCounters.zero }

theorem joined_besideQueue (t : Telegram) (l : Line) : (joined t l).1.besideQueue = l.besideQueue := by
  unfold joined
  dsimp only
  repeat' split
  all_goals rfl

theorem enqueue_besideQueue (kind : Kind) (dest : Nat) (payload : List Byte) (s : State) :
    (enqueue kind dest payload s).line.besideQueue = s.line.besideQueue := by
  unfold enqueue joinLine telegramDropped
  dsimp only
  split
  · split
    · exact joined_besideQueue _ _
    · exact joined_besideQueue _ _
  · rfl

theorem handAll_besideQueue (l : List Handed) (s : State) : (handAll l s).line.besideQueue = s.line.besideQueue := by
  induction l generalizing s with
  | nil => rfl
  | cons m l ih => exact (ih _).trans (enqueue_besideQueue ..)

theorem hands_besideQueue {l : List Handed} {s t : State} (h : hands l s t) : t.line.besideQueue = s.line.besideQueue := by
  rw [show t.line = (handAll l s).line from h, handAll_besideQueue]

/-! ### A STATION_RESTART at the head of the queue (R171) -/

/-- The queue is headed by `o`, a STATION_RESTART: the least class, and joined before any telegram to come. -/
def Line.headedBy (o : Outgoing) (l : Line) : Prop :=
  o.tel.kind = .stationRestart ∧ o.joined < l.nextJoin ∧ ∃ rest, l.out = o :: rest

theorem sameKey_of_kind_ne {t u : Telegram} (h : t.kind ≠ u.kind) : t.sameKey u = false :=
  Bool.eq_false_iff.mpr fun hsame => h (kind_of_sameKey hsame)

/-- Another telegram that joins leaves the head where it is. -/
theorem joined_headedBy {o : Outgoing} {l : Line} (h : l.headedBy o) {t : Telegram} (ht : t.kind ≠ .stationRestart) :
    (joined t l).1.headedBy o := by
  obtain ⟨hkind, hstamp, rest, hout⟩ := h
  have hcls : o.tel.kind.cls = 0 := by rw [hkind]; rfl
  have hkey : o.tel.sameKey t = false := sameKey_of_kind_ne fun h => ht (h ▸ hkind)
  have hbehind : ¬ (Outgoing.joining t l).before o = true := fun hbefore => by
    rw [before_iff, hcls] at hbefore
    exact hbefore.elim (Nat.not_lt_zero _) (fun h => absurd (show l.nextJoin < o.joined from h.2) (by omega))
  have hinsert : ∀ kept, insertOutgoing (Outgoing.joining t l) (o :: kept) = o :: insertOutgoing (Outgoing.joining t l) kept :=
    fun kept => if_neg hbehind
  by_cases hsame : ∃ q ∈ l.out, q.tel.sameKey t = true
  · rw [joined_replaced hsame]
    refine ⟨hkind, hstamp, rest.map (Outgoing.replacedBy t), ?_⟩
    dsimp only
    rw [hout, List.map_cons, Outgoing.replacedBy, if_neg (by simp [hkey])]
  · have hnew : ∀ q ∈ l.out, q.tel.sameKey t = false := fun q hq => Bool.eq_false_iff.mpr fun hq' => hsame ⟨q, hq, hq'⟩
    by_cases hroom : l.out.length < 8
    · rw [joined_room hnew hroom, hout]
      exact ⟨hkind, Nat.lt_succ_of_lt hstamp, _, hinsert rest⟩
    · by_cases hnone : ∀ q ∈ l.out, q.tel.kind.cls ≤ t.kind.cls
      · rw [joined_dropped hnew (not_lt.mp hroom) hnone]
        exact ⟨hkind, hstamp, rest, hout⟩
      · push Not at hnone
        obtain ⟨g, hg, hgreater⟩ := hnone
        obtain ⟨b, hb, -⟩ := lastOfGreater_last hg hgreater
        obtain ⟨-, hbgreater⟩ := lastOfGreater_greater hb
        have hne : o ≠ b := fun h => by
          rw [← h, hcls] at hbgreater
          exact Nat.not_lt_zero _ hbgreater
        rw [joined_made hnew (not_lt.mp hroom) hb, hout, List.erase_cons_tail (by simpa using hne)]
        exact ⟨hkind, Nat.lt_succ_of_lt hstamp, _, hinsert _⟩

theorem enqueue_headedBy {o : Outgoing} {s : State} (h : s.line.headedBy o) {kind : Kind} (hk : kind ≠ .stationRestart) (dest : Nat)
    (payload : List Byte) : (enqueue kind dest payload s).line.headedBy o := by
  unfold enqueue joinLine telegramDropped
  dsimp only
  split
  · have hjoined := joined_headedBy h (t := { kind := kind, source := s.cfg.station, dest := dest, payload := payload }) hk
    split
    · exact hjoined
    · exact hjoined
  · exact h

theorem handAll_headedBy {o : Outgoing} {l : List Handed} (hl : ∀ m ∈ l, m.1 ≠ .stationRestart) {s : State}
    (h : s.line.headedBy o) : (handAll l s).line.headedBy o := by
  induction l generalizing s with
  | nil => exact h
  | cons m l ih =>
    exact ih (fun k hk => hl k (List.mem_cons_of_mem _ hk)) (enqueue_headedBy h (hl m List.mem_cons_self) _ _)

/-! ### Traffic without a STATION_RESTART -/

/-- From `s` to `t` the line controller has been handed telegrams, no STATION_RESTART among them, and the port is as it was. -/
def traffic (s t : State) : Prop := t.port = s.port ∧ ∃ l : List Handed, (∀ m ∈ l, m.1 ≠ .stationRestart) ∧ hands l s t

theorem traffic_of_line {s t : State} (hline : t.line = s.line) (hport : t.port = s.port) : traffic s t :=
  ⟨hport, [], by simp, hline⟩

theorem traffic_refl (s : State) : traffic s s := traffic_of_line rfl rfl

theorem traffic_trans {s t u : State} (h1 : traffic s t) (h2 : traffic t u) : traffic s u := by
  obtain ⟨hport, l, hl, hhands⟩ := h1
  obtain ⟨hport', m, hm, hhands'⟩ := h2
  exact ⟨hport'.trans hport, l ++ m, fun k hk => (List.mem_append.mp hk).elim (hl k) (hm k), hands_trans hhands hport hhands'⟩

theorem traffic_enqueue {kind : Kind} (hk : kind ≠ .stationRestart) (dest : Nat) (payload : List Byte) (s : State) :
    traffic s (enqueue kind dest payload s) :=
  ⟨by simp, [(kind, dest, payload)], by simpa using hk, rfl⟩

theorem traffic_each {l : List Nat} {f : Nat → State → State} (h : ∀ i s, traffic s (f i s)) (s : State) :
    traffic s (each l f s) := by
  induction l generalizing s with
  | nil => exact traffic_refl s
  | cons i l ih => exact traffic_trans (h i s) (ih _)

theorem traffic_foldl {β : Type} {l : List β} {f : State → β → State} (h : ∀ s b, traffic s (f s b)) (s : State) :
    traffic s (l.foldl f s) := by
  induction l generalizing s with
  | nil => exact traffic_refl s
  | cons b l ih => exact traffic_trans (h s b) (ih _)

theorem setEng_traffic (x : Side) (e : Engagement) (s : State) : traffic s (setEng x e s) := traffic_of_line (by simp) (by simp)

theorem pieceCall_traffic (x : Side) (s : State) : traffic s (pieceCall x s) := by
  unfold pieceCall
  dsimp only
  split
  · exact traffic_enqueue (by decide) _ _ s
  · exact traffic_trans (t := { s with draws := s.draws + 2 }) (traffic_of_line rfl rfl) (traffic_enqueue (by decide) _ _ _)

theorem enterCalling_traffic (x : Side) (s : State) : traffic s (enterCalling x s) :=
  traffic_trans (traffic_of_line (by simp) (by simp)) (pieceCall_traffic x _)

theorem enterIdle_traffic (x : Side) (s : State) : traffic s (enterIdle x s) := traffic_of_line (by simp) (by simp)

theorem sendRelease_traffic (x : Side) (s : State) : traffic s (sendRelease x s) := by
  unfold sendRelease
  split
  · exact traffic_enqueue (by decide) _ _ s
  · exact traffic_refl s

theorem refill_traffic (s : State) : traffic s (refill s) := traffic_of_line (by simp) (by simp)

theorem issueOrder_traffic (x : Side) (i : Nat) (asc : Bool) (s : State) : traffic s (issueOrder x i asc s) := by
  unfold issueOrder
  dsimp only
  have hrecords : ∀ n : Nat, traffic s { refill (enter i .ordered s) with pie := { (refill (enter i .ordered s)).pie with nextTag := n } } :=
    fun n => traffic_of_line (by simp) (by simp)
  split
  · exact traffic_trans (traffic_trans (hrecords _) (traffic_enqueue (by decide) _ _ _)) (setEng_traffic _ _ _)
  · exact traffic_trans (hrecords _) (setEng_traffic _ _ _)

theorem decideNext_traffic (x : Side) (s : State) : traffic s (decideNext x s) := by
  unfold decideNext
  split
  · exact traffic_trans (sendRelease_traffic x s) (enterIdle_traffic x _)
  · split
    · split
      · exact issueOrder_traffic _ _ _ s
      · exact traffic_refl s
    · exact traffic_refl s

theorem notifyOne_traffic (s0 : State) (x : Side) (s : State) : traffic s (notifyOne s0 x s) := by
  unfold notifyOne
  dsimp only
  split
  · split
    · exact enterCalling_traffic x s
    · exact traffic_refl s
  · split
    · exact enterIdle_traffic x s
    · exact traffic_refl s
  · split
    · exact decideNext_traffic x s
    · exact traffic_refl s
  all_goals exact traffic_refl s

theorem piecingEvent_traffic {f : State → State} {s : State} (h : traffic s (f s)) : traffic s (piecingEvent f s) :=
  traffic_trans h (traffic_trans (refill_traffic _) (traffic_foldl (fun u x => notifyOne_traffic s x u) _))

theorem announceDue_traffic (s : State) : traffic s (announceDue s) :=
  traffic_trans (traffic_enqueue (by decide) _ _ s) (traffic_of_line rfl rfl)

theorem rebuildDue_traffic (s : State) : traffic s (rebuildDue s) := by
  unfold rebuildDue
  dsimp only
  split
  · exact traffic_of_line rfl rfl
  · refine traffic_trans ?_ (announceDue_traffic _)
    exact traffic_of_line rfl rfl

theorem marginOne_traffic (i : Nat) (s : State) : traffic s (marginOne i s) := traffic_of_line (by simp) (by simp)

theorem recomputeSection_traffic (k : Nat) (s : State) : traffic s (recomputeSection k s) := by
  have hrecords : traffic s (piecingEvent (each (indicesOf k) marginOne) s) :=
    piecingEvent_traffic (traffic_each marginOne_traffic s)
  unfold recomputeSection
  split
  · exact traffic_trans hrecords (traffic_of_line (by simp) (by simp))
  · exact traffic_refl s

theorem recomputeAll_traffic (s : State) : traffic s (recomputeAll s) :=
  traffic_trans (traffic_each recomputeSection_traffic s) (rebuildDue_traffic _)

end Sys2Proof.Machine
end

section
/-! PROOFS. The line restart (R171, R83, R97, R129). -/

namespace Sys2Proof.Machine

/-! ### The doff sequencer at a line restart (R129) -/

/-- What the doff sequencer hands over at a line restart. -/
theorem restartDoff_hands (s : State) : hands (doffAnnounced s) s (restartDoff s) := by
  unfold hands doffAnnounced restartDoff
  dsimp only
  cases h : s.doff.state <;> dsimp only
  case claimed | fullWait | granted =>
    refine enqueue_line_congr ?_ ?_ .doffClaim 0 _ <;> rfl
  case rundown | doffing | unknown =>
    refine (enqueue_line_congr (s := s) ?_ ?_ .doffState 0 _).trans ?_
    · rfl
    · rfl
    · rfl
  case spinning | restart | settling => rfl

/-- The doff record after a line restart, by the doff state (R129). -/
theorem restartDoff_doff (s : State) :
    (s.doff.state = .claimed ∨ s.doff.state = .fullWait → (restartDoff s).doff =
      { s.doff with view := [], nextAnn := some (s.del.seconds + 5), listenEnd := some (s.del.seconds + 3) }) ∧
    (s.doff.state = .granted → (restartDoff s).doff =
      { s.doff with
        view := [], nextAnn := some (s.del.seconds + 5), listenEnd := some (s.del.seconds + 3), confirmEnd := none
        grantedWait := none, state := if s.doff.urgency = .full then .fullWait else .claimed }) ∧
    (s.doff.state = .rundown ∨ s.doff.state = .doffing ∨ s.doff.state = .unknown → (restartDoff s).doff =
      { s.doff with view := [], nextAnn := some (s.del.seconds + 5) }) ∧
    (s.doff.state = .spinning ∨ s.doff.state = .restart ∨ s.doff.state = .settling → (restartDoff s).doff =
      { s.doff with view := [] }) := by
  have hagain : ∀ t : State, (announceAgain t).doff = { t.doff with nextAnn := some (t.del.seconds + 5) } := fun _ => rfl
  have hclaim : ∀ t : State, (sendClaim t).doff = t.doff ∧ (sendClaim t).del = t.del := fun t => by simp [sendClaim]
  have hsend : ∀ t : State, (sendDoffState t).doff = t.doff ∧ (sendDoffState t).del = t.del := fun t => by simp [sendDoffState]
  unfold restartDoff
  dsimp only
  refine ⟨fun h => ?_, fun h => ?_, fun h => ?_, fun h => ?_⟩
  · obtain h | h := h <;> rw [h] <;> dsimp only <;> rw [hagain, (hclaim _).1, (hclaim _).2] <;> rfl
  · rw [h]
    dsimp only
    unfold withdrawGrant
    rw [hagain, (hclaim _).1, (hclaim _).2]
    cases s.doff.urgency <;> simp [Urgency.claimState, State.now, Config.listenSeconds]
  · obtain h | h | h := h <;> rw [h] <;> dsimp only <;> rw [hagain, (hsend _).1, (hsend _).2]
  · obtain h | h | h := h <;> rw [h]

/-- A line restart leaves the doff state, but for a grant, which is withdrawn (R129). -/
theorem restartDoff_state (s : State) : (restartDoff s).doff.view = [] ∧ (restartDoff s).doff.state =
    if s.doff.state = .granted then (if s.doff.urgency = .full then .fullWait else .claimed) else s.doff.state := by
  obtain ⟨hclaiming, hgranted, hgoing, hresting⟩ := restartDoff_doff s
  cases h : s.doff.state with
  | claimed => rw [hclaiming (.inl h)]; exact ⟨rfl, h⟩
  | fullWait => rw [hclaiming (.inr h)]; exact ⟨rfl, h⟩
  | granted => rw [hgranted h]; exact ⟨rfl, rfl⟩
  | rundown => rw [hgoing (.inl h)]; exact ⟨rfl, h⟩
  | doffing => rw [hgoing (.inr (.inl h))]; exact ⟨rfl, h⟩
  | unknown => rw [hgoing (.inr (.inr h))]; exact ⟨rfl, h⟩
  | spinning => rw [hresting (.inl h)]; exact ⟨rfl, h⟩
  | restart => rw [hresting (.inr (.inl h))]; exact ⟨rfl, h⟩
  | settling => rw [hresting (.inr (.inr h))]; exact ⟨rfl, h⟩

/-! ### The creel unit at a line restart (R97) -/

/-- The ROVING_DUE of a line restart. -/
def dueAnnounced (s : State) : List Handed :=
  if s.creel.dueList = [] then [] else
    [(.rovingDue, 0, (s.creel.dueList.take 6).flatMap (fun e => field 1 e.number ++ field 2 e.minutes))]

theorem restartCreel_hands (s : State) : hands (dueAnnounced s) s (restartCreel s) := by
  unfold dueAnnounced restartCreel
  cases h : s.creel.dueList with
  | nil => rfl
  | cons e l =>
    unfold announceDue
    rw [h]
    rfl

theorem restartCreel_creel (s : State) : (restartCreel s).creel = { s.creel with
    announceFrom := some s.del.seconds
    dueSentAt := if s.creel.dueList = [] then s.creel.dueSentAt else some s.del.seconds } := by
  unfold restartCreel
  cases h : s.creel.dueList with
  | nil => rfl
  | cons e l =>
    rw [if_neg (by simp)]
    unfold announceDue
    simp [State.now, h]

/-! ### The piecing engine at a line restart (R83) -/

theorem returnOrdered_traffic (x : Side) (s : State) : traffic s (returnOrdered x s) := traffic_of_line (by simp) (by simp)

theorem callOrIdle_traffic (x : Side) (s : State) : traffic s (callOrIdle x s) := by
  unfold callOrIdle
  split
  · exact enterIdle_traffic x s
  · exact enterCalling_traffic x s

theorem endEngagement_traffic (x : Side) (s : State) : traffic s (endEngagement x s) :=
  traffic_trans (returnOrdered_traffic x s) (traffic_trans (setEng_traffic x _ _) (callOrIdle_traffic x _))

theorem restartEngagement_traffic (x : Side) (s : State) : traffic s (restartEngagement x s) := by
  unfold restartEngagement
  split
  · exact endEngagement_traffic x s
  · exact endEngagement_traffic x s
  · exact endEngagement_traffic x s
  · exact enterCalling_traffic x s
  · exact traffic_refl s
  · exact traffic_refl s

theorem restartPiecing_traffic (s : State) : traffic s (restartPiecing s) :=
  traffic_foldl (fun u x => restartEngagement_traffic x u) s

theorem returnOrdered_beside (x : Side) (s : State) : (returnOrdered x s).besideRecords = s.besideRecords := by
  unfold returnOrdered returnToPiecing
  split
  · split
    · split <;> simp
    · rfl
  · rfl

theorem restartEngagement_beside (x : Side) (s : State) : (restartEngagement x s).besideRecords = s.besideRecords := by
  have hcall : ∀ u : State, (callOrIdle x u).besideRecords = u.besideRecords := fun u => beside_of_mon (by simp)
  have hend : (endEngagement x s).besideRecords = s.besideRecords :=
    (hcall _).trans ((beside_of_mon (by simp)).trans (returnOrdered_beside x s))
  unfold restartEngagement
  split
  · exact hend
  · exact hend
  · exact hend
  · exact beside_of_mon (by simp)
  · rfl
  · rfl

/-! ### The line restart as a whole (R171) -/

/-- The state in which the blocks take a line restart: the line emptied, the peer view empty, the STATION_RESTART handed over. -/
def restarting (s : State) : State :=
  enqueue .stationRestart 0 [] { s with
    line := { s.line.cleared with restartedAt := s.now }, doff := { s.doff with view := [] } }

theorem lineRestart_eq (s : State) : lineRestart s = restartDoff (restartCreel (restartPiecing (restarting s))) := rfl

/-- The STATION_RESTART as it joins the emptied queue. -/
def restartEntry (s : State) : Outgoing :=
  { tel := { kind := .stationRestart, source := s.cfg.station, dest := 0, payload := [] }, collisions := 0
    joined := s.line.nextJoin }

theorem restarting_line {s : State} (h : s.running = true) :
    (restarting s).line = { s.line.cleared with
      restartedAt := s.now, out := [restartEntry s], nextJoin := s.line.nextJoin + 1 } := by
  have hrunning : State.running { s with
    line := { s.line.cleared with restartedAt := s.now }, doff := { s.doff with view := [] } } = true := h
  unfold restarting enqueue
  rw [if_pos hrunning]
  rfl

theorem dueAnnounced_kind (s : State) : ∀ m ∈ dueAnnounced s, m.1 ≠ .stationRestart := by
  unfold dueAnnounced
  split <;> simp

theorem doffAnnounced_kind (s : State) : ∀ m ∈ doffAnnounced s, m.1 ≠ .stationRestart := by
  unfold doffAnnounced
  cases s.doff.state <;> simp

/-- What the blocks hand over after the STATION_RESTART. -/
theorem lineRestart_traffic (s : State) : traffic (restarting s) (lineRestart s) := by
  rw [lineRestart_eq]
  refine traffic_trans (restartPiecing_traffic _) (traffic_trans (t := restartCreel (restartPiecing (restarting s))) ?_ ?_)
  · exact ⟨by simp, _, dueAnnounced_kind _, restartCreel_hands _⟩
  · exact ⟨by simp, _, doffAnnounced_kind _, restartDoff_hands _⟩

theorem traffic_headedBy {s t : State} (h : traffic s t) {o : Outgoing} (ho : s.line.headedBy o) : t.line.headedBy o := by
  obtain ⟨-, l, hl, hhands⟩ := h
  rw [show t.line = (handAll l s).line from hhands]
  exact handAll_headedBy hl ho

theorem traffic_besideQueue {s t : State} (h : traffic s t) : t.line.besideQueue = s.line.besideQueue := by
  obtain ⟨-, l, -, hhands⟩ := h
  exact hands_besideQueue hhands

/-- A line restart leaves the STATION_RESTART at the head of the queue and the rest of the line emptied (R171). -/
theorem restarting_headedBy {s : State} (h : s.running = true) : (restarting s).line.headedBy (restartEntry s) := by
  rw [restarting_line h]
  exact ⟨rfl, Nat.lt_succ_self _, [], rfl⟩

theorem restartDoff_besideAlerts (s : State) : (restartDoff s).frame.besideAlerts = s.frame.besideAlerts := by
  unfold restartDoff withdrawGrant announceAgain sendClaim sendDoffState
  dsimp only
  split <;> simp

theorem restartCreel_besideAlerts (s : State) : (restartCreel s).frame.besideAlerts = s.frame.besideAlerts := by
  unfold restartCreel
  split <;> simp

theorem lineRestart_besideAlerts (s : State) : (lineRestart s).frame.besideAlerts = s.frame.besideAlerts := by
  rw [lineRestart_eq, restartDoff_besideAlerts, restartCreel_besideAlerts, restartPiecing_besideAlerts, restarting,
    enqueue_besideAlerts]

theorem lineRestart_beside (s : State) : (lineRestart s).besideRecords = s.besideRecords := by
  rw [lineRestart_eq]
  have hdoff : ∀ u : State, (restartDoff u).besideRecords = u.besideRecords := fun u => beside_of_mon (by simp)
  have hcreel : ∀ u : State, (restartCreel u).besideRecords = u.besideRecords := fun u => beside_of_mon (by simp)
  have hstart : (restarting s).besideRecords = s.besideRecords := beside_of_mon (by simp [restarting])
  rw [hdoff, hcreel, restartPiecing, foldl_beside _ (fun u x => restartEngagement_beside x u), hstart]

theorem lineRestart_closeMark (s : State) : (lineRestart s).closeMark = s.closeMark := by
  rw [lineRestart_eq]
  have hdoff : ∀ u : State, (restartDoff u).closeMark = u.closeMark := fun u => closeMark_of_shift (by simp)
  have hcreel : ∀ u : State, (restartCreel u).closeMark = u.closeMark := fun u => closeMark_of_shift (by simp)
  have hstart : (restarting s).closeMark = s.closeMark := closeMark_of_shift (by simp [restarting])
  rw [hdoff, hcreel, restartPiecing_closeMark, hstart]

/-- The doff record that the doff sequencer finds at a line restart. -/
theorem restarted_doff (s : State) :
    (restartCreel (restartPiecing (restarting s))).doff = { s.doff with view := [] } ∧
    (restartCreel (restartPiecing (restarting s))).del = s.del := by
  simp [restarting]

end Sys2Proof.Machine
end

section
/-! PROOFS. START (R185, R3, R43, R101, R160). -/

namespace Sys2Proof.Machine

theorem doStart_init {s : State} (h : s.port.part = .init) : doStart s = Effect.refuse .notRunning s := by
  unfold doStart
  rw [h]

theorem doStart_running {s : State} (h : s.port.part = .running) : doStart s = Effect.refuse .busy s := by
  unfold doStart
  rw [h]

theorem doStart_ready {s : State} (h : s.port.part = .ready) :
    doStart s = if s.del.active.isSome then Effect.done (started s) else Effect.refuse .noArticle s := by
  unfold doStart
  rw [h]

/-! ### The recompute leaves the creel unit's counts (R91) -/

/-- The creel unit beside its section table. -/
def Creel.besideSections (c : Creel) : Creel := { c with sections := [] }

theorem modifySec_besideSections (k : Nat) (f : Section → Section) (s : State) :
    (modifySec k f s).creel.besideSections = s.creel.besideSections := rfl

theorem recomputeSection_besideSections (k : Nat) (s : State) :
    (recomputeSection k s).creel.besideSections = s.creel.besideSections := by
  have hevent : (piecingEvent (each (indicesOf k) marginOne) s).creel = s.creel := by
    exact piecingEvent_creel _ (fun v => each_keeps State.creel _ _ (fun i u => by simp) v) s
  unfold recomputeSection
  generalize piecingEvent (each (indicesOf k) marginOne) s = u at hevent ⊢
  dsimp only
  split
  · exact (modifySec_besideSections _ _ u).trans (congrArg Creel.besideSections hevent)
  · rfl

theorem rebuildDue_counts {s : State} {now : Nat} (hnow : s.del.seconds = now) (h : s.creel.announceFrom = some now) :
    (rebuildDue s).creel.announceFrom = some now ∧ (rebuildDue s).creel.nextRecompute = s.creel.nextRecompute := by
  unfold rebuildDue
  dsimp only
  split
  · exact ⟨h, rfl⟩
  · unfold announceDue
    refine ⟨?_, ?_⟩
    · simp [State.now, hnow]
    · simp

/-- The state that a part at START recomputes: the window, the strips, the rotation and the counts begun. -/
def beginning (s : State) : State :=
  { s with
    del := { s.del with buckets := [], openBucket := some 0, nextBucketAt := some (s.now + Config.bucketSeconds) }
    mon := { s.mon with
      strips := s.mon.strips.map (Strip.started s.count), rotation := some { pass := 0, strip := 1 } }
    creel := { s.creel with
      announceFrom := some s.now, nextRecompute := some (s.now + Config.recomputeSeconds) } }

theorem startBlocks_eq (s : State) : startBlocks s = recomputeAll (beginning s) := rfl

theorem startBlocks_creel (s : State) : (startBlocks s).creel.announceFrom = some s.del.seconds ∧
    (startBlocks s).creel.nextRecompute = some (s.del.seconds + 60) := by
  rw [startBlocks_eq]
  unfold recomputeAll
  have hkept := each_keeps (fun u => u.creel.besideSections) (beginning s).numbers recomputeSection recomputeSection_besideSections (beginning s)
  have hdel : (each (beginning s).numbers recomputeSection (beginning s)).del = (beginning s).del := by simp
  have hnow : (each (beginning s).numbers recomputeSection (beginning s)).del.seconds = s.del.seconds := by rw [hdel]; rfl
  have hfrom := congrArg Creel.announceFrom hkept
  have hnext := congrArg Creel.nextRecompute hkept
  obtain ⟨h1, h2⟩ := rebuildDue_counts (now := s.del.seconds) hnow hfrom
  exact ⟨h1, h2.trans hnext⟩

theorem startBlocks_beside (s : State) : (startBlocks s).besideRecords = (beginning s).besideRecords := by
  rw [startBlocks_eq]
  have hdue : ∀ u : State, (rebuildDue u).besideRecords = u.besideRecords := fun u => beside_of_mon (by simp)
  rw [recomputeAll, hdue]
  exact each_beside _ recomputeSection_beside _

/-- Strip record `k` of a table whose records have all been changed. -/
theorem nth_map {α : Type} (d : α) (f : α → α) {l : List α} {k : Nat} (hk : 1 ≤ k) (hkl : k ≤ l.length) :
    nth d (l.map f) k = f (nth d l k) := by
  obtain ⟨m, rfl⟩ : ∃ m, k = m + 1 := ⟨k - 1, by omega⟩
  simp [nth, List.getD_eq_getElem?_getD, List.getElem?_eq_getElem (show m < l.length by omega)]

/-- The state in which START restarts the line: RUNNING, without NOT_STARTED (R185, steps 1 and 2). -/
def entering (s : State) : State := removeHold .notStarted { s with port := { s.port with part := .running } }

theorem resumeSweep_other (s : State) : (resumeSweep s).del = s.del ∧ (resumeSweep s).mon = s.mon ∧
    (resumeSweep s).creel = s.creel ∧ (resumeSweep s).doff = s.doff ∧ (resumeSweep s).line = s.line ∧
    (resumeSweep s).frame = s.frame ∧ (resumeSweep s).port = s.port := ⟨rfl, rfl, rfl, rfl, rfl, rfl, rfl⟩

theorem started_eq (s : State) : started s = resumeSweep (startBlocks (lineRestart (entering s))) := rfl

/-- The delivery counter after START: the rate window begun (R3). -/
theorem started_del (s : State) : (started s).del =
    { s.del with buckets := [], openBucket := some 0, nextBucketAt := some (s.del.seconds + 10) } := by
  have hline : (lineRestart (entering s)).del = s.del := by simp [entering]
  have hbeginning : ∀ u : State, u.del = s.del → (beginning u).del =
      { s.del with buckets := [], openBucket := some 0, nextBucketAt := some (s.del.seconds + 10) } := fun u h => by
    rw [← h]
    rfl
  rw [started_eq, (resumeSweep_other _).1, startBlocks_eq, (recomputeAll_frame _).1]
  exact hbeginning _ hline

/-- The frame interface after START: the holds but NOT_STARTED and ALERT_STOP as they were (R185). -/
theorem started_holds (s : State) : (started s).frame.besideAlerts = (entering s).frame.besideAlerts := by
  have hbeginning : ∀ u : State, (beginning u).frame = u.frame := fun _ => rfl
  rw [started_eq, (resumeSweep_other _).2.2.2.2.2.1, startBlocks_eq, recomputeAll_besideAlerts, hbeginning,
    lineRestart_besideAlerts]

/-- The hall line after START: the STATION_RESTART at the head of an otherwise emptied line (R171). -/
theorem started_line (s : State) : (started s).line.headedBy (restartEntry s) ∧
    (started s).line.besideQueue = { s.line.cleared.besideQueue with restartedAt := s.del.seconds } := by
  have hrunning : (entering s).running = true := rfl
  have hblocks : ∀ u : State, traffic u (startBlocks u) := fun u =>
    traffic_trans (t := beginning u) (traffic_of_line rfl rfl) (recomputeAll_traffic _)
  have hall := traffic_trans (lineRestart_traffic (entering s)) (hblocks _)
  rw [started_eq, (resumeSweep_other _).2.2.2.2.1]
  have hhead := traffic_headedBy hall (restarting_headedBy hrunning)
  have hrest := traffic_besideQueue hall
  rw [restarting_line hrunning] at hrest
  exact ⟨hhead, hrest⟩

/-- The spindle monitor after START: the rotation at strip 1, every strip begun (R43). -/
theorem started_mon (s : State) : (started s).mon.rotation = some { pass := 0, strip := 1 } ∧
    (started s).mon.strips = s.mon.strips.map (Strip.started s.del.count) := by
  obtain ⟨hstrips', -⟩ := beside_fields (lineRestart_beside (entering s))
  have hcount : (lineRestart (entering s)).count = s.del.count := by simp [State.count, entering]
  have hblocks : ∀ u : State, (startBlocks u).mon.rotation = some { pass := 0, strip := 1 } ∧
      (startBlocks u).mon.strips = u.mon.strips.map (Strip.started u.count) := fun u => by
    obtain ⟨hstrips, hrotation, -⟩ := beside_fields (startBlocks_beside u)
    exact ⟨hrotation, hstrips⟩
  obtain ⟨hrotation, hstrips⟩ := hblocks (lineRestart (entering s))
  rw [started_eq, (resumeSweep_other _).2.1]
  exact ⟨hrotation, by rw [hstrips, hstrips', hcount]; rfl⟩

theorem started_doff (s : State) : (started s).doff.view = [] ∧ (started s).doff.state =
    if s.doff.state = .granted then (if s.doff.urgency = .full then .fullWait else .claimed) else s.doff.state := by
  have hdoff : (started s).doff = (lineRestart (entering s)).doff := by
    rw [started_eq, (resumeSweep_other _).2.2.2.1, (startBlocks_frame _).1]
  obtain ⟨hbefore, -⟩ := restarted_doff (entering s)
  have hstate := restartDoff_state (restartCreel (restartPiecing (restarting (entering s))))
  rw [hbefore] at hstate
  rw [hdoff, lineRestart_eq]
  exact hstate

theorem started_closing (s : State) :
    (started s).shift.closing.map (fun cl => (cl.shift.number, cl.sweep, cl.waiting)) =
      s.shift.closing.map (fun cl => (cl.shift.number, 1, cl.waiting)) := by
  have hmark : (startBlocks (lineRestart (entering s))).closeMark = s.closeMark := by
    have hbeginning : ∀ u : State, (beginning u).closeMark = u.closeMark := fun _ => rfl
    rw [startBlocks_eq, recomputeAll_closeMark, hbeginning, lineRestart_closeMark]
    rfl
  have hclosing := congrArg Prod.snd hmark
  rw [started_eq]
  generalize startBlocks (lineRestart (entering s)) = u at hclosing ⊢
  simp only [State.closeMark] at hclosing
  show (u.shift.closing.map fun cl => ({ cl with sweep := 1 } : Closing)).map _ = _
  have hmap := congrArg (Option.map fun p : Nat × Bool => (p.1, 1, p.2)) hclosing
  simpa only [Option.map_map, Function.comp_def] using hmap

/-- Settles O57: each block after an accepted START by its lemma above. -/
theorem startRefusesOrRuns : Obligations.StartRefusesOrRuns := by
  intro s tag hopen refused now
  refine ⟨fun h => ?_, fun h => ?_, fun h hno => ?_, fun h hactive => ?_⟩
  · exact hostRow_refused (c := .start) hopen (doStart_init h) rfl
  · exact hostRow_refused (c := .start) hopen (doStart_running h) rfl
  · have heffect := doStart_ready h
    rw [hno] at heffect
    exact hostRow_refused (c := .start) hopen heffect rfl
  have heffect := doStart_ready h
  rw [if_pos (Option.isSome_iff_ne_none.mpr hactive)] at heffect
  have hdel := started_del s
  have hholds := started_holds s
  obtain ⟨⟨-, -, rest, hout⟩, hline⟩ := started_line s
  obtain ⟨hrotation, hstrips⟩ := started_mon s
  obtain ⟨hview, hdoff⟩ := started_doff s
  have hclosing := started_closing s
  have hport : (started s).port = { s.port with part := .running } := by
    rw [started_eq, (resumeSweep_other _).2.2.2.2.2.2, (startBlocks_frame _).2.1, (lineRestart_frame _).2.1]
    rfl
  have hcreel : (started s).creel.announceFrom = some s.del.seconds ∧ (started s).creel.nextRecompute = some (s.del.seconds + 60) := by
    have hcounts := startBlocks_creel (lineRestart (entering s))
    have hseconds : (lineRestart (entering s)).del.seconds = s.del.seconds := by simp [entering]
    rw [hseconds] at hcounts
    rw [started_eq, (resumeSweep_other _).2.2.1]
    exact hcounts
  generalize started s = u at *
  have hrx := congrArg Line.rx hline
  have hsending := congrArg Line.sending hline
  have hrestarted := congrArg Line.restartedAt hline
  refine ⟨_, hostRow_done (c := .start) (k := 5) hopen heffect rfl, congrArg (Port.completed 5 tag .done []) hport, hdel, ?_, fun c hc hstop => ?_,
    hrotation, fun k hk hks => ?_, hcreel.1, hcreel.2, hview, hdoff, ?_, hrx, hsending, hrestarted, hclosing⟩
  · exact holds_of_besideAlerts hholds (c := .notStarted) (by decide)
  · refine (holds_of_besideAlerts hholds hstop).trans ?_
    exact put_has_ne _ hc _
  · show nth _ u.mon.strips k = _
    rw [hstrips]
    exact nth_map _ _ hk hks
  · show u.line.out.head?.map _ = _
    rw [hout]
    rfl

end Sys2Proof.Machine
end

section
/-! PROOFS. The warm reset (R186). -/

namespace Sys2Proof.Machine

/-! ### The alert list through a sequence of raised alerts (R178) -/

/-- What of the frame interface a raised alert reads and writes, beside ALERT_STOP. -/
def Frame.listPart (f : Frame) : List Alert × Nat := (f.alerts, f.overflow)

/-- An alert as an event raises it: code, class and subject. -/
abbrev RaisedAlert := AlertCode × AlertClass × Option Nat

/-- The frame interface after alerts have been raised one after the other. -/
def raiseAll (l : List RaisedAlert) (now : Nat) (f : Frame) : Frame :=
  l.foldl (fun f a => Frame.raised a.1 a.2.1 a.2.2 now f) f

theorem raised_listPart {f g : Frame} (h : f.listPart = g.listPart) (code : AlertCode) (cls : AlertClass) (subject : Option Nat)
    (now : Nat) : (f.raised code cls subject now).listPart = (g.raised code cls subject now).listPart := by
  have halerts : f.alerts = g.alerts := congrArg Prod.fst h
  have hoverflow : f.overflow = g.overflow := congrArg Prod.snd h
  have hraised : alertsRaised code cls subject now f = alertsRaised code cls subject now g := by
    unfold alertsRaised
    rw [halerts, hoverflow]
  exact hraised

theorem raiseAll_listPart (l : List RaisedAlert) (now : Nat) {f g : Frame} (h : f.listPart = g.listPart) :
    (raiseAll l now f).listPart = (raiseAll l now g).listPart := by
  induction l generalizing f g with
  | nil => exact h
  | cons a l ih => exact ih (raised_listPart h _ _ _ _)

theorem raiseAll_append (l m : List RaisedAlert) (now : Nat) (f : Frame) :
    raiseAll (l ++ m) now f = raiseAll m now (raiseAll l now f) := List.foldl_append

/-! ### The faults found newly active (R175) -/

/-- The alert of input `n` re-sampled: FAULT_INPUT where the input is active and its latch clear. -/
def edgeOf (n : Nat) (s : State) : List RaisedAlert :=
  match s.faultSetup n with
  | some setup =>
    if setup.isActive (s.faultLevel n) && !s.faultLatch n then [(.faultInput, setup.cls, some n)] else []
  | none => []

theorem edgeOf_congr {s t : State} {n : Nat} (h : t.inputAt n = s.inputAt n) : edgeOf n t = edgeOf n s := by
  simp only [State.inputAt, Prod.mk.injEq] at h
  obtain ⟨hlevel, hlatch, -, hsetup, -⟩ := h
  unfold edgeOf
  rw [hlevel, hlatch, hsetup]

theorem resampleOne_listPart (n : Nat) (s : State) :
    (resampleOne n s).frame.listPart = (raiseAll (edgeOf n s) s.del.seconds s.frame).listPart := by
  cases hsetup : s.faultSetup n with
  | none =>
    rw [resampleOne_unset hsetup, edgeOf, hsetup]
    rfl
  | some setup =>
    have hlevel : s.faultLevel n = s.frame.levels.getD n false := rfl
    have hlatch : s.faultLatch n = s.frame.latches.getD n false := rfl
    rw [resampleOne_eq hsetup, edgeOf, hsetup]
    dsimp only
    rw [hlevel, hlatch]
    unfold Frame.resampled Frame.edged
    dsimp only
    cases setup.isActive (s.frame.levels.getD n false)
    · rfl
    · cases s.frame.latches.getD n false
      · simp only [if_true, Bool.false_eq_true, if_false, Bool.not_false, Bool.and_self]
        split <;> rfl
      · rfl

/-- The four inputs re-sampled raise the alerts of the edges that the state before shows, in the order of the inputs. -/
theorem resampleFaults_listPart (s : State) : (resampleFaults s).frame.listPart =
    (raiseAll (edgeOf 0 s ++ edgeOf 1 s ++ edgeOf 2 s ++ edgeOf 3 s) s.del.seconds s.frame).listPart := by
  have hdel : ∀ n u, (resampleOne n u).del = u.del := fun n u => by simp
  have hother : ∀ n m u, n < 4 → m < 4 → m ≠ n → edgeOf m (resampleOne n u) = edgeOf m u := fun n m u hn hm h =>
    edgeOf_congr (resampleOne_inputAt_ne hn hm h u)
  unfold resampleFaults
  rw [resampleOne_listPart, hother 2 3 _ (by decide) (by decide) (by decide), hother 1 3 _ (by decide) (by decide) (by decide),
    hother 0 3 _ (by decide) (by decide) (by decide), raiseAll_append, hdel, hdel, hdel]
  refine raiseAll_listPart _ _ ?_
  rw [resampleOne_listPart, hother 1 2 _ (by decide) (by decide) (by decide), hother 0 2 _ (by decide) (by decide) (by decide),
    raiseAll_append, hdel, hdel]
  refine raiseAll_listPart _ _ ?_
  rw [resampleOne_listPart, hother 0 1 _ (by decide) (by decide) (by decide), raiseAll_append, hdel]
  exact raiseAll_listPart _ _ (resampleOne_listPart 0 s)

/-- A hold that is no fault's and not ALERT_STOP is left by the re-sampling. -/
theorem resampleFaults_has {c : HoldCause} (hstop : c ≠ .alertStop) (hc : ∀ n, n < 4 → c ≠ HoldCause.fault n) (s : State) :
    (resampleFaults s).frame.holds.has c = s.frame.holds.has c := by
  have hone : ∀ n, n < 4 → ∀ u : State, (resampleOne n u).frame.holds.has c = u.frame.holds.has c := fun n hn u => by
    cases hsetup : u.faultSetup n with
    | none => rw [resampleOne_unset hsetup]
    | some setup =>
      rw [resampleOne_eq hsetup]
      exact (resampled_other n setup u.del.seconds u.frame).2.2.2 c hstop (hc n hn)
  unfold resampleFaults
  rw [hone 3 (by decide), hone 2 (by decide), hone 1 (by decide), hone 0 (by decide)]

/-! ### The blocks before the faults are re-sampled (R186, step 2) -/

/-- The blocks but the creel unit, the doff sequencer and the frame interface at their warm-reset values. -/
def warming (s : State) : State :=
  { s with
    del := s.del.warm, mon := s.mon.warm s.now s.count, pie := s.pie.warm, shift := s.shift.warm, line := s.line.cleared }

/-- The state whose faults a warm reset re-samples. -/
def warmed (s : State) : State := addHold .notStarted (removeHold .hostHold (warmDoff (warmCreel (warming s))))

theorem warmBlocks_eq (s : State) : warmBlocks s = resampleFaults (warmed s) := rfl

theorem each_raise (l : List Nat) (code : AlertCode) (cls : AlertClass) (s : State) :
    each l (fun k => raiseAlert code cls (some k)) s =
      { s with frame := raiseAll (l.map fun k => (code, cls, some k)) s.del.seconds s.frame } := by
  induction l generalizing s with
  | nil => rfl
  | cons k l ih => exact ih _

/-- The doff that a warm reset finds under way. -/
def doffAlert (d : DoffState) : List RaisedAlert :=
  if d.underWay then [(.doffUnknown, .action, none)] else []

/-- The exchanges that a warm reset finds under way. -/
def exchangeAlerts (s : State) : List RaisedAlert :=
  s.exchangingSections.map fun k => (.exchangeUnknown, .action, some k)

theorem warmCreel_eq (s : State) : warmCreel s =
    { s with creel := s.creel.warm, frame := raiseAll (exchangeAlerts s) s.del.seconds s.frame } :=
  each_raise s.exchangingSections .exchangeUnknown .action { s with creel := s.creel.warm }

/-- The frame interface after the doff sequencer's warm reset (R132). -/
theorem warmDoff_eq (s : State) : warmDoff s = { s with
    doff := s.doff.warm
    frame := if s.doff.state.underWay then
        Frame.raised .doffUnknown .action none s.del.seconds
          { s.frame with holds := (s.frame.holds.put .copFull false).put .doff true }
      else { s.frame with holds := s.frame.holds.put .copFull false } } := by
  unfold warmDoff
  dsimp only
  split <;> rfl

theorem raiseAll_besideAlerts (l : List RaisedAlert) (now : Nat) (f : Frame) : (raiseAll l now f).besideAlerts = f.besideAlerts := by
  induction l generalizing f with
  | nil => rfl
  | cons a l ih => exact (ih _).trans rfl

/-- The holds at the re-sampling: COP_FULL and HOST_HOLD lifted, NOT_STARTED put, DOFF put by a doff under way. -/
theorem warmed_holds (s : State) :
    (warmed s).frame.holds.has .copFull = false ∧ (warmed s).frame.holds.has .hostHold = false ∧
    (warmed s).frame.holds.has .notStarted = true ∧
    (warmed s).frame.holds.has .doff = (s.doff.state.underWay || s.frame.holds.doff) ∧
    ∀ n, (warmed s).frame.holds.has (HoldCause.fault n) = s.frame.holds.has (HoldCause.fault n) := by
  have hcreel : ∀ c, c ≠ .alertStop → (warmCreel (warming s)).frame.holds.has c = s.frame.holds.has c := fun c hc => by
    rw [warmCreel_eq]
    exact holds_of_besideAlerts (raiseAll_besideAlerts _ _ _) hc
  have hdoff : ∀ c, c ≠ .alertStop → (warmDoff (warmCreel (warming s))).frame.holds.has c =
      (if c = .copFull then false else if c = .doff then s.doff.state.underWay || s.frame.holds.doff
        else s.frame.holds.has c) := fun c hc => by
    have hstate : (warmCreel (warming s)).doff.state = s.doff.state := by rw [warmCreel_eq]; rfl
    have hkept := hcreel c hc
    have hheld := hcreel .doff (by decide)
    rw [warmDoff_eq, hstate]
    generalize warmCreel (warming s) = u at hkept hheld ⊢
    dsimp only
    cases s.doff.state.underWay
    · simp only [Bool.false_eq_true, if_false, Bool.false_or]
      by_cases h : c = .copFull
      · rw [if_pos h, h, put_has_self]
      · rw [if_neg h, put_has_ne _ h, hkept]
        split
        · rename_i hd
          rw [hd]
          rfl
        · rfl
    · simp only [if_true, Bool.true_or]
      rw [raised_has _ _ _ _ _ hc]
      dsimp only
      by_cases h : c = .doff
      · rw [h, put_has_self, if_neg (by decide), if_pos rfl]
      · rw [put_has_ne _ h, if_neg h]
        by_cases h' : c = .copFull
        · rw [if_pos h', h', put_has_self]
        · rw [if_neg h', put_has_ne _ h', hkept]
  have hput : ∀ c, c ≠ .alertStop → (warmed s).frame.holds.has c = if c = .notStarted then true else if c = .hostHold then false else
      (warmDoff (warmCreel (warming s))).frame.holds.has c := fun c _ => by
    show (((warmDoff (warmCreel (warming s))).frame.holds.put .hostHold false).put .notStarted true).has c = _
    by_cases h : c = .notStarted
    · rw [if_pos h, h, put_has_self]
    · rw [if_neg h, put_has_ne _ h]
      by_cases h' : c = .hostHold
      · rw [if_pos h', h', put_has_self]
      · rw [if_neg h', put_has_ne _ h']
  refine ⟨?_, ?_, ?_, ?_, fun n => ?_⟩
  · rw [hput _ (by decide), hdoff _ (by decide)]; rfl
  · rw [hput _ (by decide)]; rfl
  · rw [hput _ (by decide)]; rfl
  · rw [hput _ (by decide), hdoff _ (by decide)]; rfl
  · have hfault : HoldCause.fault n ≠ .notStarted ∧ HoldCause.fault n ≠ .hostHold ∧ HoldCause.fault n ≠ .copFull ∧
        HoldCause.fault n ≠ .doff := by
      unfold HoldCause.fault
      split <;> decide
    obtain ⟨h1, h2, h3, h4⟩ := hfault
    rw [hput _ (fault_ne_alertStop n), if_neg h1, if_neg h2, hdoff _ (fault_ne_alertStop n), if_neg h3, if_neg h4]

/-- The alert list at the re-sampling: the exchanges, and then the doff, that were under way. -/
theorem warmed_listPart (s : State) : (warmed s).frame.listPart =
    (raiseAll (exchangeAlerts s ++ doffAlert s.doff.state) s.del.seconds s.frame).listPart := by
  have hcreel : (warmCreel (warming s)).frame = raiseAll (exchangeAlerts s) s.del.seconds s.frame := by
    rw [warmCreel_eq]
    rfl
  have hstate : (warmCreel (warming s)).doff.state = s.doff.state := by rw [warmCreel_eq]; rfl
  have hseconds : (warmCreel (warming s)).del.seconds = s.del.seconds := by rw [warmCreel_eq]; rfl
  show (warmDoff (warmCreel (warming s))).frame.listPart = _
  rw [warmDoff_eq, raiseAll_append, ← hcreel, hstate, hseconds, doffAlert]
  dsimp only
  cases s.doff.state.underWay
  · rfl
  · exact raised_listPart rfl _ _ _ _

end Sys2Proof.Machine
end

section
/-! PROOFS. WARM_RESET (R186): every block at its warm-reset values. -/

namespace Sys2Proof.Machine

/-! ### The port (R182, R186) -/

/-- A command executing at a warm reset completes: the port alone changes. -/
theorem completeExecuting_eq (s : State) : ∃ response, completeExecuting s = { s with port := { s.port with
    executing := none, response := response, unread := s.port.unread || s.port.executing.isSome } } := by
  cases h : s.port.executing with
  | none =>
    refine ⟨s.port.response, ?_⟩
    have hport : ({ s.port with executing := none, response := s.port.response, unread := s.port.unread || false } : Port) = s.port := by
      rw [Bool.or_false, ← h]
    have hsame : completeExecuting s = s := by simp [completeExecuting, h]
    rw [hsame]
    exact congrArg (fun p => { s with port := p }) hport.symm
  | some c =>
    cases c with
    | closeShift tag =>
      refine ⟨some { kind := 31, tag := tag, result := .done, overwritten := s.port.unread, alreadyOpen := false
                     body := closedBody s.closingNumber s.shift.opened }, ?_⟩
      simp [completeExecuting, completeClose, h, respond]
    | lineRestart tag =>
      refine ⟨some { kind := 7, tag := tag, result := .done, overwritten := s.port.unread, alreadyOpen := false
                     body := field 1 2 }, ?_⟩
      simp [completeExecuting, completeRestart, h, respond]

/-- The port after a warm reset, before the response of the WARM_RESET itself. -/
theorem discardSlot_port (s : State) : (discardSlot s).port = { s.port with
    slot := none, discarded := if s.port.slot = none then s.port.discarded else min 65535 (s.port.discarded + 1) } := by
  unfold discardSlot
  cases h : s.port.slot with
  | none => simp [← h]
  | some c => simp [addCapped, Config.max16]

/-! ### The records, the doff state and the sections -/

/-- A spindle record at a warm reset, field by field (R44, R63). -/
theorem Spindle.warm_eq (now p : Nat) (r : Spindle) : r.warm now p = { r with
    bookedTo := some p, slowRun := 0, downRun := 0, confirmReads := 0, seenUp := false
    doffStart := false, piecedAt := none, lastClass := .none
    state := if r.state = .locked then .locked else if r.rogueMark then .rogue else .unseen
    cause := if r.state = .locked then r.cause else if r.rogueMark then some .rogue else none
    downSince := if r.state = .locked ∨ r.rogueMark = true ∧ r.state = .rogue then r.downSince
      else if r.rogueMark then some now else none } := by
  unfold Spindle.warm
  by_cases hl : r.state = .locked
  · simp [hl]
  · by_cases hm : r.rogueMark = true
    · by_cases hr : r.state = .rogue <;> simp [hm, hr, hl]
    · simp [hl, hm]

theorem DoffState.warm_eq (d : DoffState) :
    d.warm = if d = .spinning ∨ d = .claimed ∨ d = .fullWait then .spinning else .unknown := by
  cases d <;> simp [DoffState.warm]

theorem underWay_iff (d : DoffState) : d.underWay = true ↔ d ≠ .spinning ∧ d ≠ .claimed ∧ d ≠ .fullWait ∧ d ≠ .unknown := by
  cases d <;> simp [DoffState.underWay]

theorem underWay_iff_or (d : DoffState) :
    d.underWay = true ↔ d = .granted ∨ d = .rundown ∨ d = .doffing ∨ d = .restart ∨ d = .settling := by
  cases d <;> simp [DoffState.underWay]

theorem exchangingSections_eq (s : State) : s.exchangingSections =
    ((List.range s.creel.sections.length).map (· + 1)).filter (fun k => (s.sec k).state == .exchanging) := by
  have hcomm : (fun x => 1 + x) = (fun x : Nat => x + 1) := funext fun x => Nat.add_comm 1 x
  rw [State.exchangingSections, State.numbers, List.range'_eq_map_range, hcomm]

/-! ### Every alert raised stands, or the list is full -/

theorem raiseAll_standing {l : List RaisedAlert} {a : RaisedAlert} (ha : a ∈ l) (now : Nat) (f : Frame) :
    (∃ e ∈ (raiseAll l now f).alerts, e.code = a.1 ∧ e.subject = a.2.2) ∨
      Config.alertCapacity ≤ (raiseAll l now f).alerts.length := by
  have hkept : ∀ (l : List RaisedAlert) (f : Frame),
      ((∃ e ∈ f.alerts, e.code = a.1 ∧ e.subject = a.2.2) ∨ Config.alertCapacity ≤ f.alerts.length) →
      (∃ e ∈ (raiseAll l now f).alerts, e.code = a.1 ∧ e.subject = a.2.2) ∨
        Config.alertCapacity ≤ (raiseAll l now f).alerts.length := by
    intro l
    induction l with
    | nil => exact fun f h => h
    | cons b l ih => exact fun f h => ih _ (standing_raised h _ _ _ _)
  induction l generalizing f with
  | nil => exact absurd ha List.not_mem_nil
  | cons b l ih =>
    obtain rfl | ha := List.mem_cons.mp ha
    · exact hkept l _ (alerted_raise a.1 a.2.1 a.2.2 { State.reset with del := { State.reset.del with seconds := now }, frame := f })
    · exact ih ha _

/-! ### The faults -/

theorem warmed_inputs (s : State) : (warmed s).frame.levels = s.frame.levels ∧ (warmed s).frame.latches = s.frame.latches ∧
    ∀ n, (warmed s).faultSetup n = s.faultSetup n := by
  have hport : (warmed s).port = s.port := by simp [warmed, warming]
  refine ⟨by simp [warmed, warming, addHold, removeHold], by simp [warmed, warming, addHold, removeHold], fun n => ?_⟩
  unfold State.faultSetup
  rw [hport]

theorem edgeOf_warmed (n : Nat) (s : State) : edgeOf n (warmed s) = edgeOf n s := by
  obtain ⟨hlevels, hlatches, hsetup⟩ := warmed_inputs s
  unfold edgeOf State.faultLevel State.faultLatch
  rw [hlevels, hlatches, hsetup]

/-- The alerts of a warm reset, in the order of assumption log 17. -/
def warmAlerts (s : State) : List RaisedAlert :=
  exchangeAlerts s ++ doffAlert s.doff.state ++ (edgeOf 0 s ++ edgeOf 1 s ++ edgeOf 2 s ++ edgeOf 3 s)

theorem warmBlocks_listPart (s : State) : (warmBlocks s).frame.listPart = (raiseAll (warmAlerts s) s.del.seconds s.frame).listPart := by
  have hseconds : (warmed s).del.seconds = s.del.seconds := by simp [warmed, warming, Delivery.warm]
  rw [warmBlocks_eq, resampleFaults_listPart, hseconds, edgeOf_warmed, edgeOf_warmed, edgeOf_warmed,
    edgeOf_warmed, warmAlerts, raiseAll_append (exchangeAlerts s ++ doffAlert s.doff.state)]
  exact raiseAll_listPart _ _ (warmed_listPart s)

theorem warmBlocks_alerted {s : State} {a : RaisedAlert} (ha : a ∈ warmAlerts s) : alerted a.1 a.2.2 (warmBlocks s) := by
  have halerts : (warmBlocks s).frame.alerts = (raiseAll (warmAlerts s) s.del.seconds s.frame).alerts :=
    congrArg Prod.fst (warmBlocks_listPart s)
  unfold alerted
  rw [halerts]
  exact raiseAll_standing ha _ _

/-- The fault alerts as the statement spells them. -/
theorem edgeOf_eq {s : State} (hc : s.port.config ≠ none) (n : Nat) : edgeOf n s =
    match s.cfg.faults[n]? with
    | some b => if (s.frame.levels.getD n false != (b % 2 == 1)) && !s.frame.latches.getD n false then
        [(AlertCode.faultInput, (if b / 4 % 4 = 0 then AlertClass.note else if b / 4 % 4 = 1 then .action else .stop), some n)]
      else []
    | none => [] := by
  cases hb : s.cfg.faults[n]? with
  | some b =>
    rw [edgeOf, faultSetup_some hb hc]
    dsimp only
    rw [ofByte_cls]
    rfl
  | none =>
    have hnone : s.faultSetup n = none := by
      unfold State.faultSetup
      cases h : s.port.config with
      | none => exact absurd h hc
      | some c =>
        simp only [State.cfg, h, Option.getD_some] at hb
        simp [hb]
    rw [edgeOf, hnone]

/-! ### The warm reset as a whole -/

theorem warmReset_eq (s : State) : warmReset s = { warmBlocks (completeExecuting s) with
    port := { (discardSlot (warmBlocks (completeExecuting s))).port with part := .ready } } := by
  have hslot : ∀ u : State, discardSlot u = { u with port := (discardSlot u).port } := fun u => by
    unfold discardSlot
    split <;> rfl
  show { discardSlot (warmBlocks (completeExecuting s)) with
    port := { (discardSlot (warmBlocks (completeExecuting s))).port with part := .ready } } = _
  generalize warmBlocks (completeExecuting s) = u
  have h := hslot u
  generalize discardSlot u = v at h ⊢
  rw [h]

/-- The blocks that a warm reset sets to a value of the state before, whatever the faults. -/
theorem warmBlocks_fields (s : State) :
    (warmBlocks s).del = s.del.warm ∧ (warmBlocks s).mon = s.mon.warm s.now s.count ∧ (warmBlocks s).pie = s.pie.warm ∧
    (warmBlocks s).creel = s.creel.warm ∧ (warmBlocks s).doff = s.doff.warm ∧ (warmBlocks s).shift = s.shift.warm ∧
    (warmBlocks s).line = s.line.cleared := by
  rw [warmBlocks_eq]
  obtain ⟨hdel, hmon, hpie, hcreel, hdoff, hshift, hline, -⟩ := resampleFaults_frame (warmed s)
  rw [hdel, hmon, hpie, hcreel, hdoff, hshift, hline]
  have hwarmCreel : (warmCreel (warming s)).creel = s.creel.warm ∧ (warmCreel (warming s)).doff = s.doff := by
    rw [warmCreel_eq]
    exact ⟨rfl, rfl⟩
  have hwarmDoff : (warmDoff (warmCreel (warming s))).doff = s.doff.warm := by
    rw [warmDoff_eq, ← hwarmCreel.2]
  refine ⟨by simp [warmed, warming], by simp [warmed, warming], by simp [warmed, warming], ?_, ?_, by simp [warmed, warming],
    by simp [warmed, warming]⟩
  · rw [← hwarmCreel.1]
    simp [warmed]
  · rw [← hwarmDoff]
    simp [warmed]

/-- The holds after a warm reset but ALERT_STOP and the faults' (R132, R175, R186). -/
theorem warmBlocks_holds (s : State) :
    (warmBlocks s).frame.holds.copFull = false ∧ (warmBlocks s).frame.holds.hostHold = false ∧
    (warmBlocks s).frame.holds.notStarted = true ∧
    (warmBlocks s).frame.holds.doff = (s.doff.state.underWay || s.frame.holds.doff) := by
  obtain ⟨hcop, hhost, hstarted, hdoff, -⟩ := warmed_holds s
  have hkept : ∀ c, c = .copFull ∨ c = .hostHold ∨ c = .notStarted ∨ c = .doff →
      (warmBlocks s).frame.holds.has c = (warmed s).frame.holds.has c := fun c hc => by
    refine resampleFaults_has ?_ (fun n _ => ?_) _
    · obtain rfl | rfl | rfl | rfl := hc <;> decide
    · unfold HoldCause.fault
      obtain rfl | rfl | rfl | rfl := hc <;> split <;> decide
  exact ⟨(hkept .copFull (by simp)).trans hcop, (hkept .hostHold (by simp)).trans hhost,
    (hkept .notStarted (by simp)).trans hstarted, (hkept .doff (by simp)).trans hdoff⟩

/-- The faults after a warm reset. -/
theorem warmBlocks_input {n b : Nat} (hn : n < 4) {s : State} (hc : s.port.config ≠ none) (hb : s.cfg.faults[n]? = some b)
    (hlength : s.frame.latches.length = 4) :
    (warmBlocks s).frame.latches.getD n false = (s.frame.levels.getD n false != (b % 2 == 1)) ∧
    (warmBlocks s).frame.holds.has (HoldCause.fault n) =
      if 2 ≤ b / 4 % 4 then (s.frame.levels.getD n false != (b % 2 == 1)) else s.frame.holds.has (HoldCause.fault n) := by
  obtain ⟨hlevels, hlatches, hsetup⟩ := warmed_inputs s
  obtain ⟨-, -, -, -, hfault⟩ := warmed_holds s
  obtain ⟨hlatch, hhold, -⟩ := resampleFaults_input hn (s := warmed s) ((hsetup n).trans (faultSetup_some hb hc))
    (by rw [hlatches, hlength])
  have hlevel : (warmed s).faultLevel n = s.frame.levels.getD n false := by rw [State.faultLevel, hlevels]
  rw [hlevel] at hlatch hhold
  rw [hfault] at hhold
  simp only [ofByte_stop] at hhold
  exact ⟨hlatch, hhold⟩

theorem exec_warmReset {s : State} (h : s.frame.resetLow = false) (tag : Nat) :
    exec (.warmReset tag) s = .next (finish 6 tag (doWarmReset s)) := powered_high h _

theorem doWarmReset_init {s : State} (h : s.port.part = .init) : doWarmReset s = Effect.done s := by
  unfold doWarmReset
  rw [h]

theorem doWarmReset_past {s : State} (h : s.port.part ≠ .init) : doWarmReset s = Effect.done (warmReset s) := by
  unfold doWarmReset
  split
  · contradiction
  · rfl
  · rfl

/-- Settles O58: each block of the reset by its lemma above. -/
theorem warmResetKeepsAndClears : Obligations.WarmResetKeepsAndClears := by
  intro s tag hreset
  refine ⟨fun h => ?_, fun h => ?_⟩
  · rw [exec_warmReset hreset, doWarmReset_init h, finish_done]
  obtain ⟨p, ⟨response, hp⟩, hcomplete⟩ : ∃ p : Port, (∃ response, p = { s.port with
      executing := none, response := response, unread := s.port.unread || s.port.executing.isSome }) ∧
      completeExecuting s = { s with port := p } := by
    obtain ⟨response, hcomplete⟩ := completeExecuting_eq s
    exact ⟨_, ⟨response, rfl⟩, hcomplete⟩
  have hstart : exec (.warmReset tag) s = _ := exec_warmReset hreset tag
  rw [doWarmReset_past h, finish_done, warmReset_eq, hcomplete, discardSlot_port] at hstart
  obtain ⟨hdel, hmon, hpie, hcreel, hdoff, hshift, hline⟩ := warmBlocks_fields { s with port := p }
  obtain ⟨hcop, hhost, hnotStarted, hdoffHold⟩ := warmBlocks_holds { s with port := p }
  have hlist := warmBlocks_listPart { s with port := p }
  have halerted := fun a ha => warmBlocks_alerted (a := a) (s := { s with port := p }) ha
  obtain ⟨hport, hdraws, -⟩ := warmBlocks_frame { s with port := p }
  obtain ⟨hrun, hmaint, hlevels, -⟩ := warmBlocks_inputs { s with port := p }
  have hinput := fun n b hn hc hb hl => warmBlocks_input (n := n) (b := b) hn (s := { s with port := p }) hc hb hl
  have hcfg : p.config = s.port.config := by rw [hp]
  have hfaults : State.cfg { s with port := p } = s.cfg := by rw [State.cfg, State.cfg, hcfg]
  have halerts : warmAlerts { s with port := p } = warmAlerts s := by
    rw [hp]
    rfl
  rw [hfaults, hcfg] at hinput
  rw [halerts] at hlist
  simp only [halerts] at halerted
  generalize warmBlocks { s with port := p } = u at *
  have hlockout : u.mon.lockout = s.mon.lockout := by rw [hmon]; rfl
  have hpin : u.mon.pin = s.mon.pin := by rw [hmon]; rfl
  have hrotation : u.mon.rotation = none := congrArg Monitor.rotation hmon
  have habove : u.mon.aboveLimit = false := congrArg Monitor.aboveLimit hmon
  have hstrips : u.mon.strips = s.mon.strips.map Strip.warm := congrArg Monitor.strips hmon
  rw [hport] at hstart
  refine ⟨_, hstart, hdraws, ?port, hdel, hrotation, habove, hlockout, hpin, hstrips, ?records, ?record, hpie, hcreel, ?exchanging,
    ⟨?doff, ?doffHold, ?doffAlert⟩, hcop, hhost, hnotStarted, hrun, hmaint, hlevels, hinput, ?list, hshift, hline⟩
  case port =>
    rw [hp]
    rfl
  case records => exact (congrArg (fun m : Monitor => m.spindles.length) hmon).trans (List.length_map ..)
  case record =>
    intro i hi r
    show nth _ u.mon.spindles i = _
    rw [hmon]
    refine (nth_map _ _ (range_of_has hi).1 (range_of_has hi).2).trans ?_
    exact Spindle.warm_eq _ _ _
  case exchanging =>
    intro k hk hstate
    refine halerted (.exchangeUnknown, .action, some k) (List.mem_append_left _ (List.mem_append_left _ ?_))
    refine List.mem_map.mpr ⟨k, ?_, rfl⟩
    rw [State.exchangingSections, List.mem_filter, State.numbers, List.mem_range'_1]
    simp only [State.hasSection, Bool.and_eq_true, decide_eq_true_eq] at hk
    exact ⟨by omega, by simp [hstate]⟩
  case doff =>
    rw [← DoffState.warm_eq]
    exact hdoff
  case doffHold =>
    refine hdoffHold.trans (congrArg (· || s.frame.holds.doff) ?_)
    rw [Bool.eq_iff_iff, decide_eq_true_iff]
    exact underWay_iff _
  case doffAlert =>
    intro hunder
    refine halerted (.doffUnknown, .action, none) (List.mem_append_left _ (List.mem_append_right _ ?_))
    rw [doffAlert, if_pos ((underWay_iff _).mpr hunder)]
    exact List.mem_singleton_self _
  case list =>
    intro hc exchanging doff fault raised listed
    have hraised : warmAlerts s = raised := by
      simp only [raised, warmAlerts, exchangeAlerts, exchangingSections_eq, doffAlert, underWay_iff_or, edgeOf_eq hc]
      rfl
    rw [hraised] at hlist
    exact Prod.ext_iff.mp hlist

end Sys2Proof.Machine
end

section
/-! PROOFS. The fields of a host record are read back as they were spelled (12.2, R189). -/

namespace Sys2Proof.Machine

/-! ### Bytes and numbers -/

@[simp] theorem length_beBytes (w n : Nat) : (beBytes w n).length = w := by
  induction w with
  | zero => rfl
  | succ w ih => exact congrArg (· + 1) ih

theorem ofBytes_append (as bs : List Byte) : ofBytes (as ++ bs) = ofBytes as * 256 ^ bs.length + ofBytes bs := by
  induction bs using List.reverseRecOn with
  | nil => simp [ofBytes]
  | append_singleton bs b ih =>
    simp only [ofBytes, ← List.append_assoc, List.foldl_append, List.foldl_cons, List.foldl_nil] at ih ⊢
    rw [← List.foldl_append, List.foldl_append, ih, List.length_append, List.length_singleton, pow_succ]
    ring

theorem ofBytes_cons (b : Byte) (bs : List Byte) : ofBytes (b :: bs) = b.toNat * 256 ^ bs.length + ofBytes bs := by
  have h := ofBytes_append [b] bs
  simpa [ofBytes] using h

theorem ofBytes_beBytes_mod (w n : Nat) : ofBytes (beBytes w n) = n % 256 ^ w := by
  induction w with
  | zero => simp [beBytes, ofBytes, Nat.mod_one]
  | succ w ih =>
    have hsplit : n % 256 ^ (w + 1) = n % 256 ^ w + 256 ^ w * (n / 256 ^ w % 256) := by rw [pow_succ, Nat.mod_mul]
    rw [beBytes, ofBytes_cons, ih, length_beBytes, BitVec.toNat_ofNat, hsplit, Nat.add_comm, Nat.mul_comm]

/-- A number within its width is read back from its bytes. -/
theorem ofBytes_beBytes {w n : Nat} (h : n < 256 ^ w) : ofBytes (beBytes w n) = n := by
  rw [ofBytes_beBytes_mod, Nat.mod_eq_of_lt h]

theorem fieldAt_skip {bs : List Byte} {k : Nat} (h : bs.length ≤ k) (rest : List Byte) (w : Nat) :
    fieldAt (bs ++ rest) k w = fieldAt rest (k - bs.length) w := by
  rw [fieldAt, fieldAt, List.drop_append, List.drop_eq_nil_of_le h, List.nil_append]

theorem fieldAt_skip_one (n : Nat) (rest : List Byte) (k w : Nat) :
    fieldAt (beBytes 1 n ++ rest) (k + 1) w = fieldAt rest k w := by
  rw [fieldAt_skip (by simp), length_beBytes, Nat.add_sub_cancel]

theorem fieldAt_skip_two (n : Nat) (rest : List Byte) (k w : Nat) :
    fieldAt (beBytes 2 n ++ rest) (k + 2) w = fieldAt rest k w := by
  rw [fieldAt_skip (by simp), length_beBytes, Nat.add_sub_cancel]

theorem fieldAt_skip_four (n : Nat) (rest : List Byte) (k w : Nat) :
    fieldAt (beBytes 4 n ++ rest) (k + 4) w = fieldAt rest k w := by
  rw [fieldAt_skip (by simp), length_beBytes, Nat.add_sub_cancel]

theorem fieldAt_here {w n : Nat} (h : n < 256 ^ w) (rest : List Byte) :
    fieldAt (beBytes w n ++ rest) 0 w = n := by
  rw [fieldAt, List.drop_zero, List.take_append_of_le_length (by simp), List.take_of_length_le (by simp), ofBytes_beBytes h]

theorem fieldAt_last {w n : Nat} (h : n < 256 ^ w) : fieldAt (beBytes w n) 0 w = n := by
  rw [fieldAt, List.drop_zero, List.take_of_length_le (by simp), ofBytes_beBytes h]

/-! ### The fields of each command -/

theorem Article.fits_iff (a : Article) : a.fits = true ↔
    a.id < 65536 ∧ a.tex < 65536 ∧ a.twist < 65536 ∧ a.draft < 65536 ∧ a.roving < 65536 ∧ a.copMass < 256 := by
  simp [Article.fits, and_assoc]

theorem articleOf_articleBytes {a : Article} (h : a.fits = true) : articleOf (articleBytes a) = a := by
  obtain ⟨hid, htex, htwist, hdraft, hroving, hcop⟩ := (Article.fits_iff a).1 h
  simp [articleOf, articleBytes, fieldAt_skip_two, fieldAt_here, fieldAt_last, *]

theorem length_articleBytes (a : Article) : (articleBytes a).length = 11 := by
  simp [articleBytes]

theorem four_of_length {l : List Nat} (h : l.length = 4) : ∃ a b c d, l = [a, b, c, d] := by
  match l, h with
  | [a, b, c, d], _ => exact ⟨a, b, c, d, rfl⟩

theorem length_flatMap_beBytes (l : List Nat) : (l.flatMap (beBytes 1)).length = l.length := by
  simp

theorem length_configurationBytes {c : Configuration} (h : c.faults.length = 4) : (configurationBytes c).length = 39 := by
  unfold configurationBytes
  simp only [List.length_append, length_beBytes, length_flatMap_beBytes]
  rw [h]

theorem flatMap_beBytes (a b c d : Nat) :
    [a, b, c, d].flatMap (beBytes 1) = beBytes 1 a ++ (beBytes 1 b ++ (beBytes 1 c ++ beBytes 1 d)) := by
  simp [List.flatMap_cons]

theorem configurationOf_configurationBytes {c : Configuration} (h : c.fits = true) :
    configurationOf (configurationBytes c) = c := by
  simp only [Configuration.fits, Bool.and_eq_true, decide_eq_true_eq, beq_iff_eq, List.all_eq_true] at h
  obtain ⟨⟨⟨⟨⟨⟨⟨⟨h, hlen⟩, hall⟩, h18⟩, h19⟩, h20⟩, h21⟩, h22⟩, h23⟩ := h
  obtain ⟨f0, f1, f2, f3, hf⟩ := four_of_length hlen
  rw [hf] at hall
  simp only [List.forall_mem_cons] at hall
  obtain ⟨hf0, hf1, hf2, hf3, -⟩ := hall
  obtain ⟨⟨⟨⟨⟨⟨⟨⟨⟨⟨⟨⟨⟨⟨⟨⟨h1, h2⟩, h3⟩, h4⟩, h5⟩, h6⟩, h7⟩, h8⟩, h9⟩, h10⟩, h11⟩, h12⟩, h13⟩, h14⟩, h15⟩, h16⟩, h17⟩ := h
  obtain ⟨⟩ := c
  dsimp only at *
  subst hf
  unfold configurationOf configurationBytes
  simp only [flatMap_beBytes, List.append_assoc]
  simp [fieldAt_skip_one, fieldAt_skip_two, fieldAt_skip_four, fieldAt_here, fieldAt_last, *]

theorem Configuration.faults_of_fits {c : Configuration} (h : c.fits = true) : c.faults.length = 4 := by
  simp only [Configuration.fits, Bool.and_eq_true, beq_iff_eq] at h
  tauto

theorem fieldsLength_commandKind {c : Command} (h : c.fits = true) :
    fieldsLength (commandKind c) = some (fieldBytes c).length := by
  cases c
  case configure c => rw [fieldBytes, length_configurationBytes (Configuration.faults_of_fits h)]; rfl
  case stageArticle a => rw [fieldBytes, length_articleBytes]; rfl
  all_goals rfl

theorem commandOf_fieldBytes {c : Command} (h : c.fits = true) :
    commandOf (commandKind c) (fieldBytes c) = some c := by
  cases c
  case configure c => exact congrArg (some ∘ Command.configure) (configurationOf_configurationBytes h)
  case stageArticle a => exact congrArg (some ∘ Command.stageArticle) (articleOf_articleBytes h)
  all_goals
    simp [Command.fits] at h
    simp [commandKind, commandOf, fieldBytes, fieldAt_skip_one, fieldAt_skip_two, fieldAt_here, fieldAt_last, h]

theorem commandKind_lt (c : Command) : commandKind c < 256 := by
  cases c <;> simp [commandKind]

theorem length_fieldBytes_lt {c : Command} (h : c.fits = true) : (fieldBytes c).length < 256 := by
  cases c
  case configure c => rw [fieldBytes, length_configurationBytes (Configuration.faults_of_fits h)]; decide
  case stageArticle a => rw [fieldBytes, length_articleBytes]; decide
  all_goals exact of_decide_eq_true rfl

theorem recordOf_eq (c : Command) (tag : Nat) : recordOf c tag =
    BitVec.ofNat 8 (commandKind c) :: BitVec.ofNat 8 (fieldBytes c).length :: BitVec.ofNat 8 tag :: fieldBytes c := by
  simp [recordOf, beBytes]

/-- What is read of the three leading bytes and of any fields that follow them. -/
theorem readRecord_cons {k l t : Nat} (hk : k < 256) (hl : l < 256) (ht : t < 256) (fs : List Byte) :
    readRecord (BitVec.ofNat 8 k :: BitVec.ofNat 8 l :: BitVec.ofNat 8 t :: fs) =
      if fs.length = l ∧ fieldsLength k = some l then (commandOf k fs).map (fun c => (c, t)) else none := by
  rw [readRecord, BitVec.toNat_ofNat, BitVec.toNat_ofNat, BitVec.toNat_ofNat, Nat.mod_eq_of_lt hk, Nat.mod_eq_of_lt hl,
    Nat.mod_eq_of_lt ht]

theorem readRecord_recordOf {c : Command} {tag : Nat} (h : c.fits = true) (ht : tag < 256) :
    readRecord (recordOf c tag) = some (c, tag) := by
  rw [recordOf_eq, readRecord_cons (commandKind_lt c) (length_fieldBytes_lt h) ht,
    if_pos ⟨rfl, fieldsLength_commandKind h⟩, commandOf_fieldBytes h, Option.map_some]

/-- A record whose fields are not as many as its length byte says is not read (R189). -/
theorem readRecord_length {c : Command} {tag : Nat} (h : c.fits = true) (ht : tag < 256) {fs : List Byte}
    (hne : fs.length ≠ (fieldBytes c).length) :
    readRecord (BitVec.ofNat 8 (commandKind c) :: BitVec.ofNat 8 (fieldBytes c).length :: BitVec.ofNat 8 tag :: fs) =
      none := by
  rw [readRecord_cons (commandKind_lt c) (length_fieldBytes_lt h) ht, if_neg (fun hlen => hne hlen.1)]

/-- Settles O60: the fields are read back command by command; a byte more or less leaves the length that the record names. -/
theorem hostRecordReadsBack : Obligations.HostRecordReadsBack := by
  intro c tag h ht
  refine ⟨readRecord_recordOf h ht, fun b => ?_, ?_⟩
  · rw [recordOf_eq]
    exact readRecord_length h ht (by simp)
  · rw [recordOf_eq]
    rcases hfields : fieldBytes c with _ | ⟨f, fs⟩
    · simp [readRecord]
    · rw [List.dropLast_cons_cons, List.dropLast_cons_cons, List.dropLast_cons_cons, ← hfields]
      exact readRecord_length h ht (by simp [hfields])

end Sys2Proof.Machine
end

section
/-! PROOFS. The bytes of a telegram: its check, and what a reception of them reads (R162, R163, 12.1). -/

namespace Sys2Proof.Machine

/-! ### The CRC over its own check -/

theorem crcBit_zero : crcBit 0#16 = 0#16 := by decide

/-- A set bit that has not come to the top is shifted alone. -/
theorem crcBit_shifted (x : Byte) {i : Nat} (h : i < 8) :
    crcBit (x.setWidth 16 <<< i) = x.setWidth 16 <<< (i + 1) := by
  have htop : (x.setWidth 16 <<< i).getLsbD 15 = false := by
    rw [BitVec.getLsbD_shiftLeft, BitVec.getLsbD_setWidth, BitVec.getLsbD_of_ge x (15 - i) (by omega)]
    simp
  rw [crcBit, htop, BitVec.shiftLeft_add]
  rfl

/-- A byte that cancels the upper half of the register leaves the lower half, moved up. -/
theorem crcByte_cancelling {r : BitVec 16} {b x : Byte} (h : r ^^^ (b.setWidth 16 <<< 8) = x.setWidth 16) :
    crcByte r b = x.setWidth 16 <<< 8 := by
  have hfirst : crcBit (x.setWidth 16) = x.setWidth 16 <<< 1 := by
    simpa only [BitVec.shiftLeft_zero] using crcBit_shifted x (i := 0) (by decide)
  simp only [crcByte, h, hfirst]
  rw [crcBit_shifted, crcBit_shifted, crcBit_shifted, crcBit_shifted, crcBit_shifted, crcBit_shifted, crcBit_shifted] <;>
    decide

/-- The bytes of the register, upper then lower. -/
theorem beBytes_two (r : BitVec 16) :
    beBytes 2 r.toNat = [BitVec.ofNat 8 (r.toNat / 256), BitVec.ofNat 8 r.toNat] := by
  simp [beBytes]

theorem upper_cancels (r : BitVec 16) :
    r ^^^ ((BitVec.ofNat 8 (r.toNat / 256)).setWidth 16 <<< 8) = (BitVec.ofNat 8 r.toNat).setWidth 16 := by
  refine BitVec.eq_of_getLsbD_eq fun i hi => ?_
  have hupper : (r.toNat / 256).testBit (i - 8) = r.getLsbD (i - 8 + 8) := by
    rw [show 256 = 2 ^ 8 from rfl, Nat.testBit_div_two_pow, BitVec.testBit_toNat]
  rcases Nat.lt_or_ge i 8 with hlow | hhigh
  · simp [hlow, hi]
  · rw [Nat.sub_add_cancel hhigh] at hupper
    have hbyte : i - 8 < 8 := by omega
    have hbit : (BitVec.ofNat 8 (r.toNat / 256)).getLsbD (i - 8) = r.getLsbD i := by
      rw [BitVec.getLsbD_ofNat, hupper, decide_eq_true hbyte, Bool.true_and]
    have hgone : (BitVec.ofNat 8 r.toNat).getLsbD i = false := BitVec.getLsbD_of_ge _ _ hhigh
    rw [BitVec.getLsbD_xor, BitVec.getLsbD_shiftLeft, BitVec.getLsbD_setWidth, BitVec.getLsbD_setWidth, hbit, hgone]
    simp [hi, Nat.not_lt.2 hhigh, show i - 8 < 16 by omega]

/-- The CRC runs to 0 over its own two bytes (R162). -/
theorem foldl_crcByte_own (r : BitVec 16) : (beBytes 2 r.toNat).foldl crcByte r = 0 := by
  rw [beBytes_two, List.foldl_cons, List.foldl_cons, List.foldl_nil, crcByte_cancelling (upper_cancels r)]
  simp only [crcByte, BitVec.xor_self, crcBit_zero]
  rfl

theorem crc_bytes (t : Telegram) : crc t.bytes = 0 := by
  rw [Telegram.bytes, crc, List.foldl_append]
  exact foldl_crcByte_own (crc t.head)

/-! ### Reading the bytes of a telegram -/

theorem length_le_of_lengthOk {k : Kind} {n : Nat} (h : k.lengthOk n = true) : n ≤ 24 := by
  cases k <;> simp [Kind.lengthOk] at h <;> omega

theorem byte0_le (k : Kind) : k.byte0 ≤ 255 := by
  cases k <;> decide

theorem ofByte0_byte0 (k : Kind) : Kind.ofByte0 k.byte0 = some k := by
  cases k <;> decide

theorem field_one {n : Nat} (h : n ≤ 255) : field 1 n = [BitVec.ofNat 8 n] := by
  simp [field, beBytes, Nat.min_eq_left h]

section
variable {t : Telegram} (hfrom : t.source ≤ 62) (hto : t.dest ≤ 62) (hlen : t.kind.lengthOk t.payload.length = true)
include hfrom hto hlen

theorem head_eq : t.head = BitVec.ofNat 8 t.kind.byte0 :: BitVec.ofNat 8 t.source :: BitVec.ofNat 8 t.dest ::
    BitVec.ofNat 8 t.payload.length :: t.payload := by
  have hpayload := length_le_of_lengthOk hlen
  rw [Telegram.head, field_one (byte0_le _), field_one (by omega), field_one (by omega), field_one (by omega)]
  rfl

theorem length_head : t.head.length = 4 + t.payload.length := by
  rw [head_eq hfrom hto hlen]
  simp only [List.length_cons]
  omega

theorem length_bytes : t.bytes.length = t.payload.length + 6 := by
  rw [Telegram.bytes, List.length_append, length_head hfrom hto hlen, length_beBytes]
  omega

/-- The four bytes of the header, each read as the field that it carries. -/
theorem byteAt_bytes : byteAt t.bytes 0 = t.kind.byte0 ∧ byteAt t.bytes 1 = t.source ∧ byteAt t.bytes 2 = t.dest ∧
    byteAt t.bytes 3 = t.payload.length := by
  have hpayload := length_le_of_lengthOk hlen
  have hkind := byte0_le t.kind
  rw [Telegram.bytes, head_eq hfrom hto hlen]
  simp only [byteAt, List.cons_append, List.getD_cons_zero, List.getD_cons_succ, BitVec.toNat_ofNat]
  omega

theorem wholeLength_bytes : wholeLength t.bytes = t.bytes.length := by
  rw [wholeLength, (byteAt_bytes hfrom hto hlen).2.2.2, length_bytes hfrom hto hlen]
  omega

theorem checkAgrees_bytes : checkAgrees t.bytes = true := by
  have hsplit : t.head.length = 4 + byteAt t.bytes 3 := by
    rw [(byteAt_bytes hfrom hto hlen).2.2.2, length_head hfrom hto hlen]
  have hcheck : (crc t.head).toNat < 256 ^ 2 := (crc t.head).isLt
  simp only [checkAgrees, ← hsplit, beq_iff_eq]
  rw [Telegram.bytes, List.drop_left, List.take_left, List.take_of_length_le (by simp), ofBytes_beBytes hcheck]

theorem judgeBytes_bytes : judgeBytes t.bytes = .good := by
  have hlength := length_bytes hfrom hto hlen
  have hannounced := (byteAt_bytes hfrom hto hlen).2.2.2
  have hpayload := length_le_of_lengthOk hlen
  have hmax : Config.maxPayload = 24 := rfl
  rw [judgeBytes, if_neg (by omega), if_neg (by omega), if_neg (by rw [wholeLength_bytes hfrom hto hlen]; omega),
    if_pos (checkAgrees_bytes hfrom hto hlen)]

theorem payload_bytes : (t.bytes.drop 4).take (byteAt t.bytes 3) = t.payload := by
  rw [(byteAt_bytes hfrom hto hlen).2.2.2, Telegram.bytes, head_eq hfrom hto hlen]
  simp only [List.cons_append, List.drop_succ_cons, List.drop_zero]
  exact List.take_left ..

theorem telegramOf_bytes (hone : 1 ≤ t.source) : telegramOf t.bytes = some t := by
  obtain ⟨hkind, hsource, hdest, hannounced⟩ := byteAt_bytes hfrom hto hlen
  have hpayload := payload_bytes hfrom hto hlen
  simp only [telegramOf, hkind, ofByte0_byte0, hpayload]
  rw [if_pos (by rw [hannounced, hsource]; exact ⟨hlen, hone, hfrom⟩), hsource, hdest]
end

/-- Settles O48: the header is read byte by byte, and the CRC cancels against its own two bytes. -/
theorem sentTelegramIsReceivedAgain : Obligations.SentTelegramIsReceivedAgain := by
  intro t hone hfrom hto hlen
  refine ⟨length_bytes hfrom hto hlen, judgeBytes_bytes hfrom hto hlen, ?_, telegramOf_bytes hfrom hto hlen hone,
    crc_bytes t⟩
  simp [hasTrailing, wholeLength_bytes hfrom hto hlen]

end Sys2Proof.Machine
end

section
/-! PROOFS. The doff sequencer's operations as what they hand over and the doff record that they leave (R117, R138 to R142). -/

namespace Sys2Proof.Machine

/-! ### Handing over beside the doff record -/

theorem enqueue_setDoff (kind : Kind) (dest : Nat) (payload : List Byte) (d : Doff) (s : State) :
    enqueue kind dest payload { s with doff := d } = { enqueue kind dest payload s with doff := d } := by
  by_cases hrun : s.running = true
  · have hrun' : State.running { s with doff := d } = true := hrun
    rw [enqueue, if_pos hrun', enqueue, if_pos hrun]
    unfold joinLine
    dsimp only [State.cfg]
    split <;> rfl
  · have hrun' : ¬ State.running { s with doff := d } = true := hrun
    rw [enqueue, if_neg hrun', enqueue, if_neg hrun]

/-- What an enqueue, and a doff record set after it, leaves alone. -/
theorem enqueue_setDoff_onlyIn (kind : Kind) (dest : Nat) (payload : List Byte) (d : Doff) (s : State) :
    onlyIn [.doff, .line, .frame] s { enqueue kind dest payload s with doff := d } :=
  ⟨by simp, fun b hb => by cases b <;> simp_all [Block.same]⟩

/-! ### The ranking and the two counts (R138, R140, R142) -/

theorem ranksAhead_eq (s : State) (p : Peer) : s.ranksAhead p = aheadAt s.cfg s.del.seconds s.doff p := by
  have hwait : p.presentWait s.now = min 65535 (p.wait + (s.del.seconds - p.heard)) := rfl
  have hown : s.ownWait = waitAt s.del.seconds s.doff := rfl
  rw [State.ranksAhead, aheadAt, ← hwait, ← hown]
  have hne : (Urgency.normal == Urgency.full) = false := rfl
  have hne' : (Urgency.full == Urgency.normal) = false := rfl
  cases hp : p.urgency <;> cases hs : s.doff.urgency <;> simp [hne, hne']

theorem countsAhead_eq (s : State) (p : Peer) :
    s.countsAhead p = (p.phase != .claimed && p.phase != .granted || aheadAt s.cfg s.del.seconds s.doff p) := by
  rw [State.countsAhead, ranksAhead_eq]
  cases p.phase <;> simp

theorem holdsSlot_eq (p : Phase) : p.holdsSlot = (p != .claimed) := by
  cases p <;> rfl

theorem slotHolders_eq (s : State) : s.slotHolders = s.doff.view.countP (fun p => p.phase != .claimed) := by
  simp only [State.slotHolders, holdsSlot_eq]

theorem claimantsAhead_eq (s : State) : s.claimantsAhead =
    s.doff.view.countP (fun p => p.phase == .claimed && aheadAt s.cfg s.del.seconds s.doff p) := by
  simp only [State.claimantsAhead, ranksAhead_eq]

theorem holdersAhead_eq (s : State) : s.holdersAhead = s.doff.view.countP
    (fun q => q.phase != .claimed && (q.phase != .granted || aheadAt s.cfg s.del.seconds s.doff q)) := by
  simp only [State.holdersAhead, holdsSlot_eq, countsAhead_eq]
  congr 1
  funext q
  cases q.phase <;> rfl

theorem full_eq_false {d : Doff} : d.full = false ↔ d.view.length < 16 := by
  simp [Doff.full, Config.viewCapacity]

theorem grants_iff (s : State) :
    (s.doff.full = false ∧ s.slotHolders + s.claimantsAhead < s.cfg.slots) ↔ grantsAt s.cfg s.del.seconds s.doff := by
  rw [full_eq_false, slotHolders_eq, claimantsAhead_eq, grantsAt]

theorem claiming_iff (d : DoffState) : d.claiming = true ↔ d = .claimed ∨ d = .fullWait := by
  cases d <;> simp [DoffState.claiming]

/-! ### Claim, grant, back-off and stop, each as an enqueue and a doff record -/

/-- The payload of a DOFF_CLAIM (12.1). -/
def claimPayload (now fill : Nat) (d : Doff) : List Byte :=
  field 1 d.urgency.code ++ field 2 (waitAt now d) ++ field 2 fill ++ flag d.manual

theorem claimAgain_eq (s : State) : announceAgain (sendClaim s) =
    { enqueue .doffClaim 0 (claimPayload s.del.seconds s.fill s.doff) s with
      doff := { s.doff with nextAnn := some (s.del.seconds + 5) } } := by
  have hdoff : (sendClaim s).doff = s.doff := by simp
  have hnow : (sendClaim s).now = s.del.seconds := by simp [State.now]
  rw [announceAgain, hdoff, hnow]
  rfl

theorem stateAgain_eq (s : State) : announceAgain (sendDoffState s) =
    { enqueue .doffState 0 (field 1 s.doff.state.phase.code ++ field 1 s.doff.urgency.code ++
        field 2 (s.doff.grantedWait.getD 0)) s with
      doff := { s.doff with nextAnn := some (s.del.seconds + 5) } } := by
  have hdoff : (sendDoffState s).doff = s.doff := by simp
  have hnow : (sendDoffState s).now = s.del.seconds := by simp [State.now]
  rw [announceAgain, hdoff, hnow]
  rfl

/-- The payload of the DOFF_STATE of a grant (R140, 12.1). -/
def grantPayload (now : Nat) (d : Doff) : List Byte :=
  field 1 1 ++ field 1 d.urgency.code ++ field 2 (waitAt now d)

theorem grant_eq (s : State) : grant s = { enqueue .doffState 0 (grantPayload s.del.seconds s.doff) s with
    doff := grantedAt s.del.seconds s.doff } := by
  rw [grant, stateAgain_eq, enqueue_setDoff]
  rfl

theorem grantCheck_grants {s : State} (hstate : s.doff.state = .claimed ∨ s.doff.state = .fullWait)
    (hlisten : s.doff.listenEnd = none) (h : grantsAt s.cfg s.del.seconds s.doff) :
    grantCheck s = { enqueue .doffState 0 (grantPayload s.del.seconds s.doff) s with
      doff := grantedAt s.del.seconds s.doff } := by
  rw [grantCheck, if_pos ⟨(claiming_iff _).2 hstate, hlisten⟩, if_pos ((grants_iff s).2 h), grant_eq]

theorem grantCheck_keeps {s : State} (h : ¬ ((s.doff.state = .claimed ∨ s.doff.state = .fullWait) ∧
    s.doff.listenEnd = none ∧ grantsAt s.cfg s.del.seconds s.doff)) : grantCheck s = s := by
  rw [← claiming_iff, ← grants_iff] at h
  rw [grantCheck]
  split
  · next hclaims => exact if_neg fun hg => h ⟨hclaims.1, hclaims.2, hg⟩
  · rfl

theorem withdrawGrant_eq (s : State) : withdrawGrant s =
    { enqueue .doffClaim 0 (claimPayload s.del.seconds s.fill s.doff) s with
      doff := { s.doff with
        confirmEnd := none, grantedWait := none, state := s.doff.urgency.claimState
        nextAnn := some (s.del.seconds + 5) } } := by
  rw [withdrawGrant, claimAgain_eq, enqueue_setDoff]
  rfl

theorem claimState_eq (u : Urgency) : u.claimState = if u = .full then .fullWait else .claimed := by
  cases u <;> rfl

theorem backOffCheck_backsOff {s : State} (h : backsOffAt s.cfg s.del.seconds s.doff) : backOffCheck s =
    { enqueue .doffClaim 0 (claimPayload s.del.seconds s.fill s.doff) s with
      doff := backedOffAt s.del.seconds s.doff } := by
  rw [backsOffAt, ← holdersAhead_eq] at h
  rw [backOffCheck, if_pos h, withdrawGrant_eq]
  simp only [claimState_eq]
  rfl

theorem backOffCheck_keeps {s : State} (h : ¬ backsOffAt s.cfg s.del.seconds s.doff) : backOffCheck s = s := by
  rw [backsOffAt, ← holdersAhead_eq] at h
  rw [backOffCheck, if_neg h]

theorem stopTest_stops {s : State} (hstate : s.doff.state = .rundown) (hrun : s.frame.run = false)
    (hfree : 2 ≤ s.del.pulseFree) : stopTest s =
      { enqueue .doffState 0 (field 1 3 ++ field 1 s.doff.urgency.code ++ field 2 (s.doff.grantedWait.getD 0)) s with
        doff := { s.doff with
          state := .doffing, doffTimer := some (s.del.seconds + s.cfg.doffTime), nextAnn := some (s.del.seconds + 5) } } := by
  rw [stopTest, if_pos ⟨hstate, hrun, hfree⟩, stateAgain_eq, enqueue_setDoff]
  rfl

theorem stopTest_keeps {s : State} (h : ¬ (s.doff.state = .rundown ∧ s.frame.run = false ∧ 2 ≤ s.del.pulseFree)) :
    stopTest s = s := if_neg h

theorem reached_some {now due : Nat} : reached now (some due) = true ↔ due ≤ now := by
  simp [reached]

theorem reached_iff_exists {now : Nat} {t : Option Nat} : reached now t = true ↔ ∃ due, t = some due ∧ due ≤ now := by
  cases t <;> simp [reached]

/-! ### The listen end (R139) -/

theorem exec_listenEnd {s : State} (hw : s.works) {due : Nat} (h : s.doff.listenEnd = some due) (hdue : due ≤ s.del.seconds) :
    exec .listenEnd s = .next (grantCheck { s with doff := { s.doff with listenEnd := none } }) := by
  have hreached : reached s.now s.doff.listenEnd = true := by rw [h]; exact reached_some.2 hdue
  rw [show exec .listenEnd s = execListenEnd s from rfl, execListenEnd, inRunning_works hw, if_pos hreached]

/-- Settles O38. -/
theorem listenEndGrantsBelowTheSlots : Obligations.ListenEndGrantsBelowTheSlots := by
  intro s due hw h
  refine ⟨fun hlt => ?_, fun hdue => ?_⟩
  · have hreached : ¬ reached s.now s.doff.listenEnd = true := by rw [h, reached_some]; exact Nat.not_le.2 hlt
    rw [show exec .listenEnd s = execListenEnd s from rfl, execListenEnd, inRunning_works hw, if_neg hreached]
  · rw [exec_listenEnd hw h hdue]
    intro d mine theirs ahead holders claimants grants
    refine ⟨fun hno => ?_, fun hgrants => ?_⟩
    · rw [grantCheck_keeps (s := { s with doff := d }) fun hg => hno ⟨hg.1, hg.2.2⟩]
    · rw [grantCheck_grants (s := { s with doff := d }) hgrants.1 rfl hgrants.2, enqueue_setDoff]
      refine ⟨_, rfl, ?_⟩
      exact ⟨enqueue_setDoff_onlyIn .doffState 0 _ _ s, rfl, rfl, rfl⟩

end Sys2Proof.Machine
end

section
/-! PROOFS. The bodies of the reads: their widths, what they carry, and that a read changes nothing (R190, chapter 12). -/

namespace Sys2Proof.Machine

/-! ### Widths of the fields (R190) -/

@[simp] theorem length_field (w n : Nat) : (field w n).length = w := length_beBytes ..

@[simp] theorem length_ones (w : Nat) : (ones w).length = w := List.length_replicate

@[simp] theorem length_flag (b : Bool) : (flag b).length = 1 := length_field ..

@[simp] theorem length_qualified (w : Nat) (r : Reported) : (qualified w r).length = w + 1 := by
  cases r <;> simp [qualified, Nat.add_comm]

@[simp] theorem length_optional (w : Nat) (v : Option Nat) : (optional w v).length = w + 1 := length_qualified ..

theorem length_group {w : Nat} {v : Option (List Byte)} (h : ∀ bs, v = some bs → bs.length = w) :
    (group w v).length = w + 1 := by
  cases v with
  | none => simp [group, Nat.add_comm]
  | some bs => simp [group, h bs rfl, Nat.add_comm]

theorem length_group_map {α : Type} {w : Nat} {f : α → List Byte} (h : ∀ a, (f a).length = w) (v : Option α) :
    (group w (v.map f)).length = w + 1 := by
  refine length_group fun bs hbs => ?_
  obtain ⟨a, -, rfl⟩ := Option.map_eq_some_iff.1 hbs
  exact h a

theorem length_counted {α : Type} {w : Nat} {f : α → List Byte} (h : ∀ a, (f a).length = w) (l : List α) :
    (counted f l).length = 1 + w * l.length := by
  have hflat : ((l.map f).flatten).length = w * l.length := by
    induction l with
    | nil => rfl
    | cons a l ih => rw [List.map_cons, List.flatten_cons, List.length_append, ih, h, List.length_cons, Nat.mul_succ, Nat.add_comm]
  rw [counted, List.length_append, length_field, hflat]

theorem length_spindleBytes (n : Nat) (r : Spindle) : (spindleBytes n r).length = 36 := by
  simp only [spindleBytes, List.length_append, length_field, length_optional]

theorem length_segmentBytes (g : Segment) : (segmentBytes g).length = 93 := by
  have harticle := length_group_map (w := 4) (f := fun a : Nat × Nat => field 2 a.1 ++ field 2 a.2) (fun a => by simp) g.article
  simp only [segmentBytes, List.length_append, length_field, length_optional, length_flag, harticle]

theorem length_reportBytes (r : Report) : (reportBytes r).length = 52 + 93 * r.shift.segments.length := by
  have hclosed := length_group_map (w := 10) (f := fun c : Nat × Nat => field 4 c.1 ++ field 6 c.2) (fun a => by simp)
    r.shift.closedAt
  have hcounts := length_group_map (w := 4) (f := fun c : Nat × Nat => field 2 c.1 ++ field 2 c.2) (fun a => by simp)
    r.shift.counts
  have hsegments := length_counted length_segmentBytes r.shift.segments
  simp only [reportBytes, List.length_append, length_field, hclosed, hcounts, hsegments]
  omega

/-! ### The open shift as it is reported (R157) -/

theorem openReport_unconfigured {s : State} (h : s.port.config = none) : s.openReport =
    { shift := { s.shift.opened with flags := { s.shift.opened.flags with noDelivery := true } }
      efficiency := 0, breakRate := 0 } := by
  simp only [State.openReport, h]

/-- The open shift as if its last run closed now. -/
def State.liveShift (c : Configuration) (s : State) : Shift :=
  { s.shift.opened with segments := modifyLast (Segment.reckoned c s.count) s.shift.opened.segments }

theorem openReport_configured {s : State} {c : Configuration} (h : s.port.config = some c) :
    s.openReport.shift.segments = (s.liveShift c).segments ∧ s.openReport.shift.number = s.shift.opened.number ∧
    s.openReport.efficiency = (s.liveShift c).efficiency c := by
  unfold State.openReport
  rw [h]
  exact ⟨rfl, rfl, rfl⟩

theorem openReport_spec {s : State} {c : Configuration} (h : s.port.config = some c) {first : List Segment} {g : Segment}
    (hsegments : s.shift.opened.segments = first ++ [g]) :
    let live := first ++ [{ g.closeRun c s.del.count with runStart := g.runStart, openLosses := g.openLosses }]
    let gross := c.spindles * (live.map Segment.runPulses).sum
    s.openReport.shift.segments = live ∧ s.openReport.shift.number = s.shift.opened.number ∧
    s.openReport.efficiency = (if gross = 0 then 0 else 10000 * (live.map Segment.up).sum / gross) := by
  intro live gross
  obtain ⟨hreported, hnumber, hefficiency⟩ := openReport_configured h
  have hlive : (s.liveShift c).segments = live := by
    rw [State.liveShift, hsegments, modifyLast_append]
    rfl
  refine ⟨hreported.trans hlive, hnumber, ?_⟩
  rw [hefficiency, Shift.efficiency, efficiencyOf, Shift.gross, Shift.up, hlive]

/-! ### Peers and alerts in a read -/

theorem flag_eq (b : Bool) : flag b = [if b = true then 1#8 else 0#8] := by
  cases b <;> rfl

theorem peerBytes_last {s : State} (h : s.doff.state.ranks = true) (p : Peer) :
    (peerBytes s p).getLast? = some (if s.countsAhead p = true then 1#8 else 0#8) := by
  rw [peerBytes, if_pos h, flag_eq, List.getLast?_concat]

theorem countsAhead_later {s : State} {p : Peer} (h : p.phase = .rundown ∨ p.phase = .doffing ∨ p.phase = .unknown) :
    s.countsAhead p = true := by
  rcases h with h | h | h <;> simp [State.countsAhead, h]

theorem countsAhead_ranked {s : State} {p : Peer} (h : p.phase = .claimed ∨ p.phase = .granted) :
    s.countsAhead p = aheadAt s.cfg s.del.seconds s.doff p := by
  rcases h with h | h <;> simp [State.countsAhead, h, ranksAhead_eq]

theorem peerBytes_spec {s : State} (p : Peer)
    (hstate : s.doff.state = .claimed ∨ s.doff.state = .fullWait ∨ s.doff.state = .granted) :
    (p.phase = .rundown ∨ p.phase = .doffing ∨ p.phase = .unknown → (peerBytes s p).getLast? = some 1#8) ∧
    (p.phase = .claimed ∨ p.phase = .granted →
      (peerBytes s p).getLast? = some (if aheadAt s.cfg s.del.seconds s.doff p then 1#8 else 0#8)) := by
  have hranks : s.doff.state.ranks = true := by rcases hstate with h | h | h <;> rw [h] <;> rfl
  rw [peerBytes_last hranks]
  exact ⟨fun h => by rw [countsAhead_later h, if_pos rfl], fun h => by rw [countsAhead_ranked h]⟩

theorem alertBody_none {s : State} (h : s.frame.alerts = []) :
    alertBody s = List.replicate 10 255#8 ++ field 1 s.frame.alerts.length ++ field 2 s.frame.overflow := by
  unfold alertBody
  rw [h]
  rfl

theorem alertBody_oldest {s : State} {a : Alert} {rest : List Alert} (h : s.frame.alerts = a :: rest) :
    alertBody s = [0#8] ++ beBytes 1 a.code.code ++ beBytes 1 a.cls.code ++ field 2 (a.subject.getD 65535) ++
      field 4 a.raised ++ field 1 a.repeats ++ field 1 s.frame.alerts.length ++ field 2 s.frame.overflow := by
  have hcode : field 1 a.code.code = beBytes 1 a.code.code := by cases a.code <;> rfl
  have hclass : field 1 a.cls.code = beBytes 1 a.cls.code := by cases a.cls <;> rfl
  unfold alertBody
  rw [h]
  dsimp only
  rw [hcode, hclass, subjectCode_eq]
  rfl

theorem reportBody_eq (n : Nat) (s : State) : reportBody n s = (s.shift.ring[n]?).elim (ones 52) reportBytes := by
  rw [reportBody]
  cases s.shift.ring[n]? <;> rfl

theorem spindleBody_eq (n : Nat) (s : State) :
    spindleBody n s = if 1 ≤ n ∧ n ≤ s.mon.spindles.length then spindleBytes n (s.sp n) else ones 36 := by
  rw [spindleBody]
  by_cases h : s.hasSpindle n = true
  · rw [if_pos h, if_pos (range_of_has h)]
  · rw [if_neg h, if_neg fun hrange => h (has_of_range hrange)]

/-! ### The rows -/

/-- A command that reports a body completes with it and changes nothing else (R182). -/
theorem hostRow_report {s : State} (hopen : s.portOpen) {c : Command} {tag k : Nat} {body : List Byte}
    (h : perform c tag s = Effect.report body s) (hk : commandKind c = k) :
    hostRow c tag s = .next { s with port := s.port.completed k tag .done body } := by
  rw [hostRow_open hopen, h, finish_report, hk]

/-- STATUS executes with the command-fault latch set as well (R183). -/
theorem exec_status {s : State} (hreset : s.frame.resetLow = false) (hidle : s.port.executing = none) (tag : Nat) :
    exec (.status tag) s = .next { s with port := s.port.completed 1 tag .done (statusBody s) } := by
  have hpasses : ¬ (s.port.latch.isSome && !passesLatch .status) = true := by simp [passesLatch]
  have hrow : hostRow .status tag s = .next (finish 1 tag (Effect.report (statusBody s) s)) := by
    rw [hostRow, powered_high hreset, hidle, if_neg (by simp), leaveSlot, if_neg hpasses]
    rfl
  exact hrow

theorem exec_readLine {s : State} (hopen : s.portOpen) (tag : Nat) :
    exec (.readLine tag) s = .next { s with
      line := { s.line with stickyQuiet := false }, port := s.port.completed 21 tag .done (lineBody s) } := by
  have hrow : hostRow .readLine tag s = .next (finish 21 tag (doReadLine s)) := hostRow_open hopen ..
  exact hrow

/-- Settles O55. -/
theorem readsReportAndChangeNothing : Obligations.ReadsReportAndChangeNothing := by
  refine ⟨fun s tag hreset hidle => exec_status hreset hidle tag, fun s tag n hopen => ?_,
    fun s => ⟨openReport_unconfigured, fun c first g h hsegments => openReport_spec h hsegments⟩,
    fun s p hstate => peerBytes_spec p hstate, length_spindleBytes, length_reportBytes⟩
  intro reads
  refine ⟨?_, hostRow_report hopen (c := .readStrip n) rfl rfl, hostRow_report hopen (c := .readQueue n) rfl rfl,
    hostRow_report hopen (c := .readEngagement n) rfl rfl, hostRow_report hopen (c := .readSection n) rfl rfl,
    hostRow_report hopen (c := .readBookings) rfl rfl, hostRow_report hopen (c := .readDoff) rfl rfl,
    hostRow_report hopen (c := .readPeers) rfl rfl, hostRow_report hopen (c := .readShift) rfl rfl, ?_, ?_,
    hostRow_report hopen (c := .readInputs) rfl rfl, exec_readLine hopen tag⟩
  · rw [← spindleBody_eq]
    exact hostRow_report hopen (c := .readSpindle n) rfl rfl
  · rw [← reportBody_eq]
    exact hostRow_report hopen (c := .readReport n) rfl rfl
  · have hrow := hostRow_report hopen (c := .readAlert) (tag := tag) (k := 19) rfl rfl
    obtain ⟨alerts, h⟩ : ∃ l, l = s.frame.alerts := ⟨_, rfl⟩
    rw [← h]
    cases alerts with
    | nil => exact hrow.trans (by rw [alertBody_none h.symm, ← h])
    | cons a rest => exact hrow.trans (by rw [alertBody_oldest h.symm, ← h]; rfl)

end Sys2Proof.Machine
end

section
/-! PROOFS. A reception judged, and a good one kept by its source, destination and kind (R163, R167, R168). -/

namespace Sys2Proof.Machine

/-! ### The judgement (R163) -/

/-- A reception is complete: its header, an announced payload of at most 24 bytes, and all of it with its check. -/
def completeBytes (bs : List Byte) : Prop := 4 ≤ bs.length ∧ byteAt bs 3 ≤ 24 ∧ wholeLength bs ≤ bs.length

theorem judgeBytes_complete {bs : List Byte} (h : completeBytes bs) :
    judgeBytes bs = if checkAgrees bs = true then .good else .badCheck := by
  obtain ⟨hheader, hpayload, hwhole⟩ := h
  have hmax : Config.maxPayload = 24 := rfl
  rw [judgeBytes, if_neg (by omega), if_neg (by omega), if_neg (by omega)]

theorem judgeBytes_framing {bs : List Byte} (h : ¬ completeBytes bs) : judgeBytes bs = .framing := by
  have hmax : Config.maxPayload = 24 := rfl
  rw [judgeBytes]
  split
  · rfl
  · split
    · rfl
    · rw [if_pos (by rw [completeBytes] at h; omega)]

theorem checkAgrees_iff (bs : List Byte) : checkAgrees bs = true ↔
    ofBytes ((bs.drop (4 + byteAt bs 3)).take 2) = (crc (bs.take (4 + byteAt bs 3))).toNat := by
  simp [checkAgrees]

theorem hasTrailing_iff (bs : List Byte) (bad more : Bool) :
    hasTrailing bs bad more = true ↔ bad = true ∨ more = true ∨ wholeLength bs < bs.length := by
  simp [hasTrailing, or_assoc]

/-- What is counted for bytes that trail a complete telegram (R163). -/
def trail (bs : List Byte) (bad more : Bool) (s : State) : State :=
  if hasTrailing bs bad more then countLine LineCounters.framed s else s

/-- The state in which a reception is taken: the idle count of its end, and no telegram awaited. -/
def State.ended (bs : List Byte) (bad more : Bool) (s : State) : State :=
  { s with line := { s.line with idle := idleOf bs bad more, ownSent := none } }

theorem received_framing {bs : List Byte} (h : ¬ completeBytes bs) (bad more : Bool) (s : State) :
    received bs bad more s = countLine LineCounters.framed (s.ended bs bad more) := by
  unfold received
  rw [judgeBytes_framing h]
  rfl

theorem received_badCheck {bs : List Byte} (h : completeBytes bs) (hcheck : checkAgrees bs = false) (bad more : Bool) (s : State) :
    received bs bad more s = trail bs bad more (countLine LineCounters.checked (s.ended bs bad more)) := by
  unfold received
  rw [judgeBytes_complete h, hcheck]
  rfl

theorem received_good {bs : List Byte} (h : completeBytes bs) (hcheck : checkAgrees bs = true) (bad more : Bool) (s : State) :
    received bs bad more s = trail bs bad more
      (if s.line.isOwn bs then s.ended bs bad more else keep bs (heard (s.ended bs bad more))) := by
  unfold received
  rw [judgeBytes_complete h, hcheck]
  rfl

theorem isOwn_iff (l : Line) (bs : List Byte) : l.isOwn bs = true ↔ l.ownSent = some (bs.take (wholeLength bs)) := by
  simp [Line.isOwn]

/-! ### A good telegram from another station, or under this one's number (R167, R168) -/

theorem ofByte0_isDoff (b : Nat) : (∃ k, Kind.ofByte0 b = some k ∧ k.isDoff = true) ↔ 2 ≤ b ∧ b ≤ 5 := by
  constructor
  · rintro ⟨k, hk, hdoff⟩
    have hb : k.byte0 = b := by simpa using List.find?_some hk
    cases k <;> simp_all [Kind.isDoff, Kind.byte0] <;> omega
  · rintro ⟨hlow, hhigh⟩
    have hcases : b = 2 ∨ b = 3 ∨ b = 4 ∨ b = 5 := by omega
    rcases hcases with rfl | rfl | rfl | rfl
    · exact ⟨.doffClaim, rfl, rfl⟩
    · exact ⟨.doffState, rfl, rfl⟩
    · exact ⟨.doffDone, rfl, rfl⟩
    · exact ⟨.doffWithdraw, rfl, rfl⟩

theorem duplicateStation_doff {bs : List Byte} {s : State} (hdoff : 2 ≤ byteAt bs 0 ∧ byteAt bs 0 ≤ 5)
    (hhere : byteAt bs 2 = 0 ∨ byteAt bs 2 = s.cfg.station) :
    duplicateStation bs s = dropDoff (raiseAlert .duplicateStation .stop (some s.cfg.station) s) := by
  obtain ⟨k, hk, hkind⟩ := (ofByte0_isDoff _).2 hdoff
  unfold duplicateStation
  rw [hk]
  exact if_pos ⟨hkind, hhere⟩

theorem duplicateStation_other {bs : List Byte} {s : State}
    (h : ¬ ((2 ≤ byteAt bs 0 ∧ byteAt bs 0 ≤ 5) ∧ (byteAt bs 2 = 0 ∨ byteAt bs 2 = s.cfg.station))) :
    duplicateStation bs s = raiseAlert .duplicateStation .stop (some s.cfg.station) s := by
  unfold duplicateStation
  cases hk : Kind.ofByte0 (byteAt bs 0) with
  | none => rfl
  | some k => exact if_neg fun hg => h ⟨(ofByte0_isDoff _).1 ⟨k, hk, hg.1⟩, hg.2⟩

theorem keep_elsewhere {bs : List Byte} {s : State} (hsource : byteAt bs 1 ≠ s.cfg.station)
    (hhere : ¬ (byteAt bs 2 = 0 ∨ byteAt bs 2 = s.cfg.station)) : keep bs s = s := by
  rw [keep, if_neg hsource, if_neg hhere]

theorem keep_unknown {bs : List Byte} {s : State} (hsource : byteAt bs 1 ≠ s.cfg.station)
    (hhere : byteAt bs 2 = 0 ∨ byteAt bs 2 = s.cfg.station) (h : telegramOf bs = none) :
    keep bs s = countLine LineCounters.unknowned s := by
  unfold keep
  rw [if_neg hsource, if_pos hhere, h]

theorem keep_overrun {bs : List Byte} {s : State} {t : Telegram} (hsource : byteAt bs 1 ≠ s.cfg.station)
    (hhere : byteAt bs 2 = 0 ∨ byteAt bs 2 = s.cfg.station) (h : telegramOf bs = some t) (hfull : 4 ≤ s.line.rx.length) :
    keep bs s = countLine LineCounters.overran s := by
  unfold keep
  rw [if_neg hsource, if_pos hhere, h]
  exact if_pos hfull

/-- The receive buffer after a telegram has joined it (R167). -/
def kept (t : Telegram) (s : State) : State :=
  { countLine LineCounters.took s with line := { (countLine LineCounters.took s).line with
    rx := s.line.rx ++ [{ tel := t, byPiecing := false, byCreel := false, byDoff := false }] } }

theorem keep_joins {bs : List Byte} {s : State} {t : Telegram} (hsource : byteAt bs 1 ≠ s.cfg.station)
    (hhere : byteAt bs 2 = 0 ∨ byteAt bs 2 = s.cfg.station) (h : telegramOf bs = some t) (hroom : s.line.rx.length < 4) :
    keep bs s = kept t s := by
  have hnot : ¬ Config.receiveCapacity ≤ s.line.rx.length := Nat.not_le.2 hroom
  unfold keep
  rw [if_neg hsource, if_pos hhere, h]
  exact if_neg hnot

/-! ### The row (R163, R167) -/

/-- The counters with one framing error more for what trails a complete telegram (R163). -/
def trailed (bs : List Byte) (bad more : Bool) (c : LineCounters) : LineCounters :=
  if bad = true ∨ more = true ∨ wholeLength bs < bs.length then { c with framing := min 65535 (c.framing + 1) } else c

theorem trail_eq (bs : List Byte) (bad more : Bool) (s : State) : trail bs bad more s =
    { s with line := { s.line with counters := trailed bs bad more s.line.counters } } := by
  rw [trail]
  by_cases h : hasTrailing bs bad more = true
  · rw [if_pos h, trailed, if_pos ((hasTrailing_iff ..).1 h)]
    rfl
  · rw [if_neg h, trailed, if_neg (mt (hasTrailing_iff ..).2 h)]

/-- A good reception that is not this station's own: heard, kept by R167, and what trails it counted. -/
theorem received_heard {bs : List Byte} (h : completeBytes bs) (hcheck : checkAgrees bs = true) {s : State}
    (hown : s.line.ownSent ≠ some (bs.take (wholeLength bs))) (bad more : Bool) :
    received bs bad more s = trail bs bad more (keep bs (heard (s.ended bs bad more))) := by
  rw [received_good h hcheck, if_neg (mt (isOwn_iff ..).1 hown)]

theorem received_duplicate {bs : List Byte} (h : completeBytes bs) (hcheck : checkAgrees bs = true) {s : State}
    (hown : s.line.ownSent ≠ some (bs.take (wholeLength bs))) (hsource : byteAt bs 1 = s.cfg.station) (bad more : Bool) :
    received bs bad more s = trail bs bad more (duplicateStation bs (heard (s.ended bs bad more))) := by
  rw [received_heard h hcheck hown, keep, if_pos (show byteAt bs 1 = (heard (s.ended bs bad more)).cfg.station from hsource)]

/-- Settles O47. -/
theorem receptionJudgedAndKept : Obligations.ReceptionJudgedAndKept := by
  intro s bs bad more hw at_ size complete good trailing own c framing framed quiet here heard_
  have hexec : exec (.telegramReceived bs bad more) s = .next (received bs bad more s) := inRunning_works hw _
  rw [hexec]
  refine ⟨fun h => ?_, fun h hgood => ?_, fun h hgood hown => ?_, fun h hgood hown => ⟨fun hsource => ?_,
    fun hsource hhere => ?_, fun hsource hhere hnone => ?_, fun t hsource hhere hread hfull => ?_,
    fun t hsource hhere hread hroom => ?_⟩⟩
  · rw [received_framing h]
    rfl
  · have hcheck : checkAgrees bs = false := by simpa using mt (checkAgrees_iff bs).1 hgood
    rw [received_badCheck h hcheck, trail_eq]
    rfl
  · rw [received_good h ((checkAgrees_iff bs).2 hgood), if_pos ((isOwn_iff ..).2 hown), trail_eq]
    rfl
  · rw [received_duplicate h ((checkAgrees_iff bs).2 hgood) hown hsource, trail_eq]
    by_cases hdoff : (2 ≤ at_ 0 ∧ at_ 0 ≤ 5) ∧ here
    · rw [duplicateStation_doff (s := heard (s.ended bs bad more)) hdoff.1 hdoff.2, if_pos hdoff]
      rfl
    · rw [duplicateStation_other (s := heard (s.ended bs bad more)) hdoff, if_neg hdoff]
      rfl
  · rw [received_heard h ((checkAgrees_iff bs).2 hgood) hown, trail_eq,
      keep_elsewhere (s := heard (s.ended bs bad more)) hsource hhere]
    rfl
  · rw [received_heard h ((checkAgrees_iff bs).2 hgood) hown, trail_eq,
      keep_unknown (s := heard (s.ended bs bad more)) hsource hhere hnone]
    rfl
  · rw [received_heard h ((checkAgrees_iff bs).2 hgood) hown, trail_eq,
      keep_overrun (s := heard (s.ended bs bad more)) hsource hhere hread hfull]
    rfl
  · rw [received_heard h ((checkAgrees_iff bs).2 hgood) hown, trail_eq,
      keep_joins (s := heard (s.ended bs bad more)) hsource hhere hread hroom]
    rfl

end Sys2Proof.Machine
end

section
/-! PROOFS. The buffer's turn, gaining the line, its loss, a telegram sent to the end, and the quiet watch (R161 to R169). -/

namespace Sys2Proof.Machine

/-! ### The oldest telegram of the buffer (R167) -/

/-- The state whose receive buffer holds `rest`. -/
def State.setRx (rest : List Received) (s : State) : State := { s with line := { s.line with rx := rest } }

theorem handOver_takes {k : Kind} {take : Telegram → State → State} {s : State} {r : Received} {rest : List Received}
    (h : s.line.rx = r :: rest) (hk : r.tel.kind = k) : handOver k take s = take r.tel (s.setRx rest) := by
  unfold handOver popReceived
  rw [h]
  exact if_pos hk

theorem takeRestart_takes {taken : Received → Bool} {mark : Received → Received} {take : Nat → State → State} {s : State}
    {r : Received} {rest : List Received} (h : s.line.rx = r :: rest) (hk : r.tel.kind = .stationRestart)
    (htaken : taken r = false) : takeRestart taken mark take s =
      take r.tel.source (s.setRx (if (mark r).done then rest else mark r :: rest)) := by
  unfold takeRestart
  rw [h]
  exact if_pos ⟨hk, htaken⟩

theorem passOver_eq {s : State} {r : Received} {rest : List Received} (h : s.line.rx = r :: rest) :
    passOver s = if r.tel.kind.passedOver = true then s.setRx rest else s := by
  unfold passOver popReceived
  rw [h]
  rfl

theorem passOver_empty {s : State} (h : s.line.rx = []) : passOver s = s := by
  unfold passOver
  rw [h]

theorem passedOver_iff (k : Kind) : k.passedOver = true ↔ k ∈
    [.pieceCall, .robotAccept, .robotDecline, .workOrder, .workCancel, .robotRelease, .rovingDue, .bookingAck] := by
  cases k <;> decide

/-! ### Gaining the line (R164) -/

theorem gainLine_starts {s : State} {o : Outgoing} {rest : List Outgoing} (hidle : s.line.sending = none)
    (hout : s.line.out = o :: rest) (hgap : gapOf s.cfg.station o ≤ s.line.idle) :
    gainLine s = { s with line := { s.line with sending := some o, out := rest } } := by
  unfold gainLine
  rw [hidle, hout]
  exact if_pos hgap

theorem gainLine_waits {s : State} (h : s.line.sending ≠ none ∨ ∀ o ∈ s.line.out.head?, s.line.idle < gapOf s.cfg.station o) :
    gainLine s = s := by
  unfold gainLine
  cases hsending : s.line.sending with
  | some o => rfl
  | none =>
    cases hout : s.line.out with
    | nil => rfl
    | cons o rest =>
      have hgap : s.line.idle < gapOf s.cfg.station o :=
        (h.resolve_left (fun hne => hne hsending)) o (by rw [hout]; rfl)
      exact if_neg (Nat.not_le.2 hgap)

/-! ### The end of a line restart (R171) -/

/-- The command port after a telegram of kind `k` has ended: a waiting LINE_RESTART completes at a STATION_RESTART alone. -/
def Port.afterTelegram (k : Kind) (said : Nat) (p : Port) : Port :=
  match p.executing with
  | some (.lineRestart tag) =>
    if k = .stationRestart then ({ p with executing := none } : Port).completed 7 tag .done (field 1 said) else p
  | _ => p

theorem completeRestart_eq (said : Nat) (s : State) :
    completeRestart said s = { s with port := s.port.afterTelegram .stationRestart said } := by
  unfold completeRestart Port.afterTelegram
  cases hexecuting : s.port.executing with
  | none => rfl
  | some e =>
    cases e with
    | lineRestart tag => exact (respond_eq 7 tag .done (field 1 said) _).trans rfl
    | closeShift tag => rfl

theorem afterTelegram_other {k : Kind} (h : k ≠ .stationRestart) (said : Nat) (p : Port) : p.afterTelegram k said = p := by
  unfold Port.afterTelegram
  cases p.executing with
  | none => rfl
  | some e =>
    cases e with
    | lineRestart tag => exact if_neg h
    | closeShift tag => rfl

theorem endOfRestart_eq (o : Outgoing) (said : Nat) (s : State) :
    endOfRestart o said s = { s with port := s.port.afterTelegram o.tel.kind said } := by
  by_cases hk : o.tel.kind = .stationRestart
  · rw [endOfRestart, if_pos hk, completeRestart_eq, hk]
  · rw [endOfRestart, if_neg hk, afterTelegram_other hk]

/-! ### A lost attempt (R165) -/

/-- The line after a lost attempt: nothing is being sent, and one collision more is counted. -/
def Line.afterLoss (idle : Nat) (l : Line) : Line :=
  { l with
    sending := none, idle := idle
    counters := { l.counters with collisions := min 65535 (l.counters.collisions + 1) } }

/-- What becomes of a telegram whose attempt is lost: back to its place, or given up at the sixteenth. -/
def afterCollision (o : Outgoing) (s : State) : State :=
  if o.collisions < 15 then returnToQueue { o with collisions := o.collisions + 1 } s
  else endOfRestart { o with collisions := o.collisions + 1 } 1 (telegramDropped s)

theorem collide_eq (o : Outgoing) (idle : Nat) (s : State) :
    collide o { s with line := { s.line with idle := idle } } = afterCollision o { s with line := s.line.afterLoss idle } := by
  unfold collide afterCollision
  exact if_congr (show o.collisions + 1 < 16 ↔ o.collisions < 15 by omega) rfl rfl

theorem returnToQueue_superseded {o : Outgoing} {s : State} (h : ∃ q ∈ s.line.out, q.tel.sameKey o.tel = true) :
    returnToQueue o s = s := if_pos (List.any_eq_true.2 h)

theorem returnToQueue_room {o : Outgoing} {s : State} (h : ∀ q ∈ s.line.out, q.tel.sameKey o.tel = false)
    (hroom : s.line.out.length < 8) :
    returnToQueue o s = { s with line := { s.line with out := insertOutgoing o s.line.out } } := by
  rw [returnToQueue, if_neg (by simpa using h), if_pos hroom]

theorem returnToQueue_full {o : Outgoing} {s : State} (h : ∀ q ∈ s.line.out, q.tel.sameKey o.tel = false)
    (hfull : 8 ≤ s.line.out.length) : returnToQueue o s = joinLine o.tel s := by
  rw [returnToQueue, if_neg (by simpa using h), if_neg (Nat.not_lt.2 hfull)]

theorem afterCollision_superseded {o : Outgoing} {s : State} (hfew : o.collisions < 15)
    (h : ∃ q ∈ s.line.out, q.tel.sameKey o.tel = true) : afterCollision o s = s :=
  (if_pos hfew).trans (returnToQueue_superseded (o := { o with collisions := o.collisions + 1 }) h)

theorem afterCollision_room {o : Outgoing} {s : State} (hfew : o.collisions < 15)
    (h : ∀ q ∈ s.line.out, q.tel.sameKey o.tel = false) (hroom : s.line.out.length < 8) : afterCollision o s =
      { s with line := { s.line with out := insertOutgoing { o with collisions := o.collisions + 1 } s.line.out } } :=
  (if_pos hfew).trans (returnToQueue_room (o := { o with collisions := o.collisions + 1 }) h hroom)

theorem afterCollision_full {o : Outgoing} {s : State} (hfew : o.collisions < 15)
    (h : ∀ q ∈ s.line.out, q.tel.sameKey o.tel = false) (hfull : 8 ≤ s.line.out.length) :
    afterCollision o s = joinLine o.tel s :=
  (if_pos hfew).trans (returnToQueue_full (o := { o with collisions := o.collisions + 1 }) h hfull)

/-- The idle count when bit `n` of the telegram is lost, by the level driven at it (R161). -/
def idleAtBit (idle : Nat) (bits : List Bool) (n : Nat) (driven : Bool) : Nat :=
  if driven then 0 else min 255 (countIdle idle (bits.take n) + 1)

theorem exec_collision {s : State} (hw : s.works) {o : Outgoing} (hsending : s.line.sending = some o) {n : Nat} {driven : Bool}
    (hbit : (wireBits o.tel.bytes)[n]? = some driven) : exec (.collision n) s =
      .next (afterCollision o { s with
        line := s.line.afterLoss (idleAtBit s.line.idle (wireBits o.tel.bytes) n driven) }) := by
  have hrow : exec (.collision n) s = execCollision n s := rfl
  rw [hrow, execCollision, inRunning_works hw, hsending]
  dsimp only
  rw [hbit]
  dsimp only
  rw [collide_eq, idleAtLoss_eq]
  rfl

theorem exec_collision_beyond {s : State} (hw : s.works) {o : Outgoing} (hsending : s.line.sending = some o) {n : Nat}
    (hbit : 10 * o.tel.bytes.length ≤ n) : exec (.collision n) s = .next s := by
  have hnone : (wireBits o.tel.bytes)[n]? = none := List.getElem?_eq_none (by rw [wireBits_length]; exact hbit)
  have hrow : exec (.collision n) s = execCollision n s := rfl
  rw [hrow, execCollision, inRunning_works hw, hsending]
  dsimp only
  rw [hnone]

theorem exec_collision_idle {s : State} (hw : s.works) (hsending : s.line.sending = none) (n : Nat) :
    exec (.collision n) s = .next s := by
  have hrow : exec (.collision n) s = execCollision n s := rfl
  rw [hrow, execCollision, inRunning_works hw, hsending]

/-! ### Sent to the end (R165) -/

theorem exec_telegramSent {s : State} (hw : s.works) {o : Outgoing} (hsending : s.line.sending = some o) :
    exec .telegramSent s = .next { s with
      line := { s.line with
        sending := none, idle := idleAfter o.tel.bytes, ownSent := some o.tel.bytes
        counters := { s.line.counters with sent := min 65535 (s.line.counters.sent + 1) } }
      port := s.port.afterTelegram o.tel.kind 0 } := by
  have hrow : exec .telegramSent s = execTelegramSent s := rfl
  rw [hrow, execTelegramSent, inRunning_works hw, hsending]
  dsimp only
  rw [sentWhole, endOfRestart_eq]
  rfl

theorem exec_telegramSent_idle {s : State} (hw : s.works) (hsending : s.line.sending = none) :
    exec .telegramSent s = .next s := by
  have hrow : exec .telegramSent s = execTelegramSent s := rfl
  rw [hrow, execTelegramSent, inRunning_works hw, hsending]

/-! ### The rows -/

/-- Settles O50. -/
theorem lineGainedLostSentAndQuiet : Obligations.LineGainedLostSentAndQuiet := by
  intro s hw c restarted
  have hgain : ∀ bits, exec (.lineGained bits) s =
      .next (gainLine { s with line := { s.line with idle := min 255 (s.line.idle + bits) } }) := fun bits => inRunning_works hw _
  refine ⟨fun bits => ⟨fun o rest hidle hout hgap => ?_, fun h => ?_⟩, fun n => ⟨fun h => exec_collision_idle hw h n,
    fun o h hbit => exec_collision_beyond hw h hbit, ?_⟩, exec_telegramSent_idle hw, fun o h => exec_telegramSent hw h,
    fun r rest h => ?_, fun h => ?_, ?_⟩
  · rw [hgain, gainLine_starts (s := { s with line := { s.line with idle := min 255 (s.line.idle + bits) } }) hidle hout hgap]
  · rw [hgain, gainLine_waits (s := { s with line := { s.line with idle := min 255 (s.line.idle + bits) } }) h]
  · intro o driven hsending hbit lost
    have hexec : exec (.collision n) s = .next (afterCollision o { s with line := lost }) := exec_collision hw hsending hbit
    refine ⟨fun hfew hnewer => ?_, fun hfew hnone hroom => ?_, fun hfew hnone hfull => ?_, fun hmany => ?_⟩
    · rw [hexec, afterCollision_superseded (s := { s with line := lost }) hfew hnewer]
    · rw [hexec, afterCollision_room (s := { s with line := lost }) hfew hnone hroom]
    · rw [hexec, afterCollision_full (s := { s with line := lost }) hfew hnone hfull]
    · rw [hexec, afterCollision, if_neg (Nat.not_lt.2 hmany), endOfRestart_eq]
      exact ⟨_, rfl, ⟨rfl, fun b hb => by cases b <;> simp_all [Block.same, telegramDropped]⟩, rfl, alerted_raise .., rfl⟩
  · have hrow : exec .telegramPassedOver s = .next (passOver s) := inRunning_works hw _
    rw [hrow, passOver_eq h]
    simp only [passedOver_iff]
    rfl
  · have hrow : exec .telegramPassedOver s = .next (passOver s) := inRunning_works hw _
    rw [hrow, passOver_empty h]
  · exact inRunning_works hw _

end Sys2Proof.Machine
end

section
/-! PROOFS. Shift marks: ignored, refused, or the beginning of a close; SHIFT_TOTALS kept (R150 to R152, R158). -/

namespace Sys2Proof.Machine

/-- The shift counter after a close has begun (R152). -/
def State.begun (number : Nat) (waiting : Bool) (s : State) : ShiftCounter :=
  { s.shift with
    opened := Shift.opened number s.del.seconds s.del.count (s.del.active.map (fun a => (a.id, a.tex)))
      (number != (s.shift.opened.number + 1) % 65536)
    closing := some
      { shift := { s.shift.opened with
          counts := some (s.mon.spindles.countP (·.rogueMark), s.mon.spindles.countP (·.lazy))
          closedAt := some (s.del.seconds, s.del.count) }
        sweep := 1, waiting := waiting } }

theorem beginClose_eq (number : Nat) (waiting : Bool) (s : State) : beginClose number waiting s = { s with
    shift := s.begun number waiting
    frame := if (number != (s.shift.opened.number + 1) % 65536) = true then s.frame.raised .shiftGap .note none s.del.seconds
      else s.frame } := by
  unfold beginClose
  dsimp only [nextShift]
  split <;> rfl

theorem alerted_enqueue {s : State} {code : AlertCode} {subject : Option Nat} (h : alerted code subject s) (kind : Kind) (dest : Nat)
    (payload : List Byte) : alerted code subject (enqueue kind dest payload s) := by
  unfold enqueue joinLine telegramDropped
  split
  · dsimp only
    split
    · exact alerted_raise_of (s := { s with line := _ }) h ..
    · exact h
  · exact h

theorem doCloseShift_open {s : State} (hw : s.works) {tag number : Nat} (h : number = s.shift.opened.number) :
    doCloseShift tag number s = { Effect.done s with alreadyOpen := true } := by
  rw [doCloseShift, whileRunning_works (running_of_works hw), if_pos h]

theorem doCloseShift_busy {s : State} (hw : s.works) {tag number : Nat} (h : number ≠ s.shift.opened.number)
    (hclosing : s.shift.closing ≠ none) : doCloseShift tag number s = Effect.refuse .busy s := by
  rw [doCloseShift, whileRunning_works (running_of_works hw), if_neg h, if_pos (Option.isSome_iff_ne_none.2 hclosing)]

/-- The state after the host's mark has begun a close: its CLOSE_SHIFT executing, a SHIFT_MARK handed over. -/
def closeBegun (tag number : Nat) (s : State) : State :=
  let u := enqueue .shiftMark 0 (field 2 number) (beginClose number true s)
  { u with port := { u.port with executing := some (.closeShift tag) } }

theorem doCloseShift_begins {s : State} (hw : s.works) {tag number : Nat} (h : number ≠ s.shift.opened.number)
    (hclosing : s.shift.closing = none) : doCloseShift tag number s =
      { state := closeBegun tag number s, result := none, alreadyOpen := false, body := [] } := by
  rw [doCloseShift, whileRunning_works (running_of_works hw), if_neg h, if_neg (by simp [hclosing])]
  rfl

theorem takeShiftMark_open {t : Telegram} {s : State} (h : t.num 0 2 = s.shift.opened.number) : takeShiftMark t s = s :=
  if_pos h

theorem takeShiftMark_refused {t : Telegram} {s : State} (h : t.num 0 2 ≠ s.shift.opened.number)
    (hclosing : s.shift.closing ≠ none) : takeShiftMark t s =
      { s with shift := { s.shift with refused := min 65535 (s.shift.refused + 1) } } := by
  rw [takeShiftMark, if_neg h, if_pos (Option.isSome_iff_ne_none.2 hclosing)]
  rfl

theorem takeShiftMark_begins {t : Telegram} {s : State} (h : t.num 0 2 ≠ s.shift.opened.number)
    (hclosing : s.shift.closing = none) : takeShiftMark t s = beginClose (t.num 0 2) false s := by
  rw [takeShiftMark, if_neg h, if_neg (by simp [hclosing])]

/-- What the beginning of a close by the host changes, and what it hands over. -/
theorem closeBegun_effect (tag number : Nat) (s : State) :
    onlyIn [.shift, .line, .frame, .port] s (closeBegun tag number s) ∧
    (closeBegun tag number s).port = { s.port with executing := some (.closeShift tag) } ∧
    (closeBegun tag number s).shift = s.begun number true ∧
    (closeBegun tag number s).line = (enqueue .shiftMark 0 (field 2 number) s).line ∧
    ((number != (s.shift.opened.number + 1) % 65536) = true → alerted .shiftGap none (closeBegun tag number s)) := by
  rw [closeBegun, beginClose_eq]
  refine ⟨⟨by simp, fun b hb => by cases b <;> simp_all [Block.same]⟩, by simp, by simp,
    enqueue_line_congr (by rfl) (by rfl) .., fun hgap => ?_⟩
  rw [if_pos hgap]
  have hraised : alerted .shiftGap none
      { s with shift := s.begun number true, frame := s.frame.raised .shiftGap .note none s.del.seconds } :=
    alerted_raise .shiftGap .note none s
  exact alerted_enqueue hraised ..

theorem exec_shiftMark {s : State} (hw : s.works) {r : Received} {rest : List Received} (h : s.line.rx = r :: rest)
    (hk : r.tel.kind = .shiftMark) : exec .shiftMark s = .next (takeShiftMark r.tel (s.setRx rest)) := by
  have hrow : exec .shiftMark s = .next (handOver .shiftMark takeShiftMark s) := inRunning_works hw _
  rw [hrow, handOver_takes h hk]

theorem exec_shiftTotals {s : State} (hw : s.works) {r : Received} {rest : List Received} (h : s.line.rx = r :: rest)
    (hk : r.tel.kind = .shiftTotals) : exec .shiftTotals s = .next (takeShiftTotals r.tel (s.setRx rest)) := by
  have hrow : exec .shiftTotals s = .next (handOver .shiftTotals takeShiftTotals s) := inRunning_works hw _
  rw [hrow, handOver_takes h hk]

/-- Settles O45. -/
theorem shiftMarksBeginACloseOrAreIgnored : Obligations.ShiftMarksBeginACloseOrAreIgnored := by
  intro s hw old gap begun
  have hbegun : ∀ number waiting, begun number waiting = s.begun number waiting := fun _ _ => rfl
  refine ⟨fun tag number hopen => ⟨fun h => ?_, fun h hclosing => ?_, fun h hclosing => ?_⟩, fun r rest h => ?_⟩
  · have hrow : exec (.closeShift tag number) s = .next (finish 31 tag (doCloseShift tag number s)) := hostRow_open hopen ..
    rw [hrow, doCloseShift_open hw h]
    rfl
  · exact hostRow_refused hopen (c := .closeShift number) (doCloseShift_busy hw h hclosing) rfl
  · have hrow : exec (.closeShift tag number) s = .next (finish 31 tag (doCloseShift tag number s)) := hostRow_open hopen ..
    rw [hrow, doCloseShift_begins hw h hclosing, hbegun]
    exact ⟨_, rfl, closeBegun_effect tag number s⟩
  · intro u number
    refine ⟨fun hk => ?_, fun hk => exec_shiftTotals hw h hk⟩
    rw [exec_shiftMark hw h hk]
    refine ⟨fun hn => ?_, fun hn hclosing => ?_, fun hn hclosing => ?_⟩
    · rw [takeShiftMark_open (s := s.setRx rest) hn]
      rfl
    · rw [takeShiftMark_refused (s := s.setRx rest) hn hclosing]
      rfl
    · rw [takeShiftMark_begins (s := s.setRx rest) hn hclosing, beginClose_eq]
      rfl

end Sys2Proof.Machine
end

section
/-! PROOFS. The sweep of a close: one record's close step, and the report behind the last record (R153, R155). -/

namespace Sys2Proof.Machine

/-! ### What one event after another leaves alone -/

theorem Block.same_trans {s t u : State} {b : Block} (h : b.same s t) (h' : b.same t u) : b.same s u := by
  cases b <;> exact h'.trans h

theorem onlyIn_trans {bs : List Block} {s t u : State} (h : onlyIn bs s t) (h' : onlyIn bs t u) : onlyIn bs s u :=
  ⟨h'.1.trans h.1, fun b hb => Block.same_trans (h.2 b hb) (h'.2 b hb)⟩

theorem onlyIn_mono {bs cs : List Block} {s t : State} (h : onlyIn bs s t) (hsub : bs ⊆ cs) : onlyIn cs s t :=
  ⟨h.1, fun b hb => h.2 b fun hmem => hb (hsub hmem)⟩

/-! ### Handing over beside the line and the frame -/

/-- An enqueue reads the line, the frame's alerts, the part and the present second alone. -/
theorem enqueue_sends {s t : State} (hline : t.line = s.line) (hframe : t.frame = s.frame) (hport : t.port = s.port)
    (hdel : t.del = s.del) (kind : Kind) (dest : Nat) (payload : List Byte) :
    sends kind dest payload s (enqueue kind dest payload t) := by
  refine ⟨enqueue_line_congr hline hport .., ?_⟩
  unfold enqueue joinLine telegramDropped
  rw [running_of_port hport, cfg_of_port hport, hline]
  split
  · dsimp only
    split
    · simp only [raiseAlert, State.now, hframe, hdel]
    · exact hframe
  · exact hframe

/-- A telegram handed over after a change that leaves the line, the frame, the part and the present second. -/
theorem sends_congr {s s' t : State} {kind : Kind} {dest : Nat} {payload : List Byte} (hline : s'.line = s.line)
    (hframe : s'.frame = s.frame) (hport : s'.port = s.port) (hdel : s'.del = s.del) (h : sends kind dest payload s' t) :
    sends kind dest payload s t := by
  obtain ⟨hline', hframe'⟩ := enqueue_sends hline hframe hport hdel kind dest payload
  exact ⟨h.1.trans hline', h.2.trans hframe'⟩


/-! ### The close step of one record (R153) -/

/-- The pulses from a record's booked-to to the mark. -/
def Spindle.upTo (mark : Nat) (r : Spindle) : Nat := r.bookedTo.elim 0 (fun b => mark - b)

/-- A record after its close step. -/
def Spindle.swept (mark tag : Nat) (r : Spindle) : Spindle :=
  { r with
    bookedTo := r.bookedTo.map (fun b => max b mark)
    lostSinceBase := if r.cause.isSome ∧ r.upTo mark ≠ 0 then min 281474976710655 (r.lostSinceBase + r.upTo mark)
      else r.lostSinceBase
    shiftBreaks := 0, shiftTag := tag }

theorem Spindle.closed_eq (mark tag : Nat) (r : Spindle) : r.closed mark tag = (r.upTo mark, r.swept mark tag) := by
  unfold Spindle.closed Spindle.swept Spindle.upTo
  cases hb : r.bookedTo with
  | none => simp
  | some b =>
    by_cases hlt : b < mark
    · have hsome : mark - b ≠ 0 := by omega
      have hmax : max b mark = mark := by omega
      cases hc : r.cause with
      | none => simp [hlt, Spindle.lose_none, hmax, hc]
      | some c => simp [hlt, Spindle.lose_some, hmax, hc]; omega
    · have hzero : mark - b = 0 := by omega
      have hmax : max b mark = b := by omega
      simp [hlt, hzero, hmax]

/-- The state after the close step of the record, unless its tag is the open shift's. -/
def State.swept (i mark : Nat) (cl : Closing) (s : State) : State :=
  if (s.sp i).shiftTag = s.shift.opened.number then s
  else { setSp i ((s.sp i).swept mark s.shift.opened.number) s with
    shift := { s.shift with closing := some { cl with shift := cl.shift.book (s.sp i).cause ((s.sp i).upTo mark) } } }

theorem touch_eq {s : State} {cl : Closing} (h : s.shift.closing = some cl) {seconds mark : Nat}
    (hmark : cl.shift.closedAt = some (seconds, mark)) (i : Nat) : touch i s = s.swept i mark cl := by
  unfold touch
  rw [h]
  dsimp only
  rw [State.swept]
  refine if_congr Iff.rfl rfl ?_
  unfold closeStep
  rw [hmark]
  dsimp only
  rw [Spindle.closed_eq]
  rfl

/-- The closing shift after the record's close step. -/
def State.sweptShift (i mark : Nat) (cl : Closing) (s : State) : Shift :=
  if (s.sp i).shiftTag ≠ s.shift.opened.number then cl.shift.book (s.sp i).cause ((s.sp i).upTo mark) else cl.shift

theorem swept_effect {s : State} {cl : Closing} (h : s.shift.closing = some cl) (i mark : Nat) :
    (s.swept i mark cl).shift = { s.shift with closing := some { cl with shift := s.sweptShift i mark cl } } ∧
    onlyIn [.mon, .shift] s (s.swept i mark cl) ∧
    (s.swept i mark cl).mon.spindles.length = s.mon.spindles.length := by
  by_cases hdue : (s.sp i).shiftTag = s.shift.opened.number
  · rw [State.swept, State.sweptShift, if_pos hdue, if_neg (not_not.2 hdue)]
    refine ⟨?_, ⟨rfl, fun b _ => by cases b <;> rfl⟩, rfl⟩
    cases hs : s.shift
    rw [hs] at h
    exact congrArg (fun c => ShiftCounter.mk _ c _ _ _) h
  · rw [State.swept, State.sweptShift, if_neg hdue, if_pos hdue]
    exact ⟨rfl, ⟨rfl, fun b hb => by cases b <;> simp_all [Block.same, setSp]⟩, setSp_spindles_length ..⟩

theorem swept_sp {s : State} {i : Nat} (hi : s.hasSpindle i = true) (mark : Nat) (cl : Closing) :
    (s.swept i mark cl).sp i = (if (s.sp i).shiftTag ≠ s.shift.opened.number then
      (s.sp i).swept mark s.shift.opened.number else s.sp i) ∧
    ∀ j, j ≠ i → (s.swept i mark cl).sp j = s.sp j := by
  by_cases hdue : (s.sp i).shiftTag = s.shift.opened.number
  · rw [State.swept, if_pos hdue, if_neg (not_not.2 hdue)]
    exact ⟨rfl, fun _ _ => rfl⟩
  · rw [State.swept, if_neg hdue, if_pos hdue]
    exact ⟨sp_setSp_self i _ s (range_of_has hi).1 (range_of_has hi).2, fun j hj => sp_setSp_ne i j _ s hj.symm⟩

/-! ### The sweep moves on, or ends (R155) -/

/-- The closing shift with its position at the next record. -/
def Closing.next (sh : Shift) (cl : Closing) : Closing := { cl with shift := sh, sweep := cl.sweep + 1 }

/-- The state after the close step with the position at the next record. -/
def State.moved (mark : Nat) (cl : Closing) (s : State) : State :=
  { s.swept cl.sweep mark cl with
    shift := { s.shift with closing := some (cl.next (s.sweptShift cl.sweep mark cl)) } }

theorem sweepOne_eq {s : State} {cl : Closing} (h : s.shift.closing = some cl) {seconds mark : Nat}
    (hmark : cl.shift.closedAt = some (seconds, mark)) : sweepOne s =
      if s.mon.spindles.length < cl.sweep + 1 then sweepEnd (cl.next (s.sweptShift cl.sweep mark cl)) (s.moved mark cl)
      else s.moved mark cl := by
  obtain ⟨hshift, -, hlength⟩ := swept_effect h cl.sweep mark
  unfold sweepOne
  rw [h]
  dsimp only
  rw [touch_eq h hmark, hshift]
  dsimp only
  rw [hlength]
  rfl

/-- The command port after the close has ended: a waiting CLOSE_SHIFT completes (R155). -/
def Port.afterClose (closed : Nat) (opened : Shift) (p : Port) : Port :=
  match p.executing with
  | some (.closeShift tag) => ({ p with executing := none } : Port).completed 31 tag .done (closedBody closed opened)
  | _ => p

theorem completeClose_eq (closed : Nat) (s : State) :
    completeClose closed s = { s with port := s.port.afterClose closed s.shift.opened } := by
  unfold completeClose Port.afterClose
  cases hexecuting : s.port.executing with
  | none => rfl
  | some e =>
    cases e with
    | closeShift tag => exact (respond_eq 31 tag .done (closedBody closed s.shift.opened) _).trans rfl
    | lineRestart tag => rfl

/-- What the end of the sweep leaves: the report at the head of the ring, no close, SHIFT_TOTALS handed over. -/
theorem sweepEnd_effect (cl : Closing) (s : State) :
    onlyIn [.shift, .line, .frame, .port] s (sweepEnd cl s) ∧
    (sweepEnd cl s).shift =
      { s.shift with ring := (reportOf s.cfg cl.shift :: s.shift.ring).take 4, closing := none } ∧
    sends .shiftTotals 0 (totalsPayload (reportOf s.cfg cl.shift)) s (sweepEnd cl s) ∧
    (sweepEnd cl s).port = if cl.waiting then s.port.afterClose cl.shift.number s.shift.opened else s.port := by
  have hsends := enqueue_sends (s := s)
    (t := { s with shift := { s.shift with ring := (reportOf s.cfg cl.shift :: s.shift.ring).take 4, closing := none } })
    rfl rfl rfl rfl .shiftTotals 0 (totalsPayload (reportOf s.cfg cl.shift))
  unfold sweepEnd
  dsimp only
  cases hwaiting : cl.waiting
  · rw [if_neg (by simp), if_neg (by simp)]
    exact ⟨⟨by simp, fun b hb => by cases b <;> simp_all [Block.same]⟩, by simp, hsends, by simp⟩
  · rw [if_pos rfl, if_pos rfl, completeClose_eq]
    exact ⟨⟨by simp, fun b hb => by cases b <;> simp_all [Block.same]⟩, by simp, hsends, by simp⟩

/-! ### The report (R12, R13, R149, R155) -/

theorem closeRun_some {g : Segment} {start : Nat} (h : g.runStart = some start) (c : Configuration) (e : Nat) :
    g.closeRun c e = { g with
      mass := min 4294967295 (g.mass + (c.spindles * (e - start) - g.openLosses) * c.circumference / (c.ppr * 1000) *
        ((g.article.map Prod.snd).getD 0) / 100000000)
      runPulses := g.runPulses + (e - start)
      up := g.up + (c.spindles * (e - start) - g.openLosses)
      length := min 18446744073709551615
        ((g.up + (c.spindles * (e - start) - g.openLosses)) * c.circumference / (c.ppr * 1000))
      openLosses := 0
      runStart := none } := by
  unfold Segment.closeRun
  rw [h]
  rfl

/-- Booking leaves the segments before the last, and the start of the last one's run. -/
theorem book_segments {sh : Shift} {first : List Segment} {g : Segment} (h : sh.segments = first ++ [g]) (c : Option Cause)
    (n : Nat) : ∃ h : Segment, (sh.book c n).segments = first ++ [h] ∧ h.runStart = g.runStart := by
  cases c with
  | none => exact ⟨g, h, rfl⟩
  | some c => exact ⟨g.book c n, by rw [Shift.book_some, h, modifyLast_append], by rw [Segment.book_eq]⟩

theorem book_otherFields (sh : Shift) (c : Option Cause) (n : Nat) :
    (sh.book c n).number = sh.number ∧ (sh.book c n).closedAt = sh.closedAt ∧ (sh.book c n).counts = sh.counts ∧
    (sh.book c n).runSeconds = sh.runSeconds ∧ (sh.book c n).flags = sh.flags := by
  cases c with
  | none => rw [Shift.book_none]; exact ⟨rfl, rfl, rfl, rfl, rfl⟩
  | some c => exact ⟨rfl, rfl, rfl, rfl, rfl⟩

theorem reportOf_fields (c : Configuration) (sh : Shift) :
    (reportOf c sh).shift.number = sh.number ∧ (reportOf c sh).shift.closedAt = sh.closedAt ∧
    (reportOf c sh).shift.unobserved = sh.unobserved ∧ (reportOf c sh).shift.counts = sh.counts ∧
    (reportOf c sh).shift.segments = modifyLast (Segment.closeRun c sh.closeCount) sh.segments :=
  ⟨rfl, rfl, rfl, rfl, rfl⟩

theorem reportOf_figures (c : Configuration) (sh : Shift) :
    (let gross := c.spindles * ((reportOf c sh).shift.segments.map Segment.runPulses).sum
     let up := ((reportOf c sh).shift.segments.map Segment.up).sum
     let breaks := ((reportOf c sh).shift.segments.map Segment.breaks).sum
     let hours := c.spindles * sh.runSeconds
     (reportOf c sh).efficiency = (if gross = 0 then 0 else 10000 * up / gross) ∧
     (reportOf c sh).breakRate = (if hours = 0 then 0 else breaks * 36000000 / hours) ∧
     ((reportOf c sh).shift.flags.noDelivery = true ↔ gross = 0 ∨ sh.runSeconds = 0 ∨ sh.flags.noDelivery = true)) := by
  refine ⟨rfl, rfl, ?_⟩
  unfold reportOf
  dsimp only
  split
  · next h =>
    rw [Shift.noDelivery, Bool.or_eq_true, beq_iff_eq, beq_iff_eq] at h
    exact iff_of_true rfl (h.imp_right Or.inl)
  · next h =>
    rw [Shift.noDelivery, Bool.or_eq_true, beq_iff_eq, beq_iff_eq, not_or] at h
    obtain ⟨hgross, hrun⟩ := h
    exact ⟨fun hf => .inr (.inr hf), fun hor => (hor.resolve_left hgross).resolve_left hrun⟩

theorem exec_sweepStep {s : State} (hw : s.works) : exec .sweepStep s = .next (sweepOne s) := inRunning_works hw _

theorem sweepOne_idle {s : State} (h : s.shift.closing = none) : sweepOne s = s := by
  unfold sweepOne
  rw [h]

/-- The swept closing shift is the closing shift with the record's pulses booked. -/
theorem sweptShift_fields {s : State} {cl : Closing} {first : List Segment} {g : Segment}
    (h : cl.shift.segments = first ++ [g]) (i mark : Nat) :
    (s.sweptShift i mark cl).number = cl.shift.number ∧ (s.sweptShift i mark cl).closedAt = cl.shift.closedAt ∧
    (s.sweptShift i mark cl).counts = cl.shift.counts ∧ (s.sweptShift i mark cl).runSeconds = cl.shift.runSeconds ∧
    (s.sweptShift i mark cl).flags = cl.shift.flags ∧
    ∃ h : Segment, (s.sweptShift i mark cl).segments = first ++ [h] ∧ h.runStart = g.runStart := by
  rw [State.sweptShift]
  split
  · obtain ⟨hnumber, hclosed, hcounts, hrun, hflags⟩ := book_otherFields cl.shift (s.sp i).cause ((s.sp i).upTo mark)
    exact ⟨hnumber, hclosed, hcounts, hrun, hflags, book_segments h ..⟩
  · exact ⟨rfl, rfl, rfl, rfl, rfl, g, h, rfl⟩

theorem moved_effect {s : State} {cl : Closing} (h : s.shift.closing = some cl) (mark : Nat) :
    (s.moved mark cl).shift = { s.shift with closing := some (cl.next (s.sweptShift cl.sweep mark cl)) } ∧
    onlyIn [.mon, .shift] s (s.moved mark cl) ∧ ∀ j, (s.moved mark cl).sp j = (s.swept cl.sweep mark cl).sp j := by
  obtain ⟨-, ⟨hpending, honly⟩, -⟩ := swept_effect h cl.sweep mark
  refine ⟨rfl, ⟨hpending, fun b hb => ?_⟩, fun _ => rfl⟩
  cases b with
  | mon | shift => simp at hb
  | _ => exact honly _ hb

/-- What the end of the sweep reports of the closing shift `sh`, whose last segment `h` runs from `start` to the mark. -/
theorem reportOf_run {sh : Shift} {first : List Segment} {h : Segment} {start seconds mark : Nat}
    (hsegments : sh.segments = first ++ [h]) (hrun : h.runStart = some start) (hmark : sh.closedAt = some (seconds, mark))
    (c : Configuration) : (reportOf c sh).shift.segments = first ++ [h.closeRun c mark] ∧
      h.closeRun c mark = { h with
        runPulses := h.runPulses + (mark - start), up := h.up + (c.spindles * (mark - start) - h.openLosses)
        openLosses := 0, runStart := none
        length := min 18446744073709551615
          ((h.up + (c.spindles * (mark - start) - h.openLosses)) * c.circumference / (c.ppr * 1000))
        mass := min 4294967295 (h.mass + (c.spindles * (mark - start) - h.openLosses) * c.circumference / (c.ppr * 1000) *
          ((h.article.map Prod.snd).getD 0) / 100000000) } := by
  have hcount : sh.closeCount = mark := by rw [Shift.closeCount, hmark]; rfl
  exact ⟨by rw [(reportOf_fields c sh).2.2.2.2, hsegments, modifyLast_append, hcount], closeRun_some hrun c mark⟩

theorem afterClose_waiting {p : Port} {tag : Nat} (h : p.executing = some (.closeShift tag)) (closed : Nat) (opened : Shift) :
    p.afterClose closed opened = ({ p with executing := none } : Port).completed 31 tag .done
      (field 2 closed ++ field 2 opened.number ++ field 1 (if opened.flags.gap then 1 else 0)) := by
  unfold Port.afterClose
  rw [h]
  rfl

/-- Settles O46: the close step of the record, and behind the last record the report of the closing shift. -/
theorem sweepClosesRecordsThenReports : Obligations.SweepClosesRecordsThenReports := by
  intro s hw
  refine ⟨fun h => by rw [exec_sweepStep hw, sweepOne_idle h], fun cl seconds mark first g start h hmark hsegments hrun hi => ?_⟩
  intro i r due n booked after
  have hbooked : s.sweptShift i mark cl = booked := by
    by_cases hdue : due
    · rw [State.sweptShift, if_pos hdue]; simp only [booked, n, if_pos hdue]; rfl
    · rw [State.sweptShift, if_neg hdue]; exact (if_neg hdue).symm
  have hafter : (if due then r.swept mark s.shift.opened.number else r) = after := by
    by_cases hdue : due
    · rw [if_pos hdue]; simp only [after, n, if_pos hdue]; rfl
    · rw [if_neg hdue]; exact (if_neg hdue).symm
  obtain ⟨hself, hothers⟩ := swept_sp hi mark cl
  obtain ⟨hshift, honly, hsp⟩ := moved_effect h mark
  obtain ⟨hnumber, hclosed, hcounts, hseconds, hflags, k, hk, hkrun⟩ := sweptShift_fields hsegments (s := s) i mark
  rw [hbooked] at hshift hnumber hclosed hcounts hseconds hflags hk
  have hstep : exec .sweepStep s = .next (if s.mon.spindles.length < i + 1 then
      sweepEnd (cl.next booked) (s.moved mark cl) else s.moved mark cl) := by
    rw [exec_sweepStep hw, sweepOne_eq h hmark, hbooked]
  rw [hstep]
  have hrecord : (s.moved mark cl).sp i = after := (hsp i).trans (hself.trans hafter)
  have hrest : ∀ j, j ≠ i → (s.moved mark cl).sp j = s.sp j := fun j hj => (hsp j).trans (hothers j hj)
  generalize s.moved mark cl = u at *
  by_cases hlast : s.mon.spindles.length < i + 1
  · rw [if_pos hlast]
    obtain ⟨⟨hpending', honly'⟩, hshift', hsends, hport⟩ := sweepEnd_effect (cl.next booked) u
    have hcfg : u.cfg = s.cfg := cfg_of_port (honly.2 .port (by simp))
    have hmon : (sweepEnd (cl.next booked) u).mon = u.mon := honly' .mon (by simp)
    rw [hcfg] at hshift' hsends
    obtain ⟨hrunning, hclosedRun⟩ := reportOf_run (c := s.cfg) hk (hkrun.trans hrun) (hclosed.trans hmark)
    generalize sweepEnd (cl.next booked) u = t at *
    refine ⟨t, rfl, (sp_of_mon hmon i).trans hrecord, fun j hj => (sp_of_mon hmon j).trans (hrest j hj),
      by rw [hshift', hshift], fun hlt => absurd hlt (by omega), fun _ => ⟨?_, by rw [hshift'], reportOf s.cfg booked,
      by rw [hshift', hshift]; rfl, hnumber, hclosed, rfl, hcounts, ⟨k, hk, ?_⟩, ?_, ?_, ?_, ?_⟩⟩
    · exact onlyIn_trans (onlyIn_mono honly (by simp)) (onlyIn_mono ⟨hpending', honly'⟩ (by simp))
    · exact hrunning.trans (by rw [hclosedRun])
    · obtain ⟨hefficiency, hrate, hnone⟩ := reportOf_figures s.cfg booked
      rw [hseconds] at hrate hnone
      rw [hflags] at hnone
      exact ⟨hefficiency, hrate, hnone⟩
    · exact sends_congr (honly.2 .line (by simp)) (honly.2 .frame (by simp)) (honly.2 .port (by simp)) (honly.2 .del (by simp))
        hsends
    · intro tag hwaiting hexecuting
      rw [if_pos (show (cl.next booked).waiting = true from hwaiting), hshift, show u.port = s.port from honly.2 .port (by simp), afterClose_waiting hexecuting] at hport
      rw [hport, ← hnumber]
      rfl
    · intro hwaiting
      rw [if_neg (by rw [show (cl.next booked).waiting = cl.waiting from rfl, hwaiting]; simp)] at hport
      exact hport.trans (honly.2 .port (by simp))
  · rw [if_neg hlast]
    exact ⟨u, rfl, hrecord, hrest, by rw [hshift], fun _ => ⟨honly, hshift⟩, fun heq => absurd heq (by omega)⟩

end Sys2Proof.Machine
end

section
/-! PROOFS. The checks of a device second: the fill check, the stop test and the grant check, by the doff state (R116 to R121, R140). -/

namespace Sys2Proof.Machine

theorem fill_congr {s t : State} (hdel : t.del = s.del) (hport : t.port = s.port) (hmark : t.doff.copMark = s.doff.copMark) :
    t.fill = s.fill := by
  unfold State.fill State.count
  rw [hdel, hmark, cfg_of_port hport]

/-! ### Claims (R117, R118) -/

/-- The doff record after a claim has become full (R118). -/
def Doff.filled (now : Nat) (d : Doff) : Doff := { d with urgency := .full, state := .fullWait, nextAnn := some (now + 5) }

theorem claimFull_eq (s : State) : claimFull s =
    { enqueue .doffClaim 0 (claimPayload s.del.seconds s.fill { s.doff with urgency := .full }) (addHold .copFull s) with
      doff := s.doff.filled s.del.seconds } := by
  have hset : addHold .copFull { s with doff := { s.doff with urgency := .full, state := .fullWait } } =
      { addHold .copFull s with doff := { s.doff with urgency := .full, state := .fullWait } } := rfl
  unfold claimFull
  rw [claimAgain_eq, hset, enqueue_setDoff]
  rfl

theorem claimFull_effect (s : State) :
    (claimFull s).doff = s.doff.filled s.del.seconds ∧ (claimFull s).frame.holds.copFull = true ∧
    hands [(.doffClaim, 0, claimPayload s.del.seconds s.fill { s.doff with urgency := .full })] s (claimFull s) := by
  have hheld := holds_of_besideAlerts (enqueue_besideAlerts .doffClaim 0
    (claimPayload s.del.seconds s.fill { s.doff with urgency := .full }) (addHold .copFull s)) (c := .copFull) (by decide)
  have hline := enqueue_line_congr (s := s) (t := addHold .copFull s) rfl rfl .doffClaim 0
    (claimPayload s.del.seconds s.fill { s.doff with urgency := .full })
  rw [claimFull_eq]
  exact ⟨rfl, hheld, hline⟩

/-- The doff record after a claim at a fill below 1,000 (R117, R119). -/
def Doff.claimedAt (now : Nat) (manual : Bool) (d : Doff) : Doff :=
  { d with
    state := .claimed, firstClaim := some now, urgency := .normal, manual := manual, listenEnd := some (now + 3)
    nextAnn := some (now + 5) }

/-- The state after a claim, before it may become full at once. -/
def claimMade (manual : Bool) (s : State) : State :=
  { enqueue .doffClaim 0 (claimPayload s.del.seconds s.fill (s.doff.claimedAt s.del.seconds manual)) s with
    doff := s.doff.claimedAt s.del.seconds manual }

theorem claimMade_fill (manual : Bool) (s : State) : (claimMade manual s).fill = s.fill :=
  fill_congr (by simp [claimMade]) (by simp [claimMade]) rfl

theorem claim_eq (manual : Bool) (s : State) :
    claim manual s = if 1000 ≤ s.fill then claimFull (claimMade manual s) else claimMade manual s := by
  have hmade : setDoffState .claimed (announceAgain (sendClaim { s with doff := { s.doff with
      firstClaim := some s.now, urgency := .normal, manual := manual, listenEnd := some (s.now + Config.listenSeconds) } })) =
      claimMade manual s := by
    rw [claimAgain_eq, enqueue_setDoff]
    rfl
  unfold claim
  dsimp only
  rw [hmade]
  exact if_congr (by rw [claimMade_fill]) rfl rfl

/-- What a claim at a fill below 1,000 changes, and what it sends. -/
theorem claim_normal {s : State} (hfill : s.fill < 1000) (manual : Bool) : claim manual s = claimMade manual s := by
  rw [claim_eq, if_neg (Nat.not_le.2 hfill)]

theorem claimMade_sends (manual : Bool) (s : State) :
    sends .doffClaim 0 (claimPayload s.del.seconds s.fill (s.doff.claimedAt s.del.seconds manual)) s (claimMade manual s) :=
  ⟨rfl, rfl⟩

theorem claimPayload_new (now fill : Nat) (manual : Bool) (d : Doff) :
    claimPayload now fill (d.claimedAt now manual) = field 1 0 ++ field 2 0 ++ field 2 fill ++ flag manual := by
  have hwait : waitAt now (d.claimedAt now manual) = 0 := by simp [waitAt, Doff.claimedAt]
  rw [claimPayload, hwait]
  rfl

theorem claim_full {s : State} (hfill : 1000 ≤ s.fill) (manual : Bool) :
    (claim manual s).doff = { s.doff.claimedAt s.del.seconds manual with state := .fullWait, urgency := .full } ∧
    (claim manual s).frame.holds.copFull = true := by
  rw [claim_eq, if_pos hfill]
  have hnow : (claimMade manual s).del.seconds = s.del.seconds := by simp [claimMade]
  obtain ⟨hdoff, hheld, -⟩ := claimFull_effect (claimMade manual s)
  rw [hdoff, hnow]
  exact ⟨rfl, hheld⟩

/-! ### The fill check by the state (R116) -/

theorem fillCheck_spinning {s : State} (h : s.doff.state = .spinning) :
    fillCheck s = if s.cfg.claimLevel ≤ s.fill then claim false s else s := by
  unfold fillCheck
  rw [h]

theorem fillCheck_claimed {s : State} (h : s.doff.state = .claimed) :
    fillCheck s = if 1000 ≤ s.fill then claimFull s else s := by
  unfold fillCheck
  rw [h]

theorem fillCheck_granted {s : State} (h : s.doff.state = .granted) :
    fillCheck s = if 1000 ≤ s.fill ∧ s.doff.urgency = .normal then
      addHold .copFull { s with doff := { s.doff with urgency := .full } } else s := by
  unfold fillCheck
  rw [h]

/-! ### The checks of a device second -/

/-- The checks that follow the clocks of a device second. -/
def secondChecks (v : State) : State := grantCheck (stopTest (fillCheck v))

theorem secondChecks_idle {v : State} (h : v.doff.state = .doffing ∨ v.doff.state = .restart ∨ v.doff.state = .unknown) :
    secondChecks v = v := by
  have hne : v.doff.state ≠ .spinning ∧ v.doff.state ≠ .claimed ∧ v.doff.state ≠ .granted ∧ v.doff.state ≠ .rundown ∧
      v.doff.state ≠ .fullWait := by rcases h with h | h | h <;> simp [h]
  obtain ⟨hspin, hclaimed, hgranted, hrundown, hwait⟩ := hne
  rw [secondChecks, fillCheck_idle ⟨hspin, hclaimed, hgranted⟩, stopTest_idle hrundown, grantCheck_idle ⟨hclaimed, hwait⟩]

theorem secondChecks_spinning {v : State} (h : v.doff.state = .spinning) :
    secondChecks v = if v.cfg.claimLevel ≤ v.fill then claim false v else v := by
  have hnew : (claim false v).doff.listenEnd ≠ none ∧ (claim false v).doff.state ≠ .rundown := by
    by_cases hfill : 1000 ≤ v.fill
    · rw [(claim_full hfill false).1]; simp [Doff.claimedAt]
    · rw [claim_normal (Nat.not_le.1 hfill)]; simp [claimMade, Doff.claimedAt]
  rw [secondChecks, fillCheck_spinning h]
  split
  · rw [stopTest_idle hnew.2, grantCheck_keeps fun hg => hnew.1 hg.2.1]
  · rw [stopTest_idle (by simp [h]), grantCheck_idle (by simp [h])]

/-- The state after the fill check of a station that claims. -/
def claimFilled (v : State) : State := if v.doff.state = .claimed ∧ 1000 ≤ v.fill then claimFull v else v

theorem claimFilled_pos {v : State} (h : v.doff.state = .claimed) (hfill : 1000 ≤ v.fill) : claimFilled v = claimFull v :=
  if_pos ⟨h, hfill⟩

theorem claimFilled_neg {v : State} (h : ¬ (v.doff.state = .claimed ∧ 1000 ≤ v.fill)) : claimFilled v = v := if_neg h

/-- The doff record after the fill check of a station that claims. -/
theorem claimFilled_doff (v : State) : (claimFilled v).doff =
    if v.doff.state = .claimed ∧ 1000 ≤ v.fill then v.doff.filled v.del.seconds else v.doff := by
  by_cases h : v.doff.state = .claimed ∧ 1000 ≤ v.fill
  · rw [claimFilled, if_pos h, if_pos h, (claimFull_effect v).1]
  · rw [claimFilled, if_neg h, if_neg h]

theorem claimFilled_hands (v : State) : hands (if v.doff.state = .claimed ∧ 1000 ≤ v.fill then
    [(.doffClaim, 0, claimPayload v.del.seconds v.fill { v.doff with urgency := .full })] else []) v (claimFilled v) := by
  by_cases h : v.doff.state = .claimed ∧ 1000 ≤ v.fill
  · rw [claimFilled, if_pos h, if_pos h]
    exact (claimFull_effect v).2.2
  · rw [claimFilled, if_neg h, if_neg h]
    exact hands_of_line rfl

theorem claimFilled_frame (v : State) : (claimFilled v).del = v.del ∧ (claimFilled v).port = v.port := by
  unfold claimFilled
  split
  · rw [claimFull_eq]; exact ⟨by simp, by simp⟩
  · exact ⟨rfl, rfl⟩

theorem claimFilled_claiming {v : State} (h : v.doff.state = .claimed ∨ v.doff.state = .fullWait) :
    (claimFilled v).doff.state = .claimed ∨ (claimFilled v).doff.state = .fullWait := by
  rw [claimFilled_doff]
  split
  · exact .inr rfl
  · exact h

theorem claimFilled_listenEnd (v : State) : (claimFilled v).doff.listenEnd = v.doff.listenEnd := by
  rw [claimFilled_doff]
  split <;> rfl

theorem secondChecks_claiming {v : State} (h : v.doff.state = .claimed ∨ v.doff.state = .fullWait) :
    secondChecks v = grantCheck (claimFilled v) := by
  have hfill : fillCheck v = claimFilled v := by
    rcases h with h | h
    · rw [fillCheck_claimed h]
      exact if_congr (by simp [h]) rfl rfl
    · rw [fillCheck_idle (by simp [h]), claimFilled_neg (by simp [h])]
  rw [secondChecks, hfill, stopTest_idle]
  rcases claimFilled_claiming h with hs | hs <;> simp [hs]

theorem secondChecks_granted {v : State} (h : v.doff.state = .granted) : secondChecks v =
    if 1000 ≤ v.fill ∧ v.doff.urgency = .normal then
      addHold .copFull { v with doff := { v.doff with urgency := .full } } else v := by
  rw [secondChecks, fillCheck_granted h]
  split
  · rw [stopTest_idle (by simp [addHold, h]), grantCheck_idle (by simp [addHold, h])]
  · rw [stopTest_idle (by simp [h]), grantCheck_idle (by simp [h])]

theorem secondChecks_rundown {v : State} (h : v.doff.state = .rundown) : secondChecks v = stopTest v := by
  rw [secondChecks, fillCheck_idle (by simp [h])]
  by_cases hs : v.doff.state = .rundown ∧ v.frame.run = false ∧ 2 ≤ v.del.pulseFree
  · rw [stopTest_stops h hs.2.1 hs.2.2, grantCheck_idle (by simp)]
  · rw [stopTest_keeps hs, grantCheck_idle (by simp [h])]

/-! ### The row -/

/-- The state after the clocks of a device second in RUNNING, outside SETTLING. -/
def State.clocked (s : State) : State :=
  { s with
    del := s.del.tick
    shift := { s.shift with opened := s.shift.opened.second s.frame.run }
    pie := { s.pie with a := { s.pie.a with eng := s.pie.a.eng.second }, b := { s.pie.b with eng := s.pie.b.eng.second } } }

theorem secondClocks_clocked {s : State} (h : s.doff.state ≠ .settling) :
    secondClocks { s with del := s.del.tick } = s.clocked := by
  have hdoff : s.doff.second s.frame.run = s.doff := if_neg fun hs => h hs.1
  unfold secondClocks State.clocked
  rw [hdoff]

theorem exec_deviceSecond_running {s : State} (hw : s.works) :
    exec .deviceSecond s = .next (secondChecks (secondClocks { s with del := s.del.tick })) := by
  rw [exec_deviceSecond hw.1, takeSecond, if_pos (show State.running { s with del := s.del.tick } = true from running_of_works hw),
    runningSecond_eq]
  rfl

/-- What the checks of a device second do to the doff record and hand over, from the state `v` after its clocks. -/
theorem secondChecks_claiming_effect {v : State} (h : v.doff.state = .claimed ∨ v.doff.state = .fullWait)
    (hlisten : v.doff.listenEnd = none) :
    let now := v.del.seconds
    let filled : Doff := if v.doff.state = .claimed ∧ 1000 ≤ v.fill then v.doff.filled now else v.doff
    let claim : List Handed := if v.doff.state = .claimed ∧ 1000 ≤ v.fill then
      [(.doffClaim, 0, claimPayload now v.fill { v.doff with urgency := .full })] else []
    (grantsAt v.cfg now filled → (secondChecks v).doff = grantedAt now filled ∧
      hands (claim ++ [(.doffState, 0, grantPayload now filled)]) v (secondChecks v)) ∧
    (¬ grantsAt v.cfg now filled → (secondChecks v).doff = filled ∧ hands claim v (secondChecks v)) := by
  intro now filled claim
  have hclaiming := claimFilled_claiming h
  have hlisten' := (claimFilled_listenEnd v).trans hlisten
  have hdoff : (claimFilled v).doff = filled := claimFilled_doff v
  have hhands : hands claim v (claimFilled v) := claimFilled_hands v
  obtain ⟨hdel, hport⟩ := claimFilled_frame v
  rw [secondChecks_claiming h]
  generalize claimFilled v = w at *
  have hcfg : w.cfg = v.cfg := cfg_of_port hport
  refine ⟨fun hgrants => ?_, fun hno => ?_⟩
  · rw [grantCheck_grants hclaiming hlisten' (by rw [hcfg, hdel, hdoff]; exact hgrants), hdel, hdoff]
    exact ⟨rfl, hands_trans hhands hport (hands_enqueue ..)⟩
  · rw [grantCheck_keeps fun hg => hno (by rw [hcfg, hdel, hdoff] at hg; exact hg.2.2)]
    exact ⟨hdoff, hhands⟩

theorem claimFilled_full_listening {v : State} (h : v.doff.state = .claimed) (hfill : 1000 ≤ v.fill)
    (hlisten : v.doff.listenEnd ≠ none) : secondChecks v = claimFull v := by
  rw [secondChecks_claiming (.inl h), claimFilled_pos h hfill, grantCheck_keeps]
  rw [(claimFull_effect v).1]
  exact fun hg => hlisten hg.2.1

theorem grantCheck_kept (s : State) : (grantCheck s).doff.urgency = s.doff.urgency ∧
    (grantCheck s).doff.firstClaim = s.doff.firstClaim ∧ (grantCheck s).frame.holds.copFull = s.frame.holds.copFull := by
  by_cases h : (s.doff.state = .claimed ∨ s.doff.state = .fullWait) ∧ s.doff.listenEnd = none ∧
      grantsAt s.cfg s.del.seconds s.doff
  · obtain ⟨hstate, hlisten, hgrants⟩ := h
    rw [grantCheck_grants hstate hlisten hgrants]
    exact ⟨rfl, rfl, holds_of_besideAlerts (enqueue_besideAlerts ..) (c := .copFull) (by decide)⟩
  · rw [grantCheck_keeps h]
    exact ⟨rfl, rfl, rfl⟩

/-- A claim that becomes full in this second stays full, of its first claim and held by COP_FULL, whatever the grant check says. -/
theorem secondChecks_full {v : State} (h : v.doff.state = .claimed) (hfill : 1000 ≤ v.fill) :
    (secondChecks v).doff.urgency = .full ∧ (secondChecks v).doff.firstClaim = v.doff.firstClaim ∧
    (secondChecks v).frame.holds.copFull = true := by
  obtain ⟨hdoff, hheld, -⟩ := claimFull_effect v
  rw [secondChecks_claiming (.inl h), claimFilled_pos h hfill]
  obtain ⟨hurgency, hfirst, hcop⟩ := grantCheck_kept (claimFull v)
  rw [hurgency, hfirst, hcop, hdoff]
  exact ⟨rfl, rfl, hheld⟩

theorem secondChecks_listening {v : State} (h : v.doff.state = .claimed ∨ v.doff.state = .fullWait)
    (hfill : ¬ (v.doff.state = .claimed ∧ 1000 ≤ v.fill)) (hlisten : v.doff.listenEnd ≠ none) : secondChecks v = v := by
  rw [secondChecks_claiming h, claimFilled_neg hfill, grantCheck_keeps fun hg => hlisten hg.2.1]

/-- Settles O37. -/
theorem secondClaimsAndTestsTheStop : Obligations.SecondClaimsAndTestsTheStop := by
  intro s hw now free u d claimed stopped
  refine ⟨_, exec_deviceSecond_running hw, ?_⟩
  by_cases hsettling : s.doff.state = .settling
  · have hstate : d.state = .settling := hsettling
    simp [hstate]
  rw [secondClocks_clocked hsettling]
  have hbeside : ∀ {kind dest payload t}, sends kind dest payload s.clocked t → sends kind dest payload u t :=
    fun h => sends_congr (s' := s.clocked) rfl rfl rfl rfl h
  have hhands : ∀ {l t}, hands l s.clocked t → hands l u t := fun h => hands_congr h rfl rfl rfl
  refine ⟨fun h hlow => ?_, fun h hlevel hlow => ?_, fun h hlevel hfull => ?_, fun h hfull => ?_, fun h hlow hlisten => ?_,
    fun h hlisten => ?_, fun h hlisten => ?_, fun h hfull hurgency => ?_, fun h hor => ?_, fun h hstopped => ?_,
    fun h hmoving => ?_, fun h => ?_⟩
  · rw [secondChecks_spinning (v := s.clocked) h, if_neg (show ¬ s.clocked.cfg.claimLevel ≤ s.clocked.fill from Nat.not_le.2 hlow)]
    rfl
  · rw [secondChecks_spinning (v := s.clocked) h, if_pos (show s.clocked.cfg.claimLevel ≤ s.clocked.fill from hlevel),
       claim_normal (s := s.clocked) hlow]
    refine ⟨rfl, hbeside ?_⟩
    have hsends := claimMade_sends false s.clocked
    rw [claimPayload_new] at hsends
    exact hsends
  · rw [secondChecks_spinning (v := s.clocked) h, if_pos (show s.clocked.cfg.claimLevel ≤ s.clocked.fill from hlevel)]
    exact claim_full (s := s.clocked) hfull false
  · obtain ⟨hurgency, hfirst, hheld⟩ := secondChecks_full (v := s.clocked) h hfull
    refine ⟨hurgency, hfirst, hheld, fun hlisten => ?_⟩
    rw [claimFilled_full_listening (v := s.clocked) h hfull hlisten, (claimFull_effect _).1]
    rfl
  · rw [secondChecks_listening (v := s.clocked) (.inl h) (fun hc => absurd hc.2 (Nat.not_le.2 hlow)) hlisten]
    rfl
  · have hne : ¬ (s.clocked.doff.state = .claimed ∧ 1000 ≤ s.clocked.fill) := fun hc => by
      have hclaimed : s.doff.state = .claimed := hc.1
      simp [d, hclaimed] at h
    rw [secondChecks_listening (v := s.clocked) (.inr h) hne hlisten]
    rfl
  · intro filled claim
    obtain ⟨hgrants, hkeeps⟩ := secondChecks_claiming_effect (v := s.clocked) h hlisten
    have hwait : waitAt now filled = waitAt now d := by
      simp only [filled]
      split <;> rfl
    refine ⟨fun hg => ?_, fun hg => ?_⟩
    · obtain ⟨hdoff, hh⟩ := hgrants hg
      rw [← hwait]
      exact ⟨hdoff, hhands hh⟩
    · obtain ⟨hdoff, hh⟩ := hkeeps hg
      exact ⟨hdoff, hhands hh⟩
  · rw [secondChecks_granted (v := s.clocked) h, if_pos (show 1000 ≤ s.clocked.fill ∧ s.clocked.doff.urgency = .normal from ⟨hfull, hurgency⟩)]
    exact ⟨rfl, rfl⟩
  · have hno : ¬ (1000 ≤ s.clocked.fill ∧ s.clocked.doff.urgency = .normal) := fun hc => by
      rcases hor with hlow | hurgency
      · exact absurd hc.1 (Nat.not_le.2 hlow)
      · exact absurd (hc.2.symm.trans hurgency) (by decide)
    rw [secondChecks_granted (v := s.clocked) h, if_neg hno]
    rfl
  · rw [secondChecks_rundown (v := s.clocked) h, stopTest_stops (s := s.clocked) h hstopped.1 hstopped.2]
    exact ⟨rfl, hbeside ⟨rfl, rfl⟩⟩
  · rw [secondChecks_rundown (v := s.clocked) h, stopTest_keeps (s := s.clocked) fun hs => hmoving hs.2]
    rfl
  · rw [secondChecks_idle (v := s.clocked) h]
    rfl

end Sys2Proof.Machine
end

section
/-! PROOFS. The peer doff view: announcements taken, peers removed, and what a view change sets off (R133 to R142). -/

namespace Sys2Proof.Machine

/-! ### A view change (R137, R140, R142) -/

/-- The state whose view is `v`. -/
def State.viewing (v : List Peer) (u : State) : State := { u with doff := { u.doff with view := v } }

/-- The doff state weighs peers: a claim or a grant (R137). -/
def DoffState.weighs (d : DoffState) : Prop := d = .claimed ∨ d = .fullWait ∨ d = .granted

theorem viewChanged_idle {u : State} (h : ¬ u.doff.state.weighs) : viewChanged u = u := by
  unfold viewChanged
  cases hd : u.doff.state with
  | claimed => exact absurd (.inl hd) h
  | fullWait => exact absurd (.inr (.inl hd)) h
  | granted => exact absurd (.inr (.inr hd)) h
  | _ => rfl

theorem viewChanged_claiming {u : State} (h : u.doff.state = .claimed ∨ u.doff.state = .fullWait) :
    viewChanged u = grantCheck u := by
  unfold viewChanged
  rcases h with h | h <;> rw [h]

theorem viewChanged_granted {u : State} (h : u.doff.state = .granted) : viewChanged u = backOffCheck u := by
  unfold viewChanged
  rw [h]

/-- What the grant check of a view change does to a station that claims and has listened (R140). -/
theorem viewChanged_grants {u : State} (h : u.doff.state = .claimed ∨ u.doff.state = .fullWait) (hlisten : u.doff.listenEnd = none) :
    (grantsAt u.cfg u.del.seconds u.doff → (viewChanged u).doff = grantedAt u.del.seconds u.doff ∧
      sends .doffState 0 (grantPayload u.del.seconds u.doff) u (viewChanged u)) ∧
    (¬ grantsAt u.cfg u.del.seconds u.doff → viewChanged u = u) := by
  rw [viewChanged_claiming h]
  refine ⟨fun hg => ?_, fun hg => grantCheck_keeps fun hc => hg hc.2.2⟩
  rw [grantCheck_grants h hlisten hg]
  exact ⟨rfl, rfl, rfl⟩

/-- What the back-off check of a view change does to a station with a grant (R142). -/
theorem viewChanged_backsOff {u : State} (h : u.doff.state = .granted) :
    (backsOffAt u.cfg u.del.seconds u.doff → (viewChanged u).doff = backedOffAt u.del.seconds u.doff ∧
      sends .doffClaim 0 (claimPayload u.del.seconds u.fill u.doff) u (viewChanged u)) ∧
    (¬ backsOffAt u.cfg u.del.seconds u.doff → viewChanged u = u) := by
  rw [viewChanged_granted h]
  refine ⟨fun hb => ?_, fun hb => backOffCheck_keeps hb⟩
  rw [backOffCheck_backsOff hb]
  exact ⟨rfl, rfl, rfl⟩

theorem viewChanged_listening {u : State} (h : u.doff.state = .claimed ∨ u.doff.state = .fullWait) (hlisten : u.doff.listenEnd ≠ none) :
    viewChanged u = u := by
  rw [viewChanged_claiming h]
  exact grantCheck_keeps fun hc => hlisten hc.2.1

theorem viewChanged_onlyIn (u : State) : onlyIn [.doff, .line, .frame] u (viewChanged u) :=
  ⟨by simp, fun b hb => by cases b <;> simp_all [Block.same]⟩

/-- A view change leaves the view that brought it. -/
theorem viewChanged_view (u : State) : (viewChanged u).doff.view = u.doff.view := by
  by_cases hw : u.doff.state.weighs
  · rcases hw with h | h | h
    · by_cases hg : u.doff.listenEnd = none ∧ grantsAt u.cfg u.del.seconds u.doff
      · rw [((viewChanged_grants (.inl h) hg.1).1 hg.2).1]; rfl
      · rw [viewChanged_claiming (.inl h), grantCheck_keeps fun hc => hg hc.2]
    · by_cases hg : u.doff.listenEnd = none ∧ grantsAt u.cfg u.del.seconds u.doff
      · rw [((viewChanged_grants (.inr h) hg.1).1 hg.2).1]; rfl
      · rw [viewChanged_claiming (.inr h), grantCheck_keeps fun hc => hg hc.2]
    · by_cases hb : backsOffAt u.cfg u.del.seconds u.doff
      · rw [((viewChanged_backsOff h).1 hb).1]; rfl
      · rw [(viewChanged_backsOff h).2 hb]
  · rw [viewChanged_idle hw]

/-- From `u` to `t` the view has become `v`, and nothing else has happened. -/
def viewedOnly (v : List Peer) (u t : State) : Prop := t = u.viewing v

/-- From `u` to `t` the view has become `v` in a view change, with the check that it sets off (R137, R140, R142). -/
def viewChangedTo (v : List Peer) (u t : State) : Prop := t = viewChanged (u.viewing v)

theorem onlyIn_viewing (v : List Peer) (u : State) : onlyIn [.doff, .line, .frame] u (u.viewing v) :=
  ⟨rfl, fun b hb => by cases b <;> simp_all [Block.same, State.viewing]⟩

theorem sends_viewing {v : List Peer} {u t : State} {kind : Kind} {dest : Nat} {payload : List Byte}
    (h : sends kind dest payload (u.viewing v) t) : sends kind dest payload u t :=
  sends_congr (s' := u.viewing v) rfl rfl rfl rfl h

/-- The view, and what a change of it leaves alone, whether or not a check follows. -/
theorem view_of_change {v : List Peer} {u t : State} (h : viewedOnly v u t ∨ viewChangedTo v u t) :
    onlyIn [.doff, .line, .frame] u t ∧ t.doff.view = v := by
  rcases h with rfl | rfl
  · exact ⟨onlyIn_viewing v u, rfl⟩
  · exact ⟨onlyIn_trans (onlyIn_viewing v u) (viewChanged_onlyIn _), viewChanged_view _⟩

theorem viewed_idle {v : List Peer} {u t : State} (h : viewedOnly v u t ∨ viewChangedTo v u t)
    (hd : u.doff.state ≠ .claimed ∧ u.doff.state ≠ .fullWait ∧ u.doff.state ≠ .granted) : t = u.viewing v := by
  rcases h with rfl | rfl
  · rfl
  · exact viewChanged_idle (u := u.viewing v) fun hw => hw.elim hd.1 fun hw => hw.elim hd.2.1 hd.2.2

theorem viewed_listening {v : List Peer} {u t : State} (h : viewedOnly v u t ∨ viewChangedTo v u t)
    (hd : u.doff.state = .claimed ∨ u.doff.state = .fullWait) (hlisten : u.doff.listenEnd ≠ none) : t = u.viewing v := by
  rcases h with rfl | rfl
  · rfl
  · exact viewChanged_listening (u := u.viewing v) hd hlisten

/-! ### Announcements taken (R133, R134) -/

theorem mem_insertPeer (p : Peer) (l : List Peer) : p ∈ insertPeer p l := by
  induction l with
  | nil => exact List.mem_singleton.2 rfl
  | cons q rest ih =>
    rw [insertPeer]
    split
    · exact List.mem_cons_self
    · exact List.mem_cons_of_mem _ ih

/-- The view with the entry of `p`'s station renewed. -/
def renewed (p : Peer) (l : List Peer) : List Peer := l.map (fun q => if q.station = p.station then p else q)

theorem takePeer_listed {p q : Peer} {u : State} (h : u.doff.view.find? (fun q => q.station == p.station) = some q) :
    takePeer p u = if q.phase = p.phase ∧ q.urgency = p.urgency then u.viewing (renewed p u.doff.view)
      else viewChanged (u.viewing (renewed p u.doff.view)) := by
  unfold takePeer
  rw [h]
  rfl

theorem find?_station {p : Peer} {l : List Peer} (h : ∃ q ∈ l, q.station = p.station) :
    ∃ q ∈ l, q.station = p.station ∧ l.find? (fun q => q.station == p.station) = some q := by
  have hsome : (l.find? (fun q => q.station == p.station)).isSome = true :=
    List.find?_isSome.2 (h.imp fun q hq => ⟨hq.1, by simpa using hq.2⟩)
  obtain ⟨q, hq⟩ := Option.isSome_iff_exists.1 hsome
  exact ⟨q, List.mem_of_find?_eq_some hq, by simpa using List.find?_some hq, hq⟩

theorem takePeer_unlisted {p : Peer} {u : State} (h : ¬ ∃ q ∈ u.doff.view, q.station = p.station) : takePeer p u =
    if 16 ≤ u.doff.view.length then raiseAlert .peerViewFull .note (some p.station) (dropDoff u)
    else viewChanged (u.viewing (insertPeer p u.doff.view)) := by
  have hnone : u.doff.view.find? (fun q => q.station == p.station) = none :=
    List.find?_eq_none.2 fun q hq => by simpa using fun heq => h ⟨q, hq, heq⟩
  unfold takePeer
  rw [hnone]
  dsimp only
  exact if_congr (by simp [Doff.full, Config.viewCapacity]) rfl rfl

/-- A refresh that changes neither phase nor urgency is no view change (R137). -/
theorem takePeer_mere {p : Peer} {u : State} (h : ∃ q ∈ u.doff.view, q.station = p.station)
    (hsame : ∀ q ∈ u.doff.view, q.station = p.station → q.phase = p.phase ∧ q.urgency = p.urgency) :
    takePeer p u = u.viewing (renewed p u.doff.view) := by
  obtain ⟨q, hq, hstation, hfind⟩ := find?_station h
  rw [takePeer_listed hfind, if_pos (hsame q hq hstation)]

/-- The view after an announcement that is taken (R134). -/
def viewTaken (p : Peer) (l : List Peer) : List Peer :=
  if l.any (fun q => q.station == p.station) then renewed p l else insertPeer p l

theorem viewTaken_listed {p : Peer} {l : List Peer} (h : ∃ q ∈ l, q.station = p.station) : viewTaken p l = renewed p l :=
  if_pos (List.any_eq_true.2 (h.imp fun q hq => ⟨hq.1, by simpa using hq.2⟩))

theorem viewTaken_new {p : Peer} {l : List Peer} (h : ¬ ∃ q ∈ l, q.station = p.station) : viewTaken p l = insertPeer p l :=
  if_neg fun hany => h ((List.any_eq_true.1 hany).imp fun q hq => ⟨hq.1, by simpa using hq.2⟩)

theorem takePeer_change {p : Peer} {u : State}
    (hroom : (∃ q ∈ u.doff.view, q.station = p.station) ∨ u.doff.view.length < 16) :
    viewedOnly (viewTaken p u.doff.view) u (takePeer p u) ∨ viewChangedTo (viewTaken p u.doff.view) u (takePeer p u) := by
  by_cases hlisted : ∃ q ∈ u.doff.view, q.station = p.station
  · obtain ⟨q, hq, hstation, hfind⟩ := find?_station hlisted
    rw [takePeer_listed hfind, viewTaken_listed hlisted]
    split
    · exact .inl rfl
    · exact .inr rfl
  · rw [takePeer_unlisted hlisted, viewTaken_new hlisted, if_neg (Nat.not_le.2 (hroom.resolve_left hlisted))]
    exact .inr rfl

/-- A refresh that changes phase or urgency, and an insertion, are view changes (R137). -/
theorem takePeer_viewChange {p : Peer} {u : State}
    (hroom : (∃ q ∈ u.doff.view, q.station = p.station) ∨ u.doff.view.length < 16)
    (hchange : ∀ q ∈ u.doff.view, q.station = p.station → ¬ (q.phase = p.phase ∧ q.urgency = p.urgency)) :
    viewChangedTo (viewTaken p u.doff.view) u (takePeer p u) := by
  by_cases hlisted : ∃ q ∈ u.doff.view, q.station = p.station
  · obtain ⟨q, hq, hstation, hfind⟩ := find?_station hlisted
    rw [takePeer_listed hfind, viewTaken_listed hlisted, if_neg (hchange q hq hstation)]
    rfl
  · rw [takePeer_unlisted hlisted, viewTaken_new hlisted, if_neg (Nat.not_le.2 (hroom.resolve_left hlisted))]
    rfl

/-! ### Peers removed (R135, R136) -/

theorem keepPeers_all {keep : Peer → Bool} {u : State} (h : ∀ p ∈ u.doff.view, keep p = true) : keepPeers keep u = u :=
  if_pos (List.all_eq_true.2 h)

theorem keepPeers_some {keep : Peer → Bool} {u : State} (h : ∃ p ∈ u.doff.view, keep p = false) :
    viewChangedTo (u.doff.view.filter keep) u (keepPeers keep u) := by
  refine if_neg fun hall => ?_
  obtain ⟨p, hp, hgone⟩ := h
  exact absurd (List.all_eq_true.1 hall p hp) (by simp [hgone])

theorem keepPeers_change (keep : Peer → Bool) (u : State) :
    viewedOnly (u.doff.view.filter keep) u (keepPeers keep u) ∨ viewChangedTo (u.doff.view.filter keep) u (keepPeers keep u) := by
  by_cases h : ∀ p ∈ u.doff.view, keep p = true
  · rw [keepPeers_all h, List.filter_eq_self.2 h]
    exact .inl rfl
  · refine .inr (keepPeers_some ?_)
    simpa using h

end Sys2Proof.Machine
end

section
/-! PROOFS. The rows of the peer doff view (R133 to R137, R140, R142). -/

namespace Sys2Proof.Machine

/-! ### DOFF_CLAIM and DOFF_STATE (R133, R134) -/

/-- An announcement with its codes read: dropped where one is unlisted or the station is this one, else taken. -/
def announced (phase : Option Phase) (urgency : Option Urgency) (wait : Nat) (t : Telegram) (s : State) : State :=
  match phase, urgency with
  | some ph, some ur =>
    if t.source = s.cfg.station then dropDoff s
    else takePeer { station := t.source, phase := ph, urgency := ur, wait := wait, heard := s.now } s
  | _, _ => dropDoff s

theorem takeClaim_eq (t : Telegram) (s : State) :
    takeClaim t s = announced (some .claimed) (Urgency.ofCode (t.num 0 1)) (t.num 1 2) t s := by
  unfold takeClaim announced
  cases Urgency.ofCode (t.num 0 1) <;> rfl

theorem takeDoffState_eq (t : Telegram) (s : State) :
    takeDoffState t s = announced (Phase.ofCode (t.num 0 1)) (Urgency.ofCode (t.num 1 1)) (t.num 2 2) t s := by
  unfold takeDoffState announced
  cases Phase.ofCode (t.num 0 1) <;> cases Urgency.ofCode (t.num 1 1) <;> rfl

theorem announced_dropped {phase : Option Phase} {urgency : Option Urgency} {wait : Nat} {t : Telegram} {s : State}
    (h : phase = none ∨ urgency = none ∨ t.source = s.cfg.station) : announced phase urgency wait t s = dropDoff s := by
  unfold announced
  cases hp : phase with
  | none => rfl
  | some ph =>
    cases hu : urgency with
    | none => rfl
    | some ur => exact if_pos ((h.resolve_left (by simp [hp])).resolve_left (by simp [hu]))

theorem announced_taken {ph : Phase} {ur : Urgency} {wait : Nat} {t : Telegram} {s : State} (h : t.source ≠ s.cfg.station) :
    announced (some ph) (some ur) wait t s =
      takePeer { station := t.source, phase := ph, urgency := ur, wait := wait, heard := s.now } s := if_neg h

theorem urgency_ofCode_eq (n : Nat) :
    Urgency.ofCode n = if n = 0 then some .normal else if n = 1 then some .full else none := by
  unfold Urgency.ofCode
  split <;> simp_all

/-- The row of a DOFF_CLAIM or a DOFF_STATE takes the announcement of its oldest telegram. -/
theorem exec_announcement {s : State} (hw : s.works) {r : Received} {rest : List Received} (h : s.line.rx = r :: rest)
    {c : Instr} (hc : c = .doffClaim ∧ r.tel.kind = .doffClaim ∨ c = .doffState ∧ r.tel.kind = .doffState) :
    exec c s = .next (announced (if c = .doffClaim then some .claimed else Phase.ofCode (r.tel.num 0 1))
      (Urgency.ofCode (if c = .doffClaim then r.tel.num 0 1 else r.tel.num 1 1))
      (if c = .doffClaim then r.tel.num 1 2 else r.tel.num 2 2) r.tel (s.setRx rest)) := by
  rcases hc with ⟨rfl, hk⟩ | ⟨rfl, hk⟩
  · have hrow : exec .doffClaim s = .next (handOver .doffClaim takeClaim s) := inRunning_works hw _
    rw [hrow, handOver_takes h hk, takeClaim_eq]
    rfl
  · have hrow : exec .doffState s = .next (handOver .doffState takeDoffState s) := inRunning_works hw _
    rw [hrow, handOver_takes h hk, takeDoffState_eq]
    rfl

theorem dropDoff_raise_effect (u : State) (station : Nat) :
    onlyIn [.doff, .line, .frame] u (raiseAlert .peerViewFull .note (some station) (dropDoff u)) ∧
    (raiseAlert .peerViewFull .note (some station) (dropDoff u)).line = u.line ∧
    (raiseAlert .peerViewFull .note (some station) (dropDoff u)).doff =
      { u.doff with dropped := min 65535 (u.doff.dropped + 1) } ∧
    alerted .peerViewFull (some station) (raiseAlert .peerViewFull .note (some station) (dropDoff u)) :=
  ⟨⟨rfl, fun b hb => by cases b <;> simp_all [Block.same, dropDoff]⟩, rfl, rfl, alerted_raise ..⟩

theorem onlyIn_setRx (rest : List Received) (s : State) : onlyIn [.doff, .line, .frame] s (s.setRx rest) :=
  ⟨rfl, fun b hb => by cases b <;> simp_all [Block.same, State.setRx]⟩

/-- Settles O43: the announcement is dropped, or the view takes it, alone or with the check of a view change. -/
theorem peerViewTakesAnnouncements : Obligations.PeerViewTakesAnnouncements := by
  intro s r rest c hw hrx hc d u phase code urgency wait listed
  have hexec : exec c s = .next (announced phase urgency wait r.tel u) := by
    have hurgency : Urgency.ofCode code = urgency := urgency_ofCode_eq code
    rw [← hurgency]
    exact exec_announcement hw hrx hc
  rw [hexec]
  refine ⟨fun h => by rw [announced_dropped (s := u) h]; rfl, fun ph ur hph hur hsource => ?_⟩
  intro p
  have htaken : announced phase urgency wait r.tel u = takePeer p u := by
    rw [hph, hur]
    exact announced_taken (s := u) hsource
  rw [htaken]
  have hrxs : onlyIn [.doff, .line, .frame] s u := onlyIn_setRx rest s
  refine ⟨fun hnew hfull => ?_, fun hroom => ?_⟩
  · rw [takePeer_unlisted (u := u) hnew, if_pos hfull]
    obtain ⟨honly, heffect⟩ := dropDoff_raise_effect u p.station
    exact ⟨_, rfl, onlyIn_trans hrxs honly, heffect⟩
  · have hchange := takePeer_change (p := p) (u := u) hroom
    obtain ⟨honly, hview⟩ := view_of_change hchange
    have hchanges := takePeer_viewChange (p := p) (u := u) hroom
    have hmere := takePeer_mere (p := p) (u := u)
    generalize takePeer p u = t at *
    refine ⟨t, rfl, onlyIn_trans hrxs honly, fun h => hview.trans (viewTaken_listed h), fun h => ?_, fun h1 h2 h3 => ?_,
      fun h hsame => ?_, fun hd hlisten => ?_, fun hd hlisten hdiffer => ?_, fun hd hdiffer => ?_⟩
    · rw [hview, viewTaken_new h]
      exact ⟨rfl, mem_insertPeer ..⟩
    · rw [hview]
      exact viewed_idle hchange ⟨h1, h2, h3⟩
    · rw [hview, viewTaken_listed h]
      exact hmere h hsame
    · rw [hview]
      exact viewed_listening hchange hd hlisten
    · rw [hview]
      obtain ⟨hgrants, hkeeps⟩ := viewChanged_grants (u := u.viewing (viewTaken p u.doff.view)) hd hlisten
      rw [show t = _ from hchanges hdiffer]
      exact ⟨fun hg => ⟨(hgrants hg).1, sends_viewing (hgrants hg).2⟩, fun hg => hkeeps hg⟩
    · rw [hview]
      obtain ⟨hbacks, hkeeps⟩ := viewChanged_backsOff (u := u.viewing (viewTaken p u.doff.view)) hd
      rw [show t = _ from hchanges hdiffer]
      exact ⟨fun hb => hkeeps (Nat.not_le.2 hb), fun hb => ⟨(hbacks hb).1, sends_viewing (hbacks hb).2⟩⟩

/-! ### DOFF_DONE, DOFF_WITHDRAW, STATION_RESTART and silence (R135, R136) -/

/-- Settles O44: the entries that fail the test leave the view, alone or with the check of a view change. -/
theorem peersLeaveTheView : Obligations.PeersLeaveTheView := by
  intro s hw gone
  have hgone : ∀ (c : Instr) (rx : List Received) (keep : Peer → Bool),
      exec c s = .next (keepPeers keep (s.setRx rx)) → gone c rx keep := by
    intro c rx keep hexec
    change ∃ t, exec c s = .next t ∧ _
    let u := s.setRx rx
    have hchange := keepPeers_change keep u
    obtain ⟨honly, hview⟩ := view_of_change hchange
    have hall := keepPeers_all (keep := keep) (u := u)
    have hsome := keepPeers_some (keep := keep) (u := u)
    refine ⟨keepPeers keep u, hexec, ?_⟩
    generalize keepPeers keep u = t at *
    refine ⟨onlyIn_trans (onlyIn_setRx rx s) honly, hview, hall, fun h1 h2 h3 => viewed_idle hchange ⟨h1, h2, h3⟩,
      fun hd hlisten => viewed_listening hchange hd hlisten, fun hd hlisten hleaves => ?_, fun hd hleaves => ?_⟩
    · obtain ⟨hgrants, hkeeps⟩ := viewChanged_grants (u := u.viewing (u.doff.view.filter keep)) hd hlisten
      rw [show t = _ from hsome hleaves]
      exact ⟨fun hg => ⟨(hgrants hg).1, sends_viewing (hgrants hg).2⟩, fun hg => hkeeps hg⟩
    · obtain ⟨hbacks, hkeeps⟩ := viewChanged_backsOff (u := u.viewing (u.doff.view.filter keep)) hd
      rw [show t = _ from hsome hleaves]
      exact ⟨fun hb => ⟨(hbacks hb).1, sends_viewing (hbacks hb).2⟩, fun hb => hkeeps hb⟩
  refine ⟨hgone .peerSilence s.line.rx _ (inRunning_works hw _), fun r rest hrx => ?_⟩
  intro other
  refine ⟨fun hk => hgone .doffDone rest other ?_, fun hk => hgone .doffWithdraw rest other ?_,
    fun hk htaken => hgone .stationRestartDoff _ other ?_⟩
  · have hrow : exec .doffDone s = .next (handOver .doffDone (fun t => peerGone t.source) s) := inRunning_works hw _
    rw [hrow, handOver_takes hrx hk]
    rfl
  · have hrow : exec .doffWithdraw s = .next (handOver .doffWithdraw (fun t => peerGone t.source) s) := inRunning_works hw _
    rw [hrow, handOver_takes hrx hk]
    rfl
  · have hrow : exec .stationRestartDoff s = .next (takeRestart Received.byDoff (fun r => { r with byDoff := true }) peerGone s) :=
      inRunning_works hw _
    rw [hrow, takeRestart_takes hrx hk htaken]
    have hdone : (if Received.done { r with byDoff := true } = true then rest else { r with byDoff := true } :: rest) =
        if r.byPiecing ∧ r.byCreel then rest else { r with byDoff := true } :: rest :=
      if_congr (by simp [Received.done]) rfl rfl
    rw [hdone]
    rfl

end Sys2Proof.Machine
end

section
/-! PROOFS. The engagements, the bars and the counts of the piecing engine through the operations of the spindle table: these move
records between queues and waiting sets and touch nothing else of the engine. -/

namespace Sys2Proof.Machine

/-! ### The engine beside its queues -/

/-- The piecing engine but for its queues and waiting sets. -/
def Piecing.besideQueues (p : Piecing) : Piecing :=
  { p with a := { p.a with queue := [], waiting := [] }, b := { p.b with queue := [], waiting := [] } }

/-- The engagements, the bars and the counts of the engine. -/
def State.engines (s : State) : Piecing := s.pie.besideQueues

theorem engines_of_pie {s t : State} (h : t.pie = s.pie) : t.engines = s.engines := by
  rw [State.engines, h, State.engines]

theorem eng_of_engines {s t : State} (h : t.engines = s.engines) (x : Side) : t.eng x = s.eng x := by
  have ha : t.engines.a.eng = s.engines.a.eng := by rw [h]
  have hb : t.engines.b.eng = s.engines.b.eng := by rw [h]
  cases x
  · exact ha
  · exact hb

theorem bar_of_engines {s t : State} (h : t.engines = s.engines) (x : Side) : (t.side x).bar = (s.side x).bar := by
  have ha : t.engines.a.bar = s.engines.a.bar := by rw [h]
  have hb : t.engines.b.bar = s.engines.b.bar := by rw [h]
  cases x
  · exact ha
  · exact hb

theorem nextTag_of_engines {s t : State} (h : t.engines = s.engines) : t.pie.nextTag = s.pie.nextTag := by
  have htag : t.engines.nextTag = s.engines.nextTag := by rw [h]
  exact htag

theorem each_engines (l : List Nat) {f : Nat → State → State} (h : ∀ i s, (f i s).engines = s.engines) (s : State) :
    (each l f s).engines = s.engines := each_keeps State.engines l f h s

/-! ### The operations of the spindle table -/

@[simp] theorem setSp_engines (i : Nat) (r : Spindle) (s : State) : (setSp i r s).engines = s.engines := rfl

@[simp] theorem modifySp_engines (i : Nat) (f : Spindle → Spindle) (s : State) : (modifySp i f s).engines = s.engines := rfl

@[simp] theorem raiseAlert_engines (code : AlertCode) (cls : AlertClass) (subject : Option Nat) (s : State) :
    (raiseAlert code cls subject s).engines = s.engines := rfl

@[simp] theorem enqueue_engines (k : Kind) (dest : Nat) (payload : List Byte) (s : State) :
    (enqueue k dest payload s).engines = s.engines := engines_of_pie (by simp)

@[simp] theorem countEvent_engines (k : Counted) (s : State) : (countEvent k s).engines = s.engines := rfl

@[simp] theorem modifySec_engines (k : Nat) (f : Section → Section) (s : State) : (modifySec k f s).engines = s.engines := rfl

@[simp] theorem touch_engines (i : Nat) (s : State) : (touch i s).engines = s.engines := engines_of_pie (by simp)

@[simp] theorem book_engines (i : Nat) (s : State) : (book i s).engines = s.engines := engines_of_pie (by simp)

@[simp] theorem endsDownCheck_engines (s : State) : (endsDownCheck s).engines = s.engines := engines_of_pie (by simp)

@[simp] theorem requeue_engines (i : Nat) (old new : SpState) (s : State) : (requeue i old new s).engines = s.engines := by
  unfold requeue
  cases s.sideOf i <;> rfl

@[simp] theorem enter_engines (i : Nat) (st : SpState) (s : State) : (enter i st s).engines = s.engines := by
  have hmove : (requeue i ((touch i s).sp i).state st
      (setSp i (((touch i s).sp i).moved st (touch i s).now (touch i s).count) (touch i s))).engines = s.engines := by
    rw [requeue_engines, setSp_engines, touch_engines]
  unfold enter
  dsimp only
  split
  · exact hmove
  · rw [endsDownCheck_engines, hmove]

@[simp] theorem bookEnter_engines (i : Nat) (st : SpState) (s : State) : (bookEnter i st s).engines = s.engines := by
  rw [bookEnter, enter_engines, book_engines]

@[simp] theorem joinQueue_engines (i : Nat) (s : State) : (joinQueue i s).engines = s.engines := by
  unfold joinQueue
  split <;> simp

@[simp] theorem refillSide_engines (n : Nat) (x : Side) (s : State) : (refillSide n x s).engines = s.engines := by
  induction n generalizing s with
  | zero => rfl
  | succ n ih =>
    unfold refillSide
    split
    · cases (s.side x).waiting with
      | nil => rfl
      | cons i rest => exact (ih _).trans (enter_engines i .queued s)
    · rfl

@[simp] theorem refill_engines (s : State) : (refill s).engines = s.engines := by
  rw [refill, refillSide_engines, refillSide_engines]

@[simp] theorem makeRogue_engines (i : Nat) (s : State) : (makeRogue i s).engines = s.engines := by
  simp [makeRogue]

@[simp] theorem place_engines (k : Placement) (i : Nat) (s : State) : (place k i s).engines = s.engines := by
  unfold place
  dsimp only
  split <;> simp

@[simp] theorem failedPiecing_engines (i : Nat) (s : State) : (failedPiecing i s).engines = s.engines := by
  unfold failedPiecing
  dsimp only
  repeat' split
  all_goals simp

@[simp] theorem returnToPiecing_engines (i : Nat) (s : State) : (returnToPiecing i s).engines = s.engines := by
  unfold returnToPiecing
  repeat' split
  all_goals simp

@[simp] theorem returnOrdered_engines (x : Side) (s : State) : (returnOrdered x s).engines = s.engines := by
  unfold returnOrdered
  cases (s.eng x).order <;> simp

/-! ### The engagement set -/

theorem eng_setEng_ne {x y : Side} (h : y ≠ x) (e : Engagement) (s : State) : (setEng x e s).eng y = s.eng y := by
  cases x with
  | a =>
    cases y with
    | a => exact absurd rfl h
    | b => rfl
  | b =>
    cases y with
    | a => rfl
    | b => exact absurd rfl h

end Sys2Proof.Machine
end

section
/-! PROOFS. Selection: the oldest escalated entry, else the nearest ahead, else the nearest the other way (R72). -/

namespace Sys2Proof.Machine

/-! ### The record that waits first (R52, R72) -/

/-- Record `i` waits no later than record `j`: an older down-since, or the lower index among equals. -/
def State.noLater (s : State) (i j : Nat) : Prop :=
  (s.sp i).downSince.getD 0 < (s.sp j).downSince.getD 0 ∨
    (s.sp i).downSince.getD 0 = (s.sp j).downSince.getD 0 ∧ i ≤ j

theorem noLater_refl (s : State) (i : Nat) : s.noLater i i := .inr ⟨rfl, Nat.le_refl i⟩

theorem noLater_trans {s : State} {i j k : Nat} (hij : s.noLater i j) (hjk : s.noLater j k) : s.noLater i k := by
  unfold State.noLater at *
  omega

theorem noLater_of_waitsBefore {s : State} {i j : Nat} (h : s.waitsBefore i j = true) : s.noLater i j := by
  simp only [State.waitsBefore, Bool.or_eq_true, Bool.and_eq_true, decide_eq_true_eq, beq_iff_eq] at h
  exact h.imp_right fun h => ⟨h.1, Nat.le_of_lt h.2⟩

theorem noLater_of_not_waitsBefore {s : State} {i j : Nat} (h : s.waitsBefore i j = false) : s.noLater j i := by
  simp only [State.waitsBefore, Bool.or_eq_false_iff, Bool.and_eq_false_iff, decide_eq_false_iff_not, beq_eq_false_iff_ne] at h
  unfold State.noLater
  omega

/-- The better of two records, as the fold of `firstOf` keeps it. -/
def State.better (s : State) (best : Option Nat) (i : Nat) : Option Nat :=
  match best with
  | none => some i
  | some j => if s.waitsBefore i j then some i else some j

theorem firstOf_eq (s : State) (l : List Nat) : s.firstOf l = l.foldl s.better none := rfl

theorem better_some (s : State) (j i : Nat) :
    ∃ k, s.better (some j) i = some k ∧ (k = j ∨ k = i) ∧ s.noLater k j ∧ s.noLater k i := by
  by_cases h : s.waitsBefore i j = true
  · exact ⟨i, if_pos h, .inr rfl, noLater_of_waitsBefore h, noLater_refl s i⟩
  · exact ⟨j, if_neg h, .inl rfl, noLater_refl s j, noLater_of_not_waitsBefore (by simpa using h)⟩

theorem foldl_better (s : State) (l : List Nat) (j : Nat) : ∃ k, l.foldl s.better (some j) = some k ∧
    (k = j ∨ k ∈ l) ∧ s.noLater k j ∧ ∀ i ∈ l, s.noLater k i := by
  induction l generalizing j with
  | nil => exact ⟨j, rfl, .inl rfl, noLater_refl s j, fun i hi => absurd hi List.not_mem_nil⟩
  | cons i rest ih =>
    obtain ⟨m, hm, hmem, hmj, hmi⟩ := better_some s j i
    obtain ⟨k, hk, hkmem, hkm, hrest⟩ := ih m
    refine ⟨k, by rw [List.foldl_cons, hm, hk], ?_, noLater_trans hkm hmj, ?_⟩
    · rcases hkmem with rfl | hkmem
      · rcases hmem with rfl | rfl
        · exact .inl rfl
        · exact .inr List.mem_cons_self
      · exact .inr (List.mem_cons_of_mem _ hkmem)
    · intro a ha
      rcases List.mem_cons.1 ha with rfl | ha
      · exact noLater_trans hkm hmi
      · exact hrest a ha

/-- The record that waits first is of the list, and none of the list waits longer; there is one unless the list is empty. -/
theorem firstOf_spec (s : State) (l : List Nat) :
    (s.firstOf l = none ↔ l = []) ∧ ∀ i, s.firstOf l = some i → i ∈ l ∧ ∀ j ∈ l, s.noLater i j := by
  rw [firstOf_eq]
  cases l with
  | nil => exact ⟨iff_of_true rfl rfl, fun i hi => nomatch hi⟩
  | cons j rest =>
    obtain ⟨k, hk, hmem, hkj, hrest⟩ := foldl_better s rest j
    rw [List.foldl_cons, show s.better none j = some j from rfl, hk]
    refine ⟨iff_of_false nofun nofun, fun i hi => ?_⟩
    obtain rfl : k = i := Option.some.inj hi
    refine ⟨?_, fun a ha => ?_⟩
    · rcases hmem with rfl | hmem
      · exact List.mem_cons_self
      · exact List.mem_cons_of_mem _ hmem
    · rcases List.mem_cons.1 ha with rfl | ha
      · exact hkj
      · exact hrest a ha

/-! ### The nearest of a list (R72) -/

/-- The nearer of two, as the fold of `nearest` keeps it. -/
def nearer (dist : Nat → Option Nat) (best : Option (Nat × Nat)) (i : Nat) : Option (Nat × Nat) :=
  match dist i, best with
  | none, b => b
  | some d, none => some (d, i)
  | some d, some (d0, i0) => if d < d0 then some (d, i) else some (d0, i0)

theorem nearest_eq (dist : Nat → Option Nat) (l : List Nat) : nearest dist l = (l.foldl (nearer dist) none).map Prod.snd := rfl

/-- What the fold keeps is an index of the list with its distance, and none of the list is nearer. -/
def nearestOf (dist : Nat → Option Nat) (l : List Nat) (best : Option (Nat × Nat)) : Prop :=
  (best = none → ∀ j ∈ l, dist j = none) ∧
  ∀ d i, best = some (d, i) → i ∈ l ∧ dist i = some d ∧ ∀ j ∈ l, ∀ d', dist j = some d' → d ≤ d'

theorem nearestOf_nearer {dist : Nat → Option Nat} {l : List Nat} {best : Option (Nat × Nat)} (h : nearestOf dist l best)
    (i : Nat) : nearestOf dist (l ++ [i]) (nearer dist best i) := by
  obtain ⟨hnone, hsome⟩ := h
  have hlast : ∀ {p : Nat → Prop}, (∀ j ∈ l, p j) → p i → ∀ j ∈ l ++ [i], p j := fun hl hi j hj =>
    (List.mem_append.1 hj).elim (hl j) fun hj => List.mem_singleton.1 hj ▸ hi
  unfold nearer
  cases hd : dist i with
  | none =>
    refine ⟨fun hb => hlast (hnone hb) hd, fun d k hb => ?_⟩
    obtain ⟨hmem, hk, hleast⟩ := hsome d k hb
    exact ⟨List.mem_append_left _ hmem, hk, hlast hleast fun d' hd' => by rw [hd] at hd'; exact nomatch hd'⟩
  | some d =>
    cases best with
    | none =>
      refine ⟨nofun, fun e k hb => ?_⟩
      obtain ⟨rfl, rfl⟩ : d = e ∧ i = k := by simpa using hb
      refine ⟨List.mem_append_right _ (List.mem_singleton.2 rfl), hd, hlast (fun j hj d' hd' => ?_) fun d' hd' => ?_⟩
      · rw [hnone rfl j hj] at hd'; exact nomatch hd'
      · rw [hd] at hd'; exact Nat.le_of_eq (Option.some.inj hd')
    | some best =>
      obtain ⟨d0, i0⟩ := best
      obtain ⟨hmem, hi0, hleast⟩ := hsome d0 i0 rfl
      dsimp only
      split
      · next hlt =>
        refine ⟨nofun, fun e k hb => ?_⟩
        obtain ⟨rfl, rfl⟩ : d = e ∧ i = k := by simpa using hb
        refine ⟨List.mem_append_right _ (List.mem_singleton.2 rfl), hd, hlast (fun j hj d' hd' => ?_) fun d' hd' => ?_⟩
        · exact Nat.le_trans (Nat.le_of_lt hlt) (hleast j hj d' hd')
        · rw [hd] at hd'; exact Nat.le_of_eq (Option.some.inj hd')
      · next hge =>
        refine ⟨nofun, fun e k hb => ?_⟩
        obtain ⟨rfl, rfl⟩ : d0 = e ∧ i0 = k := by simpa using hb
        refine ⟨List.mem_append_left _ hmem, hi0, hlast hleast fun d' hd' => ?_⟩
        rw [hd] at hd'
        exact Option.some.inj hd' ▸ Nat.not_lt.1 hge

theorem nearestOf_foldl (dist : Nat → Option Nat) (l : List Nat) : nearestOf dist l (l.foldl (nearer dist) none) := by
  induction l using List.reverseRecOn with
  | nil => exact ⟨fun _ j hj => absurd hj List.not_mem_nil, nofun⟩
  | append_singleton l i ih =>
    rw [List.foldl_append]
    exact nearestOf_nearer ih i

/-- The nearest index has the least distance of the list; there is none only where no index has a distance. -/
theorem nearest_spec (dist : Nat → Option Nat) (l : List Nat) :
    (nearest dist l = none ↔ ∀ j ∈ l, dist j = none) ∧ ∀ i, nearest dist l = some i →
      i ∈ l ∧ ∃ d, dist i = some d ∧ ∀ j ∈ l, ∀ d', dist j = some d' → d ≤ d' := by
  obtain ⟨hnone, hsome⟩ := nearestOf_foldl dist l
  rw [nearest_eq]
  cases hbest : l.foldl (nearer dist) none with
  | none => exact ⟨iff_of_true rfl (hnone hbest), nofun⟩
  | some best =>
    obtain ⟨d, k⟩ := best
    obtain ⟨hmem, hd, hleast⟩ := hsome d k hbest
    refine ⟨iff_of_false nofun fun hall => ?_, fun i hi => ?_⟩
    · rw [hall k hmem] at hd; exact nomatch hd
    · obtain rfl : k = i := Option.some.inj hi
      exact ⟨hmem, d, hd, hleast⟩

/-! ### The selection -/

/-- The escalated indices of an engagement's entries. -/
def State.escalatedOf (s : State) (x : Side) : List Nat := ((s.servedEntries x).filter (·.escalated)).map QueueEntry.index

/-- The distance of an index ahead of an engagement's position in a direction. -/
def State.aheadOf (s : State) (x : Side) (asc : Bool) : Nat → Option Nat :=
  distanceAhead s.joined s.cfg.spindles ((s.eng x).position.getD 1) asc

theorem selection_escalated {s : State} {x : Side} {i : Nat} (h : s.firstOf (s.escalatedOf x) = some i) :
    s.selection x = some (i, (s.eng x).ascending) := by
  unfold State.escalatedOf at h
  unfold State.selection
  dsimp only
  rw [h]

theorem selection_ahead {s : State} {x : Side} {i : Nat} (h : s.firstOf (s.escalatedOf x) = none)
    (hnear : nearest (s.aheadOf x (s.eng x).ascending) ((s.servedEntries x).map QueueEntry.index) = some i) :
    s.selection x = some (i, (s.eng x).ascending) := by
  unfold State.escalatedOf at h
  unfold State.aheadOf at hnear
  unfold State.selection
  dsimp only
  rw [h]
  dsimp only
  rw [hnear]

theorem selection_back {s : State} {x : Side} (h : s.firstOf (s.escalatedOf x) = none)
    (hnear : nearest (s.aheadOf x (s.eng x).ascending) ((s.servedEntries x).map QueueEntry.index) = none) :
    s.selection x = (nearest (s.aheadOf x (!(s.eng x).ascending)) ((s.servedEntries x).map QueueEntry.index)).map
      (fun i => (i, !(s.eng x).ascending)) := by
  unfold State.escalatedOf at h
  unfold State.aheadOf at hnear ⊢
  unfold State.selection
  dsimp only
  rw [h]
  dsimp only
  rw [hnear]

theorem mem_escalatedOf {s : State} {x : Side} {i : Nat} :
    i ∈ s.escalatedOf x ↔ ∃ e ∈ s.servedEntries x, e.escalated = true ∧ e.index = i := by
  simp [State.escalatedOf, and_assoc]

/-- In one direction or the other every index has a distance. -/
theorem aheadOf_total (s : State) (x : Side) (asc : Bool) (i : Nat) :
    (s.aheadOf x asc i).isSome = true ∨ (s.aheadOf x (!asc) i).isSome = true := by
  unfold State.aheadOf distanceAhead
  cases s.joined
  · rcases Nat.le_total ((s.eng x).position.getD 1) i with h | h <;> cases asc <;> simp [h]
  · exact .inl rfl

theorem aheadOf_eq (s : State) (x : Side) (asc : Bool) (i : Nat) : s.aheadOf x asc i =
    if s.cfg.joined = 1 then
      some ((if asc then i + s.cfg.spindles - (s.eng x).position.getD 1 else (s.eng x).position.getD 1 + s.cfg.spindles - i) %
        s.cfg.spindles)
    else if asc then (if (s.eng x).position.getD 1 ≤ i then some (i - (s.eng x).position.getD 1) else none)
    else (if i ≤ (s.eng x).position.getD 1 then some ((s.eng x).position.getD 1 - i) else none) := by
  unfold State.aheadOf distanceAhead State.joined
  exact if_congr (by simp) rfl rfl

/-- A nearest index of the entries, said of the entries. -/
theorem nearest_entry {dist : Nat → Option Nat} {entries : List QueueEntry} {i : Nat}
    (h : nearest dist (entries.map QueueEntry.index) = some i) : (∃ e ∈ entries, e.index = i) ∧
      ∃ d, dist i = some d ∧ ∀ e ∈ entries, ∀ d', dist e.index = some d' → d ≤ d' := by
  obtain ⟨hmem, d, hd, hleast⟩ := (nearest_spec dist _).2 i h
  exact ⟨List.mem_map.1 hmem, d, hd, fun e he => hleast e.index (List.mem_map_of_mem he)⟩

theorem nearest_none {dist : Nat → Option Nat} {entries : List QueueEntry}
    (h : nearest dist (entries.map QueueEntry.index) = none) : ∀ e ∈ entries, dist e.index = none :=
  fun _ he => (nearest_spec dist _).1.1 h _ (List.mem_map_of_mem he)

theorem selection_none_iff (s : State) (x : Side) : s.selection x = none ↔ s.servedEntries x = [] := by
  cases hfirst : s.firstOf (s.escalatedOf x) with
  | some i =>
    obtain ⟨e, he, -⟩ := mem_escalatedOf.1 ((firstOf_spec s _).2 i hfirst).1
    rw [selection_escalated hfirst]
    exact iff_of_false nofun (List.ne_nil_of_mem he)
  | none =>
    cases hahead : nearest (s.aheadOf x (s.eng x).ascending) ((s.servedEntries x).map QueueEntry.index) with
    | some i =>
      rw [selection_ahead hfirst hahead]
      obtain ⟨⟨e, he, -⟩, -⟩ := nearest_entry hahead
      exact iff_of_false nofun (List.ne_nil_of_mem he)
    | none =>
      rw [selection_back hfirst hahead]
      cases hback : nearest (s.aheadOf x (!(s.eng x).ascending)) ((s.servedEntries x).map QueueEntry.index) with
      | some i =>
        obtain ⟨⟨e, he, -⟩, -⟩ := nearest_entry hback
        exact iff_of_false nofun (List.ne_nil_of_mem he)
      | none =>
        refine iff_of_true rfl (List.eq_nil_iff_forall_not_mem.2 fun e he => ?_)
        have htotal := aheadOf_total s x (s.eng x).ascending e.index
        rw [nearest_none hahead e he, nearest_none hback e he] at htotal
        simp at htotal

/-- Settles O24. -/
theorem selectionTakesEscalatedThenNearest : Obligations.SelectionTakesEscalatedThenNearest := by
  intro s x entries ascending p n since ahead nearestIn
  have hahead : ∀ asc i, ahead asc i = s.aheadOf x asc i := fun asc i => (aheadOf_eq s x asc i).symm
  refine ⟨fun i asc hselected => ?_, selection_none_iff s x⟩
  cases hfirst : s.firstOf (s.escalatedOf x) with
  | some k =>
    obtain ⟨hmem, hleast⟩ := (firstOf_spec s _).2 k hfirst
    obtain ⟨e, he, hescalated, hindex⟩ := mem_escalatedOf.1 hmem
    rw [selection_escalated hfirst] at hselected
    obtain ⟨rfl, rfl⟩ : k = i ∧ (s.eng x).ascending = asc := by simpa using hselected
    refine ⟨e, he, hindex, fun _ => ⟨rfl, hescalated, fun f hf hesc => hleast _ (mem_escalatedOf.2 ⟨f, hf, hesc, rfl⟩)⟩,
      fun hnone => ?_⟩
    exact absurd hescalated (by simp [hnone e he])
  | none =>
    have hplain : ∀ e ∈ entries, e.escalated = false := by
      have hempty := (firstOf_spec s _).1.1 hfirst
      intro e he
      by_contra hesc
      have hmem := mem_escalatedOf.2 ⟨e, he, by simpa using hesc, rfl⟩
      rw [hempty] at hmem
      exact absurd hmem List.not_mem_nil
    have hnoEscalated : ¬ ∃ e ∈ entries, e.escalated = true := fun ⟨e, he, hesc⟩ => by simp [hplain e he] at hesc
    simp only [nearestIn, hahead]
    cases hnear : nearest (s.aheadOf x (s.eng x).ascending) ((s.servedEntries x).map QueueEntry.index) with
    | some k =>
      rw [selection_ahead hfirst hnear] at hselected
      obtain ⟨rfl, rfl⟩ : k = i ∧ (s.eng x).ascending = asc := by simpa using hselected
      obtain ⟨⟨e, he, hindex⟩, d, hd, hleast⟩ := nearest_entry hnear
      refine ⟨e, he, hindex, fun h => absurd h hnoEscalated, fun _ => ⟨⟨d, hd, hleast⟩, fun _ => rfl, fun hall => ?_⟩⟩
      have hnone := hall e he
      rw [hindex, hd] at hnone
      exact nomatch hnone
    | none =>
      rw [selection_back hfirst hnear] at hselected
      obtain ⟨k, hback, heq⟩ := Option.map_eq_some_iff.1 hselected
      obtain ⟨rfl, rfl⟩ : k = i ∧ (!(s.eng x).ascending) = asc := by simpa using heq
      obtain ⟨⟨e, he, hindex⟩, hleast⟩ := nearest_entry hback
      refine ⟨e, he, hindex, fun h => absurd h hnoEscalated, fun _ => ⟨hleast, fun ⟨f, hf, hsome⟩ => ?_, fun _ => rfl⟩⟩
      rw [nearest_none hnear f hf] at hsome
      exact absurd hsome (by simp)

end Sys2Proof.Machine
end

section
/-! PROOFS. Offers (R64, R67). -/

namespace Sys2Proof.Machine

/-! ### The engagement set, and what an enqueue leaves of the engine -/

theorem setEng_pie_congr {s t : State} (h : t.pie = s.pie) (x : Side) (e : Engagement) :
    (setEng x e t).pie = (setEng x e s).pie := by
  cases x
  · exact congrArg (fun p : Piecing => { p with a := { p.a with eng := e } }) h
  · exact congrArg (fun p : Piecing => { p with b := { p.b with eng := e } }) h

theorem eng_of_pie {s t : State} (h : t.pie = s.pie) (x : Side) : t.eng x = s.eng x := by
  cases x
  · exact congrArg (fun p : Piecing => p.a.eng) h
  · exact congrArg (fun p : Piecing => p.b.eng) h

theorem side_of_pie {s t : State} (h : t.pie = s.pie) (x : Side) : t.side x = s.side x := by
  cases x
  · exact congrArg Piecing.a h
  · exact congrArg Piecing.b h

theorem joined_iff (s : State) : s.joined = true ↔ s.cfg.joined = 1 := by simp [State.joined]

theorem setEng_onlyIn (x : Side) (e : Engagement) (s : State) : onlyIn [.pie] s (setEng x e s) :=
  ⟨by simp, fun b hb => by cases b <;> simp_all [Block.same]⟩

theorem enqueue_onlyIn (kind : Kind) (dest : Nat) (payload : List Byte) (s : State) :
    onlyIn [.line, .frame] s (enqueue kind dest payload s) :=
  ⟨by simp, fun b hb => by cases b <;> simp_all [Block.same]⟩

theorem setRx_onlyIn (rest : List Received) (s : State) : onlyIn [.line] s (s.setRx rest) :=
  ⟨rfl, fun b hb => by cases b <;> simp_all [Block.same, State.setRx]⟩

/-- One event after another, each within the blocks of the list. -/
theorem onlyIn_seq {as bs cs : List Block} {s t u : State} (h : onlyIn as s t) (h' : onlyIn bs t u) (has : as ⊆ cs) (hbs : bs ⊆ cs) :
    onlyIn cs s u := onlyIn_trans (onlyIn_mono h has) (onlyIn_mono h' hbs)

theorem sends_setEng {s t : State} {kind : Kind} {dest : Nat} {payload : List Byte} (h : sends kind dest payload s t) (x : Side)
    (e : Engagement) : sends kind dest payload s (setEng x e t) :=
  ⟨(by simp : (setEng x e t).line = t.line).trans h.1, (by simp : (setEng x e t).frame = t.frame).trans h.2⟩

/-! ### An offer (R67) -/

theorem offeredSide_eq (s : State) (code : Nat) : s.offeredSide code =
    if s.cfg.joined = 1 then (if code ≤ 2 then some .a else none)
    else if code = 0 then some .a else if code = 1 then some .b else none := by
  unfold State.offeredSide
  exact if_congr (joined_iff s) rfl rfl

theorem accepts_iff (s : State) (robot : Nat) (x : Side) : s.accepts robot x = true ↔
    (s.eng x).state = .calling ∧ (∀ b, (s.side x).bar = some b → b.robot ≠ robot) ∧
      (s.eng (otherSide x)).robot ≠ some robot := by
  cases hbar : (s.side x).bar <;> simp [State.accepts, hbar, and_assoc]

/-- The side named in an answer to an offer of a side (R64). -/
theorem sideName_offered {s : State} {code : Nat} {x : Side} (h : s.offeredSide code = some x) :
    s.sideName x = if s.cfg.joined = 1 then 2 else code := by
  rw [offeredSide_eq] at h
  by_cases hj : s.cfg.joined = 1
  · rw [State.sideName, if_pos ((joined_iff s).2 hj), if_pos hj]
    rfl
  · rw [if_neg hj] at h
    rw [State.sideName, if_neg (mt (joined_iff s).1 hj), if_neg hj]
    split at h
    · next hcode => cases h; exact hcode.symm
    · split at h
      · next hcode => cases h; exact hcode.symm
      · exact nomatch h

theorem takeOffer_accepted {t : Telegram} {s : State} {x : Side} (hside : s.offeredSide (t.num 0 1) = some x)
    (h : s.accepts t.source x = true) : takeOffer t s =
      setEng x { s.eng x with
        state := .awaiting, robot := some t.source, timeouts := 0, timer := some (s.del.seconds + s.cfg.arrivalTime)
        nextCall := none } (enqueue .robotAccept t.source (field 1 (s.sideName x)) s) := by
  have heng : ∀ u : State, u = enqueue .robotAccept t.source (field 1 (s.sideName x)) s →
      u.eng x = s.eng x ∧ u.now = s.now ∧ u.cfg = s.cfg := by
    rintro u rfl
    exact ⟨eng_of_pie (by simp) x, by simp [State.now], cfg_of_port (by simp)⟩
  unfold takeOffer
  dsimp only
  rw [hside]
  dsimp only
  rw [if_pos h, (heng _ rfl).1, (heng _ rfl).2.1, (heng _ rfl).2.2]
  rfl

theorem takeOffer_declined {t : Telegram} {s : State}
    (h : ∀ x, s.offeredSide (t.num 0 1) = some x → ¬ s.accepts t.source x = true) :
    takeOffer t s = enqueue .robotDecline t.source (field 1 (s.answerCode (t.num 0 1))) s := by
  unfold takeOffer
  dsimp only
  cases hside : s.offeredSide (t.num 0 1) with
  | none => rfl
  | some x => exact if_neg (h x hside)

theorem answerCode_eq (s : State) (code : Nat) :
    s.answerCode code = if s.cfg.joined = 1 ∧ code ≤ 2 then 2 else code := by
  unfold State.answerCode
  exact if_congr (and_congr_left' (joined_iff s)) rfl rfl

/-- Settles O22. -/
theorem offerAcceptedOrDeclined : Obligations.OfferAcceptedOrDeclined := by
  intro s r rest hw hrx hk code robot u taken other open_
  have hrow : exec .robotOffer s = .next (takeOffer r.tel u) := by
    have hexec : exec .robotOffer s = .next (handOver .robotOffer takeOffer s) := inRunning_works hw _
    rw [hexec, handOver_takes hrx hk]
    rfl
  have htaken : u.offeredSide code = taken := offeredSide_eq u code
  have hopen : ∀ x, u.accepts robot x = true ↔ open_ x := fun x => by
    have hother : otherSide x = other x := by cases x <;> rfl
    rw [accepts_iff, hother]
    rfl
  rw [hrow]
  refine ⟨fun x hx ho => ?_, fun hno => ?_⟩
  · have hside : u.offeredSide code = some x := htaken.trans hx
    have hname : u.sideName x = if s.cfg.joined = 1 then 2 else code := sideName_offered hside
    rw [takeOffer_accepted (s := u) hside ((hopen x).2 ho), hname]
    have hqueued := onlyIn_seq (cs := [.pie, .line, .frame]) (setRx_onlyIn rest s)
      (enqueue_onlyIn .robotAccept robot (field 1 (if s.cfg.joined = 1 then 2 else code)) u) (by simp) (by simp)
    refine ⟨_, rfl, onlyIn_seq hqueued (setEng_onlyIn x _ _) (by simp) (by simp), sends_setEng ⟨rfl, rfl⟩ x _, ?_⟩
    have hpie : (enqueue .robotAccept robot (field 1 (if s.cfg.joined = 1 then 2 else code)) u).pie = u.pie := by simp
    exact setEng_pie_congr (s := s) hpie x _
  · have hdeclined : ∀ x, u.offeredSide code = some x → ¬ u.accepts robot x = true := fun x hx ha =>
      hno x (htaken.symm.trans hx) ((hopen x).1 ha)
    rw [takeOffer_declined (s := u) hdeclined, answerCode_eq]
    exact ⟨_, rfl, onlyIn_seq (setRx_onlyIn rest s) (enqueue_onlyIn ..) (by simp) (by simp), rfl, rfl⟩

end Sys2Proof.Machine
end

section
/-! PROOFS. Calls, releases and cancels: what an engagement sends and becomes (R60, R65, R70, R79). -/

namespace Sys2Proof.Machine

/-! ### The summary of a PIECE_CALL (R60) -/

/-- Two states of which a PIECE_CALL says the same: the same records, queues, waiting sets, configuration and second. -/
structure SameSummary (s t : State) : Prop where
  mon : t.mon = s.mon
  now : t.del.seconds = s.del.seconds
  cfg : t.cfg = s.cfg
  queue : ∀ y, (t.side y).queue = (s.side y).queue
  waiting : ∀ y, (t.side y).waiting = (s.side y).waiting

theorem SameSummary.trans {s t u : State} (h : SameSummary s t) (h' : SameSummary t u) : SameSummary s u :=
  ⟨h'.mon.trans h.mon, h'.now.trans h.now, h'.cfg.trans h.cfg, fun y => (h'.queue y).trans (h.queue y),
    fun y => (h'.waiting y).trans (h.waiting y)⟩

theorem SameSummary.refl (s : State) : SameSummary s s := ⟨rfl, rfl, rfl, fun _ => rfl, fun _ => rfl⟩

theorem SameSummary.symm {s t : State} (h : SameSummary s t) : SameSummary t s :=
  ⟨h.mon.symm, h.now.symm, h.cfg.symm, fun y => (h.queue y).symm, fun y => (h.waiting y).symm⟩

/-- The summary reads neither the line nor the frame nor an engagement. -/
theorem SameSummary.of_pie {s t : State} (hmon : t.mon = s.mon) (hdel : t.del = s.del) (hport : t.port = s.port) (hpie : t.pie = s.pie) :
    SameSummary s t :=
  ⟨hmon, congrArg Delivery.seconds hdel, cfg_of_port hport, fun y => by rw [side_of_pie hpie], fun y => by rw [side_of_pie hpie]⟩

theorem sameSummary_enqueue (kind : Kind) (dest : Nat) (payload : List Byte) (s : State) :
    SameSummary s (enqueue kind dest payload s) := .of_pie (by simp) (by simp) (by simp) (by simp)

theorem sameSummary_setEng (x : Side) (e : Engagement) (s : State) : SameSummary s (setEng x e s) :=
  ⟨by simp, by simp, cfg_of_port (by simp), fun _ => by simp, fun _ => by simp⟩

section
variable {s t : State} (h : SameSummary s t)
include h

theorem SameSummary.served (x : Side) : t.served x = s.served x := by
  unfold State.served State.joined
  rw [h.cfg]

theorem SameSummary.entries (x : Side) : t.servedEntries x = s.servedEntries x := by
  rw [State.servedEntries, State.servedEntries, h.served]
  simp only [h.queue]

theorem SameSummary.servedWaiting (x : Side) : t.servedWaiting x = s.servedWaiting x := by
  rw [State.servedWaiting, State.servedWaiting, h.served]
  simp only [h.waiting]

theorem SameSummary.sideName (x : Side) : t.sideName x = s.sideName x := by
  rw [State.sideName, State.sideName, State.joined, State.joined, h.cfg]

theorem SameSummary.queuesEmpty (x : Side) : t.queuesEmpty x = s.queuesEmpty x := by
  rw [State.queuesEmpty, State.queuesEmpty, h.entries]

theorem SameSummary.oldestAge (l : List Nat) : t.oldestAge l = s.oldestAge l := by
  simp only [State.oldestAge, State.now, h.now, sp_of_mon h.mon]

theorem SameSummary.callOf (x : Side) (lowest highest : Nat) : callOf x lowest highest t = callOf x lowest highest s := by
  simp only [Machine.callOf, h.entries, h.servedWaiting, h.sideName, h.oldestAge]

theorem SameSummary.callIndices {x : Side} {lowest highest : Nat} (hs : callIndices x lowest highest s) :
    callIndices x lowest highest t := by
  unfold Machine.callIndices at *
  rw [h.entries]
  exact hs
end

/-! ### A PIECE_CALL (R60, R65) -/

theorem enqueue_setDraws (kind : Kind) (dest : Nat) (payload : List Byte) (n : Nat) (s : State) :
    enqueue kind dest payload { s with draws := n } = { enqueue kind dest payload s with draws := n } := by
  have hrun : State.running { s with draws := n } = s.running := rfl
  have hcfg : State.cfg { s with draws := n } = s.cfg := rfl
  unfold enqueue joinLine telegramDropped
  rw [hrun, hcfg]
  split
  · dsimp only
    split <;> rfl
  · rfl

/-- A PIECE_CALL is one enqueue of the summary; only one over empty queues takes free values for its indices. -/
theorem pieceCall_eq (x : Side) (s : State) : ∃ lowest highest draws : Nat,
    pieceCall x s = { enqueue .pieceCall 0 (callOf x lowest highest s).2.2 s with draws := draws } ∧
    callIndices x lowest highest s ∧
    ∀ e f, (s.servedEntries x).head? = some e → (s.servedEntries x).getLast? = some f → draws = s.draws := by
  have hpayload : ∀ lo hi, callPayload (s.sideName x) ((s.servedEntries x).map QueueEntry.index ++ s.servedWaiting x).length
      (s.oldestAge ((s.servedEntries x).map QueueEntry.index ++ s.servedWaiting x)) lo hi = (callOf x lo hi s).2.2 := by
    intro lo hi
    simp [callOf]
  unfold pieceCall
  dsimp only
  cases hhead : (s.servedEntries x).head? with
  | none =>
    dsimp only
    rw [hpayload, enqueue_setDraws]
    exact ⟨_, _, _, rfl, fun e f he _ => (by rw [hhead] at he; exact nomatch he), fun e f he _ => nomatch he⟩
  | some e =>
    cases hlast : (s.servedEntries x).getLast? with
    | none =>
      have hempty : s.servedEntries x = [] := List.getLast?_eq_none_iff.1 hlast
      rw [hempty] at hhead
      exact nomatch hhead
    | some f =>
      dsimp only
      rw [hpayload]
      refine ⟨e.index, f.index, s.draws, ?_, fun e' f' he hf => ?_, fun _ _ _ _ => rfl⟩
      · have hdraws : (enqueue .pieceCall 0 (callOf x e.index f.index s).2.2 s).draws = s.draws := by simp
        rw [← hdraws]
      · rw [hhead] at he; rw [hlast] at hf
        cases he; cases hf
        exact ⟨rfl, rfl⟩

/-! ### CALLING and IDLE (R65, R66) -/

/-- An engagement at the beginning of a calling spell. -/
def Engagement.calls (now : Nat) (e : Engagement) : Engagement :=
  { e with
    state := .calling, robot := none, order := none, position := none, timer := none, sinceCall := 0
    nextCall := some (now + 10), called := false }

/-- An engagement at rest. -/
def Engagement.idles (e : Engagement) : Engagement :=
  { e with state := .idle, robot := none, order := none, position := none, timer := none, nextCall := none }

/-- What an event of one engagement leaves: the bars, queues and waiting sets, and the other engagement. -/
structure EngagementOnly (x : Side) (e : Engagement) (s t : State) : Prop where
  eng : t.eng x = e
  other : ∀ y, y ≠ x → t.eng y = s.eng y
  bar : ∀ y, (t.side y).bar = (s.side y).bar
  summary : SameSummary s t

theorem EngagementOnly.of_pie {x : Side} {e : Engagement} {s t : State} (hpie : t.pie = (setEng x e s).pie) (hmon : t.mon = s.mon)
    (hdel : t.del = s.del) (hport : t.port = s.port) : EngagementOnly x e s t := by
  have hside : ∀ y, t.side y = (setEng x e s).side y := side_of_pie hpie
  refine ⟨(eng_of_pie hpie x).trans (by simp), fun y hy => (eng_of_pie hpie y).trans (eng_setEng_ne hy e s), fun y => ?_, hmon,
    congrArg Delivery.seconds hdel, cfg_of_port hport, fun y => ?_, fun y => ?_⟩ <;> rw [hside y] <;> simp

theorem engagementOnly_setEng (x : Side) (e : Engagement) (s : State) : EngagementOnly x e s (setEng x e s) :=
  .of_pie rfl (by simp) (by simp) (by simp)

theorem enterIdle_eq (x : Side) (s : State) : enterIdle x s = setEng x (s.eng x).idles s := rfl

theorem enterCalling_eq (x : Side) (s : State) : enterCalling x s = pieceCall x (setEng x ((s.eng x).calls s.del.seconds) s) := rfl

/-- The beginning of a calling spell: one PIECE_CALL, and the engagement calls. -/
theorem enterCalling_effect (x : Side) (s : State) :
    EngagementOnly x ((s.eng x).calls s.del.seconds) s (enterCalling x s) ∧
    onlyIn [.pie, .line, .frame, .draws] s (enterCalling x s) ∧
    ∃ lowest highest, hands [callOf x lowest highest (enterCalling x s)] s (enterCalling x s) ∧
      callIndices x lowest highest (enterCalling x s) := by
  obtain ⟨lowest, highest, draws, heq, hindices, -⟩ := pieceCall_eq x (setEng x ((s.eng x).calls s.del.seconds) s)
  have honly : EngagementOnly x ((s.eng x).calls s.del.seconds) s (enterCalling x s) :=
    .of_pie (by rw [enterCalling_eq]; simp) (by simp) (by simp) (by simp)
  refine ⟨honly, ⟨by simp, fun b hb => by cases b <;> simp_all [Block.same]⟩, lowest, highest, ?_, ?_⟩
  · rw [honly.summary.callOf, ← (sameSummary_setEng x ((s.eng x).calls s.del.seconds) s).callOf, enterCalling_eq, heq]
    exact enqueue_line_congr (s := s) (t := setEng x ((s.eng x).calls s.del.seconds) s) (by simp) (by simp) .pieceCall 0 _
  · exact honly.summary.callIndices ((sameSummary_setEng x _ s).symm.callIndices hindices)

/-! ### Releases and cancels (R70, R79) -/

theorem sendRelease_some {x : Side} {s : State} {robot : Nat} (h : (s.eng x).robot = some robot) :
    sendRelease x s = enqueue .robotRelease robot (field 1 (s.sideName x)) s := by
  unfold sendRelease
  rw [h]

theorem sendRelease_none {x : Side} {s : State} (h : (s.eng x).robot = none) : sendRelease x s = s := by
  unfold sendRelease
  rw [h]

theorem sendCancel_some {x : Side} {s : State} {robot : Nat} {o : Order} (h : (s.eng x).robot = some robot)
    (ho : (s.eng x).order = some o) : sendCancel x s = enqueue .workCancel robot (field 2 o.index ++ field 1 o.tag) s := by
  unfold sendCancel
  rw [h, ho]

theorem sendRelease_hands {x : Side} {s : State} {robot : Nat} (h : (s.eng x).robot = some robot) :
    hands [releaseOf x robot s] s (sendRelease x s) := by
  rw [sendRelease_some h]
  rfl

theorem sendCancel_hands {x : Side} {s : State} {robot : Nat} {o : Order} (h : (s.eng x).robot = some robot)
    (ho : (s.eng x).order = some o) : hands [cancelOf robot o] s (sendCancel x s) := by
  rw [sendCancel_some h ho]
  rfl

end Sys2Proof.Machine
end

section
/-! PROOFS. The timers and marks of the piecing engine: escalation, the hold, the repeated call, NO_ROBOT, bars and arrivals (R52,
R56, R65, R66, R68, R70). -/

namespace Sys2Proof.Machine

/-! ### Escalation and the hold (R52, R56) -/

theorem escalated_eq (s : State) (q : List QueueEntry) : s.escalated q = q.map (fun e => { e with
    escalated := e.escalated ||
      decide (s.cfg.escalationAge ≤ s.del.seconds - (s.sp e.index).downSince.getD s.del.seconds) }) := by
  refine List.map_congr_left fun e _ => ?_
  have hage : (s.sp e.index).age s.now = s.del.seconds - (s.sp e.index).downSince.getD s.del.seconds := rfl
  rw [hage]
  split
  · next h => rw [decide_eq_true h, Bool.or_true]
  · next h => rw [decide_eq_false h, Bool.or_false]

theorem held_eq (now : Nat) (r : Spindle) : r.held now =
    if r.state = .up ∧ (∃ p, r.piecedAt = some p ∧ p + 60 ≤ now) then { r with attempts := 0, piecedAt := none } else r := by
  unfold Spindle.held
  by_cases hup : r.state = .up
  · rw [hup]
    cases hpieced : r.piecedAt with
    | none => simp
    | some p => exact if_congr (by simp [Config.holdSeconds]) rfl rfl
  · have hno : ¬ (r.state = .up ∧ ∃ p, r.piecedAt = some p ∧ p + 60 ≤ now) := fun h => hup h.1
    rw [if_neg hno]
    cases hstate : r.state with
    | up => exact absurd hstate hup
    | _ => rfl

/-- The records after PIECING_HOLD. -/
theorem sp_mapped {s : State} {f : Spindle → Spindle} {i : Nat} (hi : s.hasSpindle i = true) :
    State.sp { s with mon := { s.mon with spindles := s.mon.spindles.map f } } i = f (s.sp i) :=
  nth_map Spindle.blank f (range_of_has hi).1 (range_of_has hi).2

/-! ### The repeated call and NO_ROBOT (R65, R66) -/

theorem exec_pieceCallRepeat {s : State} (hw : s.works) {x : Side} {due : Nat} (hstate : (s.eng x).state = .calling)
    (hnext : (s.eng x).nextCall = some due) (hdue : due ≤ s.del.seconds) : exec (.pieceCallRepeat x) s =
      .next (setEng x { s.eng x with nextCall := some (due + 10) } (pieceCall x s)) := by
  have hreached : reached s.now (s.eng x).nextCall = true := by rw [hnext]; exact reached_some.2 hdue
  have heng : (pieceCall x s).eng x = s.eng x := eng_of_pie (by simp) x
  have hrow : exec (.pieceCallRepeat x) s = execPieceCallRepeat x s := rfl
  rw [hrow, execPieceCallRepeat, inRunning_works hw, if_pos ⟨hstate, hreached⟩]
  dsimp only
  rw [heng, hnext]
  rfl

theorem pieceCallRepeat_effect (x : Side) (e : Engagement) (s : State) :
    let t := setEng x e (pieceCall x s)
    onlyIn [.pie, .line, .frame, .draws] s t ∧ t.pie = (setEng x e s).pie ∧
    ∃ lowest highest : Nat,
      sends .pieceCall 0 (callPayload (s.sideName x) ((s.servedEntries x).length + (s.servedWaiting x).length)
        (s.oldestAge ((s.servedEntries x).map QueueEntry.index ++ s.servedWaiting x)) lowest highest) s t ∧
      ∀ a b, (s.servedEntries x).head? = some a → (s.servedEntries x).getLast? = some b →
        lowest = a.index ∧ highest = b.index ∧ t.draws = s.draws := by
  intro t
  obtain ⟨lowest, highest, draws, heq, hindices, hdraws⟩ := pieceCall_eq x s
  have ht : t = setEng x e { enqueue .pieceCall 0 (callOf x lowest highest s).2.2 s with draws := draws } := by
    simp only [t, heq]
  refine ⟨⟨by simp [t], fun b hb => by cases b <;> simp_all [Block.same, t]⟩, setEng_pie_congr (by simp) x e, lowest, highest,
    ?_, fun a b ha hb => ⟨(hindices a b ha hb).1, (hindices a b ha hb).2, ?_⟩⟩
  · have hsends : sends .pieceCall 0 (callOf x lowest highest s).2.2 s
        { enqueue .pieceCall 0 (callOf x lowest highest s).2.2 s with draws := draws } := ⟨rfl, rfl⟩
    rw [ht]
    exact sends_setEng hsends x e
  · rw [ht]
    exact (setEng_frame x e _).2.2.2.2.2.2.2.2.1.trans (hdraws a b ha hb)

theorem exec_pieceCallRepeat_idle {s : State} (hw : s.works) {x : Side}
    (h : (s.eng x).state ≠ .calling ∨ ∀ due, (s.eng x).nextCall = some due → s.del.seconds < due) :
    exec (.pieceCallRepeat x) s = .next s := by
  have hno : ¬ ((s.eng x).state = .calling ∧ reached s.now (s.eng x).nextCall = true) := by
    rintro ⟨hstate, hreached⟩
    obtain ⟨due, hnext, hdue⟩ := reached_iff_exists.1 hreached
    exact absurd ((h.resolve_left (not_not.2 hstate)) due hnext) (Nat.not_lt.2 hdue)
  have hrow : exec (.pieceCallRepeat x) s = execPieceCallRepeat x s := rfl
  rw [hrow, execPieceCallRepeat, inRunning_works hw, if_neg hno]

theorem exec_sinceCallLimit {s : State} (hw : s.works) (x : Side) : exec (.sinceCallLimit x) s = .next
    (if (s.eng x).state = .calling ∧ 600 ≤ (s.eng x).sinceCall ∧ (s.eng x).called = false then
      { s with
        pie := (setEng x { s.eng x with called := true } s).pie
        frame := s.frame.raised .noRobot .action (some (match x with | .a => 0 | .b => 1)) s.del.seconds }
    else s) := by
  have hrow : exec (.sinceCallLimit x) s = execSinceCallLimit x s := rfl
  rw [hrow, execSinceCallLimit, inRunning_works hw]
  cases x <;> rfl

/-! ### The end of a bar (R68) -/

theorem exec_barEnd_some {s : State} (hw : s.works) {x : Side} {b : Bar} (h : (s.side x).bar = some b) :
    exec (.barEnd x) s = .next (if b.ends ≤ s.del.seconds then setSide x { s.side x with bar := none } s else s) := by
  have hrow : exec (.barEnd x) s = execBarEnd x s := rfl
  rw [hrow, execBarEnd, inRunning_works hw, h]
  exact congrArg _ (if_congr reached_some rfl rfl)

theorem exec_barEnd_none {s : State} (hw : s.works) {x : Side} (h : (s.side x).bar = none) :
    exec (.barEnd x) s = .next s := by
  have hrow : exec (.barEnd x) s = execBarEnd x s := rfl
  rw [hrow, execBarEnd, inRunning_works hw, h]
  rfl

/-! ### The arrival timer (R70) -/

theorem exec_arrivalTimeout {s : State} (hw : s.works) {x : Side} {due : Nat} (hstate : (s.eng x).state = .awaiting)
    (htimer : (s.eng x).timer = some due) (hdue : due ≤ s.del.seconds) :
    exec (.arrivalTimeout x) s = .next (callOrIdle x (sendRelease x s)) := by
  have hreached : reached s.now (s.eng x).timer = true := by rw [htimer]; exact reached_some.2 hdue
  have hrow : exec (.arrivalTimeout x) s = execArrivalTimeout x s := rfl
  rw [hrow, execArrivalTimeout, inRunning_works hw, if_pos ⟨hstate, hreached⟩]

theorem exec_arrivalTimeout_idle {s : State} (hw : s.works) {x : Side}
    (h : (s.eng x).state ≠ .awaiting ∨ ∀ due, (s.eng x).timer = some due → s.del.seconds < due) :
    exec (.arrivalTimeout x) s = .next s := by
  have hno : ¬ ((s.eng x).state = .awaiting ∧ reached s.now (s.eng x).timer = true) := by
    rintro ⟨hstate, hreached⟩
    obtain ⟨due, htimer, hdue⟩ := reached_iff_exists.1 hreached
    exact absurd ((h.resolve_left (not_not.2 hstate)) due htimer) (Nat.not_lt.2 hdue)
  have hrow : exec (.arrivalTimeout x) s = execArrivalTimeout x s := rfl
  rw [hrow, execArrivalTimeout, inRunning_works hw, if_neg hno]

theorem callOrIdle_empty {x : Side} {s : State} (h : s.queuesEmpty x = true) : callOrIdle x s = enterIdle x s := if_pos h

theorem callOrIdle_calls {x : Side} {s : State} (h : s.queuesEmpty x = false) : callOrIdle x s = enterCalling x s :=
  if_neg (by simp [h])

/-- What the release of an awaited robot leaves: a release in the queue, and the engine as it was. -/
theorem sendRelease_effect {x : Side} {s : State} {robot : Nat} (h : (s.eng x).robot = some robot) :
    sends .robotRelease robot (field 1 (s.sideName x)) s (sendRelease x s) ∧ onlyIn [.line, .frame] s (sendRelease x s) ∧
    SameSummary s (sendRelease x s) ∧ ∀ y, (sendRelease x s).side y = s.side y := by
  rw [sendRelease_some h]
  exact ⟨⟨rfl, rfl⟩, enqueue_onlyIn .., sameSummary_enqueue .., side_of_pie (by simp)⟩

/-- Calling or idle after a change of the line alone: what the engagement becomes, and its one PIECE_CALL if it calls. -/
theorem callOrIdle_effect (x : Side) (s : State) :
    let t := callOrIdle x s
    let e := if s.queuesEmpty x = true then (s.eng x).idles else (s.eng x).calls s.del.seconds
    EngagementOnly x e s t ∧ onlyIn [.pie, .line, .frame, .draws] s t ∧
    (s.queuesEmpty x = true → t.line = s.line ∧ t.frame = s.frame) ∧
    (s.queuesEmpty x = false → ∃ lowest highest, hands [callOf x lowest highest t] s t ∧ callIndices x lowest highest t) := by
  intro t e
  cases hempty : s.queuesEmpty x with
  | true =>
    simp only [t, e, callOrIdle_empty hempty, if_pos hempty, enterIdle_eq]
    exact ⟨engagementOnly_setEng .., onlyIn_mono (setEng_onlyIn ..) (by simp), fun _ => ⟨by simp, by simp⟩, nofun⟩
  | false =>
    have hne : ¬ s.queuesEmpty x = true := by simp [hempty]
    simp only [t, e, callOrIdle_calls hempty, if_neg hne]
    obtain ⟨honly, hblocks, hcall⟩ := enterCalling_effect x s
    exact ⟨honly, hblocks, nofun, fun _ => hcall⟩

/-- An arrival timer that is reached: the robot released, and the engagement idle or in a new calling spell. -/
theorem arrivalTimeout_effect {x : Side} {s : State} {robot : Nat} (h : (s.eng x).robot = some robot) :
    let t := callOrIdle x (sendRelease x s)
    let e := if s.queuesEmpty x = true then (s.eng x).idles else (s.eng x).calls s.del.seconds
    EngagementOnly x e s t ∧ onlyIn [.pie, .line, .frame, .draws] s t ∧
    (s.queuesEmpty x = true → sends .robotRelease robot (field 1 (s.sideName x)) s t) ∧
    (s.queuesEmpty x = false → handsCall x [releaseOf x robot s] s t) := by
  intro t e
  obtain ⟨hsends, hblocks, hsummary, hside⟩ := sendRelease_effect h
  obtain ⟨honly, hblocks', hidle, hcalls⟩ := callOrIdle_effect x (sendRelease x s)
  have hport : (sendRelease x s).port = s.port := by simp
  have heng : (sendRelease x s).eng = s.eng := funext fun y => congrArg SidePiecing.eng (hside y)
  rw [hsummary.queuesEmpty, heng, hsummary.now] at honly
  rw [hsummary.queuesEmpty] at hidle hcalls
  refine ⟨⟨honly.eng, fun y hy => (honly.other y hy).trans (congrFun heng y),
    fun y => (honly.bar y).trans (congrArg SidePiecing.bar (hside y)), hsummary.trans honly.summary⟩,
    onlyIn_seq hblocks hblocks' (by simp) (by simp), fun hempty => ?_, fun hempty => ?_⟩
  · exact ⟨(hidle hempty).1.trans hsends.1, (hidle hempty).2.trans hsends.2⟩
  · obtain ⟨lowest, highest, hcall, hindices⟩ := hcalls hempty
    exact ⟨lowest, highest, hands_trans (sendRelease_hands h) hport hcall, hindices⟩

/-- Settles O20. -/
theorem piecingTimersAndMarks : Obligations.PiecingTimersAndMarks := by
  refine ⟨⟨fun s hw => ?_, fun s hw => ⟨_, inRunning_works hw _, rfl, List.length_map _, fun i hi => ?_⟩⟩,
    fun s x hw => ⟨fun due hstate hnext hdue => ?_, exec_pieceCallRepeat_idle hw, exec_sinceCallLimit hw x,
      fun b hbar => exec_barEnd_some hw hbar, exec_barEnd_none hw⟩,
    fun s x hw => ⟨fun due robot hstate htimer hdue hrobot => ?_, exec_arrivalTimeout_idle hw⟩⟩
  · have hrow : exec .escalation s = execEscalation s := rfl
    rw [hrow, execEscalation, inRunning_works hw, escalated_eq, escalated_eq]
  · exact (sp_mapped hi).trans (held_eq s.del.seconds (s.sp i))
  · exact ⟨_, exec_pieceCallRepeat hw hstate hnext hdue, pieceCallRepeat_effect x _ s⟩
  · obtain ⟨⟨heng, hother, hbar, hsummary⟩, hblocks, hidle, hcalls⟩ := arrivalTimeout_effect (x := x) hrobot
    rw [exec_arrivalTimeout hw hstate htimer hdue]
    refine ⟨_, rfl, hblocks, fun y => ⟨hbar y, hsummary.queue y, hsummary.waiting y, hother y⟩, ?_, ?_, ?_, ?_,
      fun hempty => ⟨?_, ?_, hidle hempty⟩, fun hempty => ⟨?_, ?_, ?_, hcalls hempty⟩⟩
    all_goals rw [heng]
    iterate 4 split <;> rfl
    all_goals simp [hempty, Engagement.idles, Engagement.calls]

end Sys2Proof.Machine
end

section
/-! PROOFS. Placement of breaks and failed piecings (R45 to R49, R54, R57). -/

namespace Sys2Proof.Machine

/-! ### A record that is placed (R45 to R47) -/

/-- The record as the placement hands it to its queue or to ROGUE. -/
def Spindle.placed (k : Placement) (r : Spindle) : Spindle := { r with attempts := r.placedAttempts k, piecedAt := none }

/-- The placement makes the record rogue (R45, R48). -/
def State.placesRogue (k : Placement) (i : Nat) (s : State) : Prop :=
  k = .sensed ∧ (s.cfg.attemptLimit ≤ (s.sp i).placedAttempts k ∨ s.cfg.rogueLimit ≤ (s.sp i).shiftBreaks)

theorem place_rogue {k : Placement} {i : Nat} {s : State} (hc : s.shift.closing = none) (h : s.placesRogue k i) :
    place k i s = makeRogue i (setSp i ((s.sp i).placed k) s) := by
  unfold place
  rw [touch_idle hc]
  exact if_pos h

theorem place_joins {k : Placement} {i : Nat} {s : State} (hc : s.shift.closing = none) (h : ¬ s.placesRogue k i) :
    place k i s = joinQueue i (setSp i ((s.sp i).placed k) s) := by
  unfold place
  rw [touch_idle hc]
  exact if_neg h

theorem placedAttempts_eq (k : Placement) (r : Spindle) : r.placedAttempts k =
    match k with
    | .sensed => if r.piecedAt = none then r.attempts else min 5 (r.attempts + 1)
    | .reload => 0
    | .found | .settle => r.attempts := by
  cases k with
  | sensed =>
    cases hp : r.piecedAt with
    | none => simp [Spindle.placedAttempts, hp]
    | some p => simp only [Spindle.placedAttempts, hp]; rfl
  | _ => rfl

/-! ### What joins a queue, and what becomes rogue -/

/-- A record that joins its side's queue, with its place there (R46). -/
theorem joinQueue_effect {i : Nat} {s : State} (hi : s.hasSpindle i = true) (hc : s.shift.closing = none) :
    let t := joinQueue i s
    ((t.sp i).state = .queued ∨ (t.sp i).state = .waiting) ∧ (t.sp i).cause = some .brk ∧
    (t.sp i).attempts = (s.sp i).attempts ∧ (t.sp i).shiftBreaks = (s.sp i).shiftBreaks ∧ (t.sp i).lazy = (s.sp i).lazy ∧
    (t.sp i).rogueMark = (s.sp i).rogueMark ∧ ((s.sp i).piecedAt = none → (t.sp i).piecedAt = none) ∧
    ((s.sp i).state.isDown = true → (t.sp i).downSince = (s.sp i).downSince ∧ (t.sp i).bookedTo = (s.sp i).bookedTo) ∧
    ((s.side (s.sideOf i)).queue.length < 48 → (t.sp i).state = .queued) ∧
    (48 ≤ (s.side (s.sideOf i)).queue.length → (t.sp i).state = .waiting) := by
  intro t
  have hself : t.sp i = _ := joinQueue_self hi hc
  have hcapacity : Config.queueCapacity = 48 := rfl
  rw [hself]
  by_cases hroom : (s.side (s.sideOf i)).queue.length < Config.queueCapacity
  · rw [if_pos hroom]
    refine ⟨.inl (moved_state ..), moved_cause .., ?_, moved_shiftBreaks .., moved_lazy .., moved_rogueMark .., fun hp => ?_,
      fun hd => (moved_down hd rfl _ _).symm, fun _ => moved_state .., fun hfull => absurd hroom (by omega)⟩
    · simp [moved_attempts]
    · simp [moved_piecedAt, hp]
  · rw [if_neg hroom]
    refine ⟨.inr (moved_state ..), moved_cause .., ?_, moved_shiftBreaks .., moved_lazy .., moved_rogueMark .., fun hp => ?_,
      fun hd => (moved_down hd rfl _ _).symm, fun hfull => absurd hfull (by omega), fun _ => moved_state ..⟩
    · simp [moved_attempts]
    · simp [moved_piecedAt, hp]

/-- A record made rogue: booked, marked and alerted (R49). -/
theorem makeRogue_effect {i : Nat} {s : State} (hi : s.hasSpindle i = true) (hc : s.shift.closing = none) :
    let t := makeRogue i s
    (t.sp i).state = .rogue ∧ (t.sp i).cause = some .rogue ∧ (t.sp i).rogueMark = true ∧
    (t.sp i).attempts = (s.sp i).attempts ∧ (t.sp i).shiftBreaks = (s.sp i).shiftBreaks ∧ (t.sp i).lazy = (s.sp i).lazy ∧
    ((s.sp i).piecedAt = none → (t.sp i).piecedAt = none) ∧
    ((s.sp i).state.isDown = true → (t.sp i).downSince = (s.sp i).downSince ∧
      ((s.sp i).bookedTo.isSome = true → (t.sp i).bookedTo = some s.del.count)) := by
  intro t
  obtain ⟨hstate, hattempts, hbreaks, hdown, hlazy, -, hpieced, -, hbooked⟩ := book_fields hi hc
  have hself : t.sp i = _ := makeRogue_self hi hc
  rw [hself]
  refine ⟨moved_state .., moved_cause .., moved_rogueMark .., ?_, ?_, ?_, fun hp => ?_, fun hd => ?_⟩
  · simp [moved_attempts, hattempts]
  · rw [moved_shiftBreaks]; exact hbreaks
  · rw [moved_lazy]; exact hlazy
  · rw [moved_piecedAt]; simp [hpieced, hp]
  · obtain ⟨hto, hsince⟩ := moved_down (st := .rogue) (r := { (book i s).sp i with rogueMark := true })
      (by rw [hstate]; exact hd) rfl (book i s).now (book i s).count
    exact ⟨hsince.trans hdown, fun hb => hto.trans (hbooked hb)⟩

/-- What a placement leaves of the record, whether it becomes rogue or joins its queue. -/
theorem place_effect {k : Placement} {i : Nat} {s : State} (hi : s.hasSpindle i = true) (hc : s.shift.closing = none) :
    let t := place k i s
    (t.sp i).attempts = (s.sp i).placedAttempts k ∧ (t.sp i).piecedAt = none ∧ (t.sp i).shiftBreaks = (s.sp i).shiftBreaks ∧
    (t.sp i).lazy = (s.sp i).lazy ∧ (∀ j, j ≠ i → t.sp j = s.sp j) ∧
    ((s.sp i).state.isDown = true → (t.sp i).downSince = (s.sp i).downSince) ∧
    (s.placesRogue k i → (t.sp i).state = .rogue ∧ (t.sp i).cause = some .rogue ∧ (t.sp i).rogueMark = true ∧
      alerted .rogueSpindle (some i) t) ∧
    (¬ s.placesRogue k i → (t.sp i).cause = some .brk ∧ (t.sp i).rogueMark = (s.sp i).rogueMark ∧
      ((s.side (s.sideOf i)).queue.length < 48 → (t.sp i).state = .queued ∧
        { index := i, escalated := decide (s.cfg.escalationAge ≤ (t.sp i).age s.now) } ∈ (t.side (s.sideOf i)).queue) ∧
      (48 ≤ (s.side (s.sideOf i)).queue.length → (t.sp i).state = .waiting ∧ i ∈ (t.side (s.sideOf i)).waiting)) := by
  intro t
  have hsp : (setSp i ((s.sp i).placed k) s).sp i = (s.sp i).placed k :=
    sp_setSp_self i _ s (range_of_has hi).1 (range_of_has hi).2
  have hi' : (setSp i ((s.sp i).placed k) s).hasSpindle i = true := by simpa using hi
  have hother : ∀ j, j ≠ i → (setSp i ((s.sp i).placed k) s).sp j = s.sp j := fun j hj => sp_setSp_ne i j _ s hj.symm
  by_cases hrogue : s.placesRogue k i
  · obtain ⟨hstate, hcause, hmark, hattempts, hbreaks, hlazy, hpieced, hdown⟩ := makeRogue_effect hi' hc
    have ht : t = makeRogue i (setSp i ((s.sp i).placed k) s) := place_rogue hc hrogue
    rw [hsp] at hattempts hbreaks hlazy hpieced hdown
    rw [ht]
    exact ⟨hattempts, hpieced rfl, hbreaks, hlazy, fun j hj => (makeRogue_ne hj.symm _).trans (hother j hj),
      fun hd => (hdown hd).1, fun _ => ⟨hstate, hcause, hmark, makeRogue_alerted ..⟩, fun hno => absurd hrogue hno⟩
  · obtain ⟨-, hcause, hattempts, hbreaks, hlazy, hmark, hpieced, hdown, hqueued, hwaiting⟩ := joinQueue_effect hi' hc
    obtain ⟨hentry, hset⟩ := joinQueue_side hi' hc
    have ht : t = joinQueue i (setSp i ((s.sp i).placed k) s) := place_joins hc hrogue
    rw [hsp] at hattempts hbreaks hlazy hpieced hdown hmark
    rw [ht]
    exact ⟨hattempts, hpieced rfl, hbreaks, hlazy, fun j hj => (joinQueue_ne hj.symm _).trans (hother j hj),
      fun hd => (hdown hd).1, fun hyes => absurd hyes hrogue, fun _ => ⟨hcause, hmark, fun hroom => ⟨hqueued hroom, hentry hroom⟩,
        fun hfull => ⟨hwaiting hfull, hset hfull⟩⟩⟩

/-- Settles O17. -/
theorem placementQueuesOrMarksRogue : Obligations.PlacementQueuesOrMarksRogue := by
  intro k i s hi hc r t x attempts rogue
  have hattempts : (s.sp i).placedAttempts k = attempts := placedAttempts_eq k r
  have heffect := place_effect (k := k) hi hc
  unfold State.placesRogue at heffect
  rw [hattempts] at heffect
  exact heffect

/-! ### A failed piecing (R54, R57, R59) -/

theorem failedPiecing_other {i : Nat} {s : State} (h : ¬ ((s.sp i).state = .ordered ∨ (s.sp i).state = .confirming)) :
    failedPiecing i s = s := if_neg h

/-- The state in which a failed piecing has cleared pieced-at. -/
def State.unpieced (i : Nat) (s : State) : State := modifySp i (fun r => { r with piecedAt := none }) s

/-- The state in which the failure is counted. -/
def State.failedOnce (i : Nat) (s : State) : State :=
  modifySp i (fun r => { r with attempts := addCapped Config.maxAttempts r.attempts 1 }) (s.unpieced i)

theorem unpieced_sp {i : Nat} {s : State} (hi : s.hasSpindle i = true) :
    (s.unpieced i).sp i = { s.sp i with piecedAt := none } ∧ (s.unpieced i).hasSpindle i = true ∧
    ∀ j, j ≠ i → (s.unpieced i).sp j = s.sp j :=
  ⟨modifySp_sp_self hi _, by simpa [State.unpieced] using hi, fun _ hj => modifySp_sp_ne hj.symm _ s⟩

theorem failedOnce_sp {i : Nat} {s : State} (hi : s.hasSpindle i = true) :
    (s.failedOnce i).sp i = { s.sp i with piecedAt := none, attempts := min 5 ((s.sp i).attempts + 1) } ∧
    (s.failedOnce i).hasSpindle i = true ∧ ∀ j, j ≠ i → (s.failedOnce i).sp j = s.sp j := by
  obtain ⟨hself, hi', hother⟩ := unpieced_sp hi
  refine ⟨?_, by simpa [State.failedOnce] using hi', fun j hj => (modifySp_sp_ne hj.symm _ _).trans (hother j hj)⟩
  rw [State.failedOnce, modifySp_sp_self hi', hself]
  rfl

section
variable {i : Nat} {s : State} (hc : s.shift.closing = none) (hstate : (s.sp i).state = .ordered ∨ (s.sp i).state = .confirming)
include hc hstate

theorem failedPiecing_exchange (hx : s.underExchange i = true) : failedPiecing i s = bookEnter i .exchange (s.unpieced i) := by
  unfold failedPiecing
  rw [if_pos hstate, touch_idle hc]
  exact if_pos hx

theorem failedPiecing_rogue (hi : s.hasSpindle i = true) (hx : s.underExchange i = false)
    (hlimit : s.cfg.attemptLimit ≤ min 5 ((s.sp i).attempts + 1)) : failedPiecing i s = makeRogue i (s.failedOnce i) := by
  have hx' : ¬ State.underExchange (s.unpieced i) i = true := by rw [show State.underExchange (s.unpieced i) i = s.underExchange i from rfl, hx]; simp
  have hlimit' : (s.failedOnce i).cfg.attemptLimit ≤ ((s.failedOnce i).sp i).attempts := by
    rw [(failedOnce_sp hi).1]; exact hlimit
  unfold failedPiecing
  rw [if_pos hstate, touch_idle hc]
  exact (if_neg hx').trans (if_pos hlimit')

theorem failedPiecing_joins (hi : s.hasSpindle i = true) (hx : s.underExchange i = false)
    (hlimit : min 5 ((s.sp i).attempts + 1) < s.cfg.attemptLimit) : failedPiecing i s = joinQueue i (s.failedOnce i) := by
  have hx' : ¬ State.underExchange (s.unpieced i) i = true := by rw [show State.underExchange (s.unpieced i) i = s.underExchange i from rfl, hx]; simp
  have hlimit' : ¬ (s.failedOnce i).cfg.attemptLimit ≤ ((s.failedOnce i).sp i).attempts := by
    rw [(failedOnce_sp hi).1]; exact Nat.not_le.2 hlimit
  unfold failedPiecing
  rw [if_pos hstate, touch_idle hc]
  exact (if_neg hx').trans (if_neg hlimit')
end

/-- A down record that goes to EXCHANGE or EMPTY: booked, without attempts and pieced-at (R22, R57, R92). -/
theorem bookEnter_taken {i : Nat} {s : State} (hi : s.hasSpindle i = true) (hc : s.shift.closing = none) {st : SpState}
    (hst : st = .exchange ∨ st = .empty) (hdown : (s.sp i).state.isDown = true) :
    let t := bookEnter i st s
    (t.sp i).state = st ∧ (t.sp i).cause = some .roving ∧ (t.sp i).attempts = 0 ∧ (t.sp i).piecedAt = none ∧
    (t.sp i).shiftBreaks = (s.sp i).shiftBreaks ∧ (t.sp i).downSince = (s.sp i).downSince ∧
    (t.sp i).lazy = (s.sp i).lazy ∧
    ((s.sp i).bookedTo.isSome = true → (t.sp i).bookedTo = some s.del.count) := by
  intro t
  obtain ⟨hstate, -, hbreaks, hsince, hlazy, -, -, -, hbooked⟩ := book_fields hi hc
  have hself : t.sp i = _ := bookEnter_self hi hc st
  have hisDown : st.isDown = true := by rcases hst with rfl | rfl <;> rfl
  obtain ⟨hto, hdownSince⟩ := moved_down (st := st) (r := (book i s).sp i) (by rw [hstate]; exact hdown) hisDown s.now s.count
  rw [hself]
  refine ⟨moved_state .., ?_, ?_, ?_, ?_, hdownSince.trans hsince, ?_, fun hb => hto.trans (hbooked hb)⟩
  · rw [moved_cause]; rcases hst with rfl | rfl <;> rfl
  · rw [moved_attempts, if_pos hst.symm]
  · rw [moved_piecedAt, if_pos (by tauto)]
  · rw [moved_shiftBreaks]; exact hbreaks
  · rw [moved_lazy]; exact hlazy

theorem underExchange_iff (s : State) (i : Nat) : s.underExchange i = true ↔ (s.sec (stripOf i)).state = .exchanging := by
  simp [State.underExchange]

theorem isDown_ordered {st : SpState} (h : st = .ordered ∨ st = .confirming) : st.isDown = true := by
  rcases h with rfl | rfl <;> rfl

theorem book_shift_idle {i b : Nat} {s : State} (hc : s.shift.closing = none) (hb : (s.sp i).bookedTo = some b) :
    (book i s).shift = { s.shift with opened := s.shift.opened.book (s.sp i).cause (s.del.count - b) } := by
  rw [book_eq hc hb]; rfl

/-- Booking takes its pulses by the record's cause and booked-to alone. -/
theorem book_shift_congr {i : Nat} {s u : State} (hc : s.shift.closing = none) (hshift : u.shift = s.shift)
    (hcount : u.del.count = s.del.count) (hto : (u.sp i).bookedTo = (s.sp i).bookedTo)
    (hcause : (u.sp i).cause = (s.sp i).cause) (hb : (s.sp i).bookedTo.isSome = true) :
    (book i u).shift = (book i s).shift := by
  obtain ⟨b, hb⟩ := Option.isSome_iff_exists.1 hb
  rw [book_shift_idle hc hb, book_shift_idle (by rw [hshift]; exact hc) (hto.trans hb), hshift, hcause, hcount]

/-- What a failed piecing leaves of the record, by its section and its attempts. -/
theorem failedPiecing_effect {i : Nat} {s : State} (hi : s.hasSpindle i = true) (hc : s.shift.closing = none)
    (hbooked : (s.sp i).bookedTo.isSome = true) (hstate : (s.sp i).state = .ordered ∨ (s.sp i).state = .confirming) :
    let t := failedPiecing i s
    let attempts := min 5 ((s.sp i).attempts + 1)
    (t.sp i).piecedAt = none ∧ (t.sp i).shiftBreaks = (s.sp i).shiftBreaks ∧ (t.sp i).downSince = (s.sp i).downSince ∧
    (∀ j, j ≠ i → t.sp j = s.sp j) ∧
    ((s.sec (stripOf i)).state = .exchanging → (t.sp i).state = .exchange ∧ (t.sp i).cause = some .roving ∧
      (t.sp i).attempts = 0 ∧ (t.sp i).bookedTo = some s.del.count ∧ t.shift = (book i s).shift) ∧
    ((s.sec (stripOf i)).state ≠ .exchanging → (t.sp i).attempts = attempts ∧
      (s.cfg.attemptLimit ≤ attempts → (t.sp i).state = .rogue ∧ (t.sp i).rogueMark = true ∧
        (t.sp i).bookedTo = some s.del.count ∧ alerted .rogueSpindle (some i) t ∧ t.shift = (book i s).shift) ∧
      (attempts < s.cfg.attemptLimit → (t.sp i).cause = some .brk ∧ t.shift = s.shift ∧
        ((s.side (s.sideOf i)).queue.length < 48 → (t.sp i).state = .queued) ∧
        (48 ≤ (s.side (s.sideOf i)).queue.length → (t.sp i).state = .waiting) ∧
        (t.sp i).bookedTo = (s.sp i).bookedTo)) := by
  intro t attempts
  have hdown := isDown_ordered hstate
  by_cases hx : (s.sec (stripOf i)).state = .exchanging
  · obtain ⟨hself, hi', hother⟩ := unpieced_sp hi
    have ht : t = bookEnter i .exchange (s.unpieced i) := failedPiecing_exchange hc hstate ((underExchange_iff s i).2 hx)
    obtain ⟨hst, hcause, hzero, hpieced, hbreaks, hsince, -, hto⟩ := bookEnter_taken hi' hc (.inl rfl) (by rw [hself]; exact hdown)
    rw [hself] at hbreaks hsince hto
    rw [ht]
    refine ⟨hpieced, hbreaks, hsince, fun j hj => (bookEnter_sp_ne hj.symm _ _).trans (hother j hj),
      fun _ => ⟨hst, hcause, hzero, hto hbooked, ?_⟩, fun hno => absurd hx hno⟩
    refine (bookEnter_shift_idle (s := s.unpieced i) hc i .exchange).trans ?_
    exact book_shift_congr hc rfl rfl (by rw [hself]) (by rw [hself]) hbooked
  · have hx' : s.underExchange i = false := Bool.eq_false_iff.2 (fun h => hx ((underExchange_iff s i).1 h))
    obtain ⟨hself, hi', hother⟩ := failedOnce_sp hi
    by_cases hlimit : s.cfg.attemptLimit ≤ attempts
    · have ht : t = makeRogue i (s.failedOnce i) := failedPiecing_rogue hc hstate hi hx' hlimit
      obtain ⟨hst, -, hmark, hatt, hbreaks, -, hpieced, hkept⟩ := makeRogue_effect hi' hc
      rw [hself] at hatt hbreaks hpieced hkept
      obtain ⟨hsince, hto⟩ := hkept hdown
      rw [ht]
      refine ⟨hpieced rfl, hbreaks, hsince, fun j hj => (makeRogue_ne hj.symm _).trans (hother j hj), fun h => absurd h hx,
        fun _ => ⟨hatt, fun _ => ⟨hst, hmark, hto hbooked, makeRogue_alerted .., ?_⟩, fun hless => absurd hlimit (Nat.not_le.2 hless)⟩⟩
      refine (makeRogue_shift_idle (s := s.failedOnce i) hc i).trans ?_
      exact book_shift_congr hc rfl rfl (by rw [hself]) (by rw [hself]) hbooked
    · have ht : t = joinQueue i (s.failedOnce i) := failedPiecing_joins hc hstate hi hx' (Nat.not_le.1 hlimit)
      obtain ⟨-, hcause, hatt, hbreaks, -, -, hpieced, hkept, hqueued, hwaiting⟩ := joinQueue_effect hi' hc
      rw [hself] at hatt hbreaks hpieced hkept
      obtain ⟨hsince, hto⟩ := hkept hdown
      rw [ht]
      exact ⟨hpieced rfl, hbreaks, hsince, fun j hj => (joinQueue_ne hj.symm _).trans (hother j hj), fun h => absurd h hx,
        fun _ => ⟨hatt, fun h => absurd h hlimit, fun _ => ⟨hcause, joinQueue_shift_idle (s := s.failedOnce i) hc i, hqueued, hwaiting, hto⟩⟩⟩

/-- A down record of a tabled state has a booked-to. -/
theorem bookedTo_of_isDown {i : Nat} {s : State} (h : s.tabled) (hi : s.hasSpindle i = true)
    (hdown : (s.sp i).state.isDown = true) : (s.sp i).bookedTo.isSome = true := by
  obtain ⟨-, hsound, -⟩ := h
  exact bookedTo_of_sound (hsound _ (sp_mem hi)) (fun hup => by rw [hup] at hdown; exact absurd hdown (by decide))

/-- Settles O18. -/
theorem failedPiecingByItsSection : Obligations.FailedPiecingByItsSection := by
  intro i s htabled hi hc r t attempts
  refine ⟨fun hnot hnot' => failedPiecing_other (not_or.2 ⟨hnot, hnot'⟩), fun hstate => ?_⟩
  obtain ⟨hpieced, hbreaks, hsince, hother, hexchange, helse⟩ :=
    failedPiecing_effect hi hc (bookedTo_of_isDown htabled hi (isDown_ordered hstate)) hstate
  refine ⟨hpieced, hbreaks, hsince, hother, fun hx => ?_, fun hx => ?_⟩
  · obtain ⟨hst, hcause, hzero, hto, -⟩ := hexchange hx
    exact ⟨hst, hcause, hzero, hto⟩
  · obtain ⟨hatt, hrogue, hjoins⟩ := helse hx
    refine ⟨hatt, fun hlimit => ?_, fun hless => ?_⟩
    · obtain ⟨hst, hmark, hto, halert, -⟩ := hrogue hlimit
      exact ⟨hst, hmark, hto, halert⟩
    · obtain ⟨-, -, hqueued, hwaiting, hto⟩ := hjoins hless
      exact ⟨hqueued, hwaiting, hto⟩

end Sys2Proof.Machine
end

section
/-! PROOFS. Refills and work orders (R50, R71, R73), and the arrival of a robot (R69). -/

namespace Sys2Proof.Machine

/-! ### What a refill leaves (R50) -/

/-- What every step of a WAITING record into its side's queue keeps, the refill of the side keeps. -/
theorem refillSide_keepsProp (P : State → Prop) (x : Side)
    (hstep : ∀ (i : Nat) (s : State), s.tabled → s.hasSpindle i = true → s.sideOf i = x → (s.sp i).state = .waiting → P s →
      P (enter i .queued s)) (n : Nat) {s : State} (hs : s.tabled) (h : P s) : P (refillSide n x s) := by
  induction n generalizing s with
  | zero => exact h
  | succ n ih =>
    unfold refillSide
    split
    · next hroom =>
      split
      · exact h
      · next i rest hwaiting =>
        obtain ⟨-, -, hqueued, -⟩ := id hs
        obtain ⟨-, -, -, -, hmem⟩ := hqueued x
        obtain ⟨hi, hside, hstate⟩ := (hmem i).1 (by rw [hwaiting]; simp)
        exact ih (tabled_enter hs i _ ⟨fun _ => hi, fun _ => .inr (by rw [hside]; exact hroom)⟩)
          (hstep i s hs hi hside hstate h)
    · exact h

/-- A move between two states that the ends-down count treats alike raises no alert (R34). -/
theorem enter_frame_of_counts {i : Nat} {st : SpState} {s : State} (h : (s.sp i).state.counts = st.counts) :
    (enter i st s).frame = s.frame := by
  have hstate : ((touch i s).sp i).state.counts = st.counts := by rw [touch_state]; exact h
  unfold enter
  dsimp only
  rw [if_pos hstate]
  simp

theorem side_setSide_ne {x y : Side} (h : y ≠ x) (p : SidePiecing) (s : State) : (setSide x p s).side y = s.side y := by
  cases x <;> cases y <;> simp_all

theorem enter_side_ne {i : Nat} {y : Side} {s : State} (h : y ≠ s.sideOf i) (st : SpState) :
    (enter i st s).side y = s.side y := by
  have hmoved : ∀ old u, u.pie = s.pie → u.port = s.port → (requeue i old st u).side y = s.side y := fun old u hpie hport => by
    have hne : y ≠ u.sideOf i := by rw [sideOf_of_port hport]; exact h
    exact (side_setSide_ne hne _ _).trans (side_of_pie hpie y)
  unfold enter
  dsimp only
  split
  · exact hmoved _ _ (by simp) (by simp)
  · exact (endsDownCheck_side _ _).trans (hmoved _ _ (by simp) (by simp))

theorem refill_frame_kept {s : State} (hs : s.tabled) : (refill s).frame = s.frame := by
  have hone : ∀ x {u : State}, u.tabled → u.frame = s.frame → (refillSide Config.queueCapacity x u).frame = s.frame :=
    fun x u hu h => refillSide_keepsProp (fun v => v.frame = s.frame) x
      (fun i v _ _ _ hstate hv => (enter_frame_of_counts (by rw [hstate]; rfl)).trans hv) _ hu h
  exact hone .b (tabled_refillSide hs _ _) (hone .a hs rfl)

theorem refillSide_side_ne {x y : Side} (h : y ≠ x) (n : Nat) {s : State} (hs : s.tabled) :
    (refillSide n x s).side y = s.side y :=
  refillSide_keepsProp (fun v => v.side y = s.side y) x
    (fun i v _ _ hside _ hv => (enter_side_ne (by rw [hside]; exact h) .queued).trans hv) n hs rfl

/-- A side whose queue has room only where nobody waits is not refilled. -/
theorem refillSide_settled {y : Side} {s : State} (h : (s.side y).queue.length < 48 → (s.side y).waiting = []) (n : Nat) :
    refillSide n y s = s := by
  cases n with
  | zero => rfl
  | succ n =>
    unfold refillSide
    split
    · next hroom => rw [h hroom]
    · rfl

theorem refill_side_settled {y : Side} {s : State} (hs : s.tabled) (h : (s.side y).queue.length < 48 → (s.side y).waiting = []) :
    (refill s).side y = s.side y := by
  unfold refill
  cases y with
  | a =>
    rw [refillSide_side_ne (by decide) _ (tabled_refillSide hs _ _), refillSide_settled h]
  | b =>
    have hb := refillSide_side_ne (x := .a) (y := .b) (by decide) Config.queueCapacity hs
    rw [refillSide_settled (by rw [hb]; exact h), hb]

/-! ### A work order (R73) -/

@[simp] theorem setEng_nextTag (x : Side) (e : Engagement) (s : State) : (setEng x e s).pie.nextTag = s.pie.nextTag := by
  cases x <;> rfl

theorem issueOrder_sends {x : Side} {i : Nat} {asc : Bool} {s : State} {robot : Nat}
    (hr : ((refill (enter i .ordered s)).eng x).robot = some robot) :
    let u := refill (enter i .ordered s)
    let o : Order := { index := i, attempt := (u.sp i).attempts + 1, tag := u.pie.nextTag }
    let v := enqueue .workOrder robot (field 2 o.index ++ field 1 o.attempt ++ field 1 o.tag)
      { u with pie := { u.pie with nextTag := (u.pie.nextTag + 1) % 256 } }
    issueOrder x i asc s = setEng x { u.eng x with
      state := .orderOut, order := some o, ascending := asc, timer := some (v.now + v.cfg.orderTime) } v := by
  unfold issueOrder
  dsimp only
  rw [hr]

theorem issueOrder_eq {x : Side} {i : Nat} {asc : Bool} {s : State} {robot : Nat} (hr : (s.eng x).robot = some robot) :
    let u := refill (enter i .ordered s)
    let o : Order := { index := i, attempt := (u.sp i).attempts + 1, tag := s.pie.nextTag }
    let v : State := { u with pie := { u.pie with nextTag := (s.pie.nextTag + 1) % 256 } }
    issueOrder x i asc s = setEng x { s.eng x with
      state := .orderOut, order := some o, ascending := asc, timer := some (s.del.seconds + s.cfg.orderTime) }
      (enqueue .workOrder robot (field 2 o.index ++ field 1 o.attempt ++ field 1 o.tag) v) := by
  intro u o v
  have hengines : u.engines = s.engines := by simp [u]
  have heng : u.eng x = s.eng x := eng_of_engines hengines x
  have htag : u.pie.nextTag = s.pie.nextTag := nextTag_of_engines hengines
  have hport : u.port = s.port := by simp [u]
  have hdel : u.del = s.del := by simp [u]
  have hrobot : (u.eng x).robot = some robot := by rw [heng]; exact hr
  have hordered : ∀ w : State, w.port = s.port → w.del = s.del → setEng x { u.eng x with
      state := .orderOut, order := some o, ascending := asc, timer := some (w.now + w.cfg.orderTime) } w
      = setEng x { s.eng x with
        state := .orderOut, order := some o, ascending := asc, timer := some (s.del.seconds + s.cfg.orderTime) } w :=
    fun w hp hd => by rw [heng, cfg_of_port hp, State.now, hd]
  have hsent : issueOrder x i asc s = _ := issueOrder_sends hrobot
  rw [hsent, htag]
  exact hordered _ (by simp) (by simp)

/-- An order to a QUEUED record: the engagement, the tag, the one WORK_ORDER, and the record (R73). -/
theorem issueOrder_effect {x : Side} {i : Nat} {asc : Bool} {s : State} {robot : Nat} (hs : s.tabled) (hi : s.hasSpindle i = true)
    (hq : (s.sp i).state = .queued) (hc : s.shift.closing = none) (hr : (s.eng x).robot = some robot) :
    let t := issueOrder x i asc s
    onlyIn [.mon, .pie, .line, .frame] s t ∧ (t.sp i).state = .ordered ∧ (t.sp i).downSince = (s.sp i).downSince ∧
    (t.sp i).attempts = (s.sp i).attempts ∧
    t.eng x = { s.eng x with
      state := .orderOut, order := some { index := i, attempt := (s.sp i).attempts + 1, tag := s.pie.nextTag }, ascending := asc
      timer := some (s.del.seconds + s.cfg.orderTime) } ∧
    (∀ y, y ≠ x → t.eng y = s.eng y) ∧ t.pie.nextTag = (s.pie.nextTag + 1) % 256 ∧
    sends .workOrder robot (field 2 i ++ field 1 ((s.sp i).attempts + 1) ++ field 1 s.pie.nextTag) s t := by
  intro t
  have hself := enter_sp_self hi .ordered
  rw [touch_idle hc] at hself
  have hstate : ((enter i .ordered s).sp i).state = .ordered := by rw [hself]; exact moved_state ..
  have hentered : (enter i .ordered s).tabled := tabled_enter hs i _ (mayEnter_other _ _ (by decide) (by decide))
  obtain ⟨-, hsince⟩ := moved_down (st := .ordered) (r := s.sp i) (by rw [hq]; rfl) rfl s.now s.count
  have hkept := refill_sp hentered i (by rw [hstate]; decide)
  have hframe : (refill (enter i .ordered s)).frame = s.frame :=
    (refill_frame_kept hentered).trans (enter_frame_of_counts (by rw [hq]; rfl))
  have hshift : (refill (enter i .ordered s)).shift = s.shift :=
    (refill_shift_idle (by rw [enter_shift_idle hc]; exact hc)).trans (enter_shift_idle hc _ _)
  have hattempts : ((refill (enter i .ordered s)).sp i).attempts = (s.sp i).attempts := by
    rw [hkept, hself, moved_attempts]; simp
  have hengines : (refill (enter i .ordered s)).engines = s.engines := by simp
  have ht : t = _ := issueOrder_eq hr
  dsimp only at ht
  rw [hattempts] at ht
  have hframes : (refill (enter i .ordered s)).del = s.del ∧ (refill (enter i .ordered s)).creel = s.creel ∧
      (refill (enter i .ordered s)).doff = s.doff ∧ (refill (enter i .ordered s)).line = s.line ∧
      (refill (enter i .ordered s)).port = s.port ∧ (refill (enter i .ordered s)).draws = s.draws ∧
      (refill (enter i .ordered s)).pending = s.pending := by simp
  have hsp : ((refill (enter i .ordered s)).sp i) = (s.sp i).moved .ordered s.now s.count := hkept.trans hself
  generalize refill (enter i .ordered s) = u at hkept hframe hshift hattempts hengines ht hframes hsp
  obtain ⟨hdel, hcreel, hdoff, hline, hport, hdraws, hpending⟩ := hframes
  have htsp : t.sp i = (s.sp i).moved .ordered s.now s.count := (sp_of_mon (by rw [ht]; simp) i).trans hsp
  have hother : ∀ y, t.pie = (setEng x (t.eng x) { u with pie := { u.pie with nextTag := (s.pie.nextTag + 1) % 256 } }).pie → y ≠ x →
      t.eng y = s.eng y := fun y hpie hy => by
    rw [eng_of_pie hpie y, eng_setEng_ne hy]
    exact eng_of_engines hengines y
  refine ⟨?_, (congrArg Spindle.state htsp).trans (moved_state ..), (congrArg Spindle.downSince htsp).trans hsince,
    (congrArg Spindle.attempts htsp).trans (by simp [moved_attempts]), by rw [ht]; simp, fun y => hother y ?_, ?_, ?_⟩
  · rw [ht]
    exact ⟨by simp [hpending], fun b hb => by cases b <;> simp_all [Block.same]⟩
  · rw [ht, eng_setEng]
    exact setEng_pie_congr (by simp) x _
  · rw [ht, setEng_nextTag]
    simp
  · rw [ht]
    exact sends_setEng (enqueue_sends (t := { u with pie := { u.pie with nextTag := (s.pie.nextTag + 1) % 256 } })
      hline hframe hport hdel ..) x _

/-! ### The decision (R71) -/


/-- The engagement lets its robot go where its queues are empty. -/
theorem decideNext_releases {x : Side} {s : State} {robot : Nat} (hr : (s.eng x).robot = some robot) (h : s.queuesEmpty x = true) :
    decideNext x s = setEng x (s.eng x).idles (enqueue .robotRelease robot (field 1 (s.sideName x)) s) := by
  have heng : (enqueue .robotRelease robot (field 1 (s.sideName x)) s).eng x = s.eng x := eng_of_pie (by simp) x
  unfold decideNext
  rw [if_pos h, sendRelease_some hr, enterIdle_eq, heng]

theorem decideNext_waits {x : Side} {s : State} (h : s.queuesEmpty x = false) (hrun : s.frame.run = false) :
    decideNext x s = s := by
  unfold decideNext
  rw [if_neg (by simp [h]), if_neg (by simp [hrun])]

theorem decideNext_orders {x : Side} {s : State} {i : Nat} {asc : Bool} (h : s.queuesEmpty x = false) (hrun : s.frame.run = true)
    (hsel : s.selection x = some (i, asc)) : decideNext x s = issueOrder x i asc s := by
  unfold decideNext
  rw [if_neg (by simp [h]), if_pos hrun, hsel]

theorem engagedBy_robot {s : State} {robot : Nat} {x : Side} (h : s.engagedBy robot = some x) : (s.eng x).robot = some robot := by
  unfold State.engagedBy at h
  split at h
  · next ha => cases h; exact ha
  · split at h
    · next hb => cases h; exact hb
    · cases h

/-! ### An arrival (R69) -/

theorem takeArrival_arrives {t : Telegram} {s : State} {x : Side} (hx : s.engagedBy t.source = some x)
    (h : (s.eng x).state = .awaiting) : takeArrival t s = decideNext x (setEng x { s.eng x with
      state := .working, position := some (s.clampIndex (t.num 0 2)), ascending := true, timer := none } s) := by
  unfold takeArrival
  rw [hx]
  exact if_pos h

theorem takeArrival_stray {t : Telegram} {s : State} (h : ∀ x, s.engagedBy t.source = some x → (s.eng x).state ≠ .awaiting) :
    takeArrival t s = strayRobot s := by
  unfold takeArrival
  cases hx : s.engagedBy t.source with
  | none => rfl
  | some x => exact if_neg (h x hx)

/-- Settles O23. -/
theorem arrivalBringsAnOrder : Obligations.ArrivalBringsAnOrder := by
  intro s r rest hw hrx hk u
  have hrow : exec .robotArrived s = .next (takeArrival r.tel u) := by
    have hexec : exec .robotArrived s = .next (handOver .robotArrived takeArrival s) := inRunning_works hw _
    rw [hexec, handOver_takes hrx hk]
    rfl
  rw [hrow]
  refine ⟨fun x hx ha => ?_, fun hno => congrArg Host.Outcome.next (takeArrival_stray hno)⟩
  intro at_ w
  have hrobot : (w.eng x).robot = some r.tel.source := by
    rw [show w.eng x = _ from eng_setEng ..]
    exact engagedBy_robot hx
  have hfront : SameSummary s u := .of_pie rfl rfl rfl rfl
  have hsummary : SameSummary s w := hfront.trans (sameSummary_setEng x _ u)
  have hline : w.line = u.line := by simp [w]
  have hframe : w.frame = u.frame := by simp [w]
  have hport : w.port = u.port := by simp [w]
  have hdel : w.del = u.del := by simp [w]
  have harrived : onlyIn [.pie, .line, .frame] s w := onlyIn_seq (setRx_onlyIn rest s) (setEng_onlyIn x _ u) (by simp) (by simp)
  have htake : takeArrival r.tel u = decideNext x w := takeArrival_arrives (s := u) hx ha
  rw [htake]
  refine ⟨_, rfl, fun hempty => ?_, fun hsome hrun => ?_, fun i asc hsome hrun htabled hc hsel => ?_⟩
  · rw [decideNext_releases hrobot ((hsummary.queuesEmpty x).trans hempty), hsummary.sideName]
    refine ⟨onlyIn_seq harrived (onlyIn_seq (cs := [.pie, .line, .frame]) (enqueue_onlyIn ..) (setEng_onlyIn ..) (by simp) (by simp))
      (by simp) (by simp), sends_setEng (enqueue_sends hline hframe hport hdel ..) x _, ?_⟩
    refine (setEng_pie_congr (s := w) (by simp) x _).trans ?_
    rw [setEng_setEng, show w.eng x = _ from eng_setEng ..]
    exact setEng_pie_congr (s := s) (t := u) rfl x _
  · exact decideNext_waits ((hsummary.queuesEmpty x).trans hsome) (by rw [hframe]; exact hrun)
  · have hutabled : u.tabled := SameTables.tabled (s := s) ⟨rfl, rfl, rfl, rfl, fun _ => rfl, fun _ => rfl, rfl⟩ htabled
    have hwtabled : w.tabled := tabled_setEng hutabled x _
    obtain ⟨hi, hq⟩ := served_queued hwtabled (selection_mem hsel)
    have hsp : w.sp i = s.sp i := sp_of_mon hsummary.mon i
    obtain ⟨hblocks, hstate, hsince, hattempts, heng, -, htag, hsends⟩ := issueOrder_effect (asc := asc) hwtabled hi hq
      (by simpa [w] using hc) hrobot
    rw [hsp] at hsince hattempts heng hsends
    rw [decideNext_orders ((hsummary.queuesEmpty x).trans hsome) (by rw [hframe]; exact hrun) hsel]
    refine ⟨onlyIn_seq harrived hblocks (by simp) (by simp), hstate, ?_, htag.trans (by simp [w, u]), ?_, hsince, hattempts⟩
    · rw [heng, show w.eng x = _ from eng_setEng .., hdel, cfg_of_port hport, show w.pie.nextTag = s.pie.nextTag from by simp [w, u]]
      rfl
    · exact sends_congr (s' := w) hline hframe hport hdel (by simpa [w, u] using hsends)

end Sys2Proof.Machine
end

section
/-! PROOFS. The doff timer, the next announcement, and a change of RUN (R117, R122, R123, R128, R174). -/

namespace Sys2Proof.Machine

/-! ### What a decision leaves of the engine (R71) -/

theorem enqueue_side (kind : Kind) (dest : Nat) (payload : List Byte) (s : State) (y : Side) :
    (enqueue kind dest payload s).side y = s.side y := side_of_pie (by simp) y

theorem issueOrder_state (x : Side) (i : Nat) (asc : Bool) (s : State) : ((issueOrder x i asc s).eng x).state = .orderOut := by
  unfold issueOrder
  simp

theorem issueOrder_side (x : Side) (i : Nat) (asc : Bool) (s : State) :
    (∀ y, ((issueOrder x i asc s).side y).queue = ((refill (enter i .ordered s)).side y).queue) ∧
    ∀ y, y ≠ x → (issueOrder x i asc s).eng y = s.eng y := by
  have hengines : ∀ y, (refill (enter i .ordered s)).eng y = s.eng y := fun y => eng_of_engines (by simp) y
  have htag : ∀ n y, State.side { refill (enter i .ordered s) with
      pie := { (refill (enter i .ordered s)).pie with nextTag := n } } y = (refill (enter i .ordered s)).side y := fun n y => by
    cases y <;> rfl
  unfold issueOrder
  dsimp only
  split
  · refine ⟨fun y => ?_, fun y hy => ?_⟩
    · rw [setEng_queue, enqueue_side, htag]
    · rw [eng_setEng_ne hy, State.eng, enqueue_side, htag]
      exact hengines y
  · refine ⟨fun y => ?_, fun y hy => ?_⟩
    · rw [setEng_queue, htag]
    · rw [eng_setEng_ne hy, State.eng, htag]
      exact hengines y

theorem decideNext_state {x : Side} {s : State} (hrun : s.frame.run = true) :
    ((decideNext x s).eng x).state = if s.queuesEmpty x then .idle else .orderOut := by
  unfold decideNext
  by_cases hempty : s.queuesEmpty x = true
  · rw [if_pos hempty, if_pos hempty, enterIdle_eq, eng_setEng]
    rfl
  · rw [if_neg hempty, if_pos hrun, if_neg hempty]
    cases hsel : s.selection x with
    | none => exact absurd (by simp [State.queuesEmpty, (selection_none_iff s x).1 hsel]) hempty
    | some p => exact issueOrder_state ..

theorem sendRelease_side (x y : Side) (s : State) : (sendRelease x s).side y = s.side y := by
  unfold sendRelease
  split
  · exact enqueue_side ..
  · rfl

theorem decideNext_eng_ne {x y : Side} (h : y ≠ x) (s : State) : (decideNext x s).eng y = s.eng y := by
  unfold decideNext
  split
  · rw [enterIdle_eq, eng_setEng_ne h]
    exact congrArg SidePiecing.eng (sendRelease_side x y s)
  · split
    · split
      · exact (issueOrder_side ..).2 y h
      · rfl
    · rfl

/-- In split mode a decision leaves the queue of the other side as it is, where that side has no place to refill. -/
theorem decideNext_queue_ne {x y : Side} (h : y ≠ x) {s : State} (hs : s.tabled) (hj : s.cfg.joined ≠ 1)
    (hy : (s.side y).queue.length < 48 → (s.side y).waiting = []) : ((decideNext x s).side y).queue = (s.side y).queue := by
  unfold decideNext
  split
  · rw [enterIdle_eq, setEng_queue, sendRelease_side]
  · split
    · split
      · next i asc hsel =>
        have hmem := selection_mem hsel
        have hi : s.sideOf i = x := by
          have hserved : s.servedEntries x = (s.side x).queue := by
            simp [State.servedEntries, State.served, (joined_iff s).not.2 hj]
          rw [hserved] at hmem
          obtain ⟨-, -, hqueued, -⟩ := hs
          obtain ⟨-, -, -, hentries, -⟩ := hqueued x
          exact ((hentries i).1 hmem).2.1
        have hentered : (enter i .ordered s).tabled := tabled_enter hs i _ (mayEnter_other _ _ (by decide) (by decide))
        have hside : (enter i .ordered s).side y = s.side y := enter_side_ne (by rw [hi]; exact h) .ordered
        rw [(issueOrder_side x i asc s).1 y, refill_side_settled hentered (by rw [hside]; exact hy), hside]
      · rfl
    · rfl

theorem decideNext_draws (x : Side) (s : State) : (decideNext x s).draws = s.draws := by
  unfold decideNext
  split
  · simp
  · split
    · split
      · unfold issueOrder
        dsimp only
        split <;> simp
      · rfl
    · rfl

/-! ### RUN becomes active (R174) -/

/-- One engagement as RUN becomes active. -/
def resumeOne (x : Side) (s : State) : State := if (s.eng x).state = .working then decideNext x s else s

theorem runActive_eq (s : State) : runActive s = if s.cfg.joined = 1 then resumeOne .a s else resumeOne .b (resumeOne .a s) := by
  unfold runActive State.engagements
  by_cases hj : s.cfg.joined = 1
  · rw [if_pos ((joined_iff s).2 hj), if_pos hj]
    rfl
  · rw [if_neg ((joined_iff s).not.2 hj), if_neg hj]
    rfl

theorem resumeOne_onlyIn (x : Side) (s : State) : onlyIn [.mon, .pie, .shift, .line, .frame] s (resumeOne x s) := by
  unfold resumeOne
  split
  · have hdraws := decideNext_draws x s
    exact ⟨by simp, fun b hb => by cases b <;> simp_all [Block.same]⟩
  · exact ⟨rfl, fun b _ => by cases b <;> rfl⟩

theorem resumeOne_state {x : Side} {s : State} (hrun : s.frame.run = true) (h : (s.eng x).state = .working) :
    ((resumeOne x s).eng x).state = if s.queuesEmpty x then .idle else .orderOut := by
  rw [resumeOne, if_pos h]
  exact decideNext_state hrun

theorem resumeOne_keeps {x : Side} {s : State} (h : (s.eng x).state ≠ .working) : resumeOne x s = s := if_neg h

theorem resumeOne_run (x : Side) (s : State) : (resumeOne x s).frame.run = s.frame.run := by
  unfold resumeOne
  split
  · exact (decideNext_inputs x s).1
  · rfl

theorem resumeOne_eng_ne {x y : Side} (h : y ≠ x) (s : State) : (resumeOne x s).eng y = s.eng y := by
  unfold resumeOne
  split
  · exact decideNext_eng_ne h s
  · rfl

theorem resumeOne_queuesEmpty_ne {x y : Side} (h : y ≠ x) {s : State} (hs : s.tabled) (hj : s.cfg.joined ≠ 1)
    (hy : (s.side y).queue.length < 48 → (s.side y).waiting = []) : (resumeOne x s).queuesEmpty y = s.queuesEmpty y := by
  have hentries : ∀ t : State, t.cfg.joined ≠ 1 → t.servedEntries y = (t.side y).queue := fun t ht => by
    simp [State.servedEntries, State.served, (joined_iff t).not.2 ht]
  unfold resumeOne
  split
  · have hjoined : (decideNext x s).cfg.joined ≠ 1 := by rw [cfg_of_port (s := s) (by simp)]; exact hj
    rw [State.queuesEmpty, State.queuesEmpty, hentries _ hjoined, hentries _ hj, decideNext_queue_ne h hs hj hy]
  · rfl

theorem runActive_onlyIn (s : State) : onlyIn [.mon, .pie, .shift, .line, .frame] s (runActive s) := by
  rw [runActive_eq]
  split
  · exact resumeOne_onlyIn ..
  · exact onlyIn_trans (resumeOne_onlyIn ..) (resumeOne_onlyIn ..)

theorem runActive_run (s : State) : (runActive s).frame.run = s.frame.run := by
  rw [runActive_eq]
  split <;> simp only [resumeOne_run]

theorem runActive_idle {s : State} (h : ∀ x, (s.eng x).state ≠ .working) : runActive s = s := by
  rw [runActive_eq, resumeOne_keeps (h .a), resumeOne_keeps (h .b), ite_self]

/-- As RUN becomes active every WORKING engagement decides (R71, R174). -/
theorem runActive_decides {s : State} (hrun : s.frame.run = true) (hs : s.tabled)
    (hwait : ∀ y, (s.side y).queue.length < 48 → (s.side y).waiting = []) {x : Side} (hx : x = .a ∨ s.cfg.joined ≠ 1)
    (hwork : (s.eng x).state = .working) : ((runActive s).eng x).state = if s.queuesEmpty x then .idle else .orderOut := by
  rw [runActive_eq]
  cases x with
  | a =>
    have ha := resumeOne_state hrun hwork
    split
    · exact ha
    · rw [resumeOne_eng_ne (by decide)]
      exact ha
  | b =>
    have hj : s.cfg.joined ≠ 1 := hx.resolve_left (by decide)
    have heng : (resumeOne .a s).eng .b = s.eng .b := resumeOne_eng_ne (by decide) s
    have hempty := resumeOne_queuesEmpty_ne (x := .a) (y := .b) (by decide) hs hj (hwait .b)
    rw [if_neg hj, resumeOne_state ((resumeOne_run .a s).trans hrun) (by rw [heng]; exact hwork), hempty]

/-! ### The announcements (R117, R123, R128) -/

theorem announceDoff_claims {s : State} {due : Nat} (hdue : s.doff.nextAnn = some due)
    (h : s.doff.state = .claimed ∨ s.doff.state = .fullWait) : announceDoff s =
      { enqueue .doffClaim 0 (claimPayload s.del.seconds s.fill s.doff) s with doff := { s.doff with nextAnn := some (due + 5) } } := by
  have hdoff : (sendClaim s).doff = s.doff := by simp
  unfold announceDoff
  rcases h with h | h <;> rw [h] <;> dsimp only <;> rw [hdoff, hdue] <;> rfl

theorem announceDoff_states {s : State} {due : Nat} (hdue : s.doff.nextAnn = some due)
    (h : s.doff.state = .granted ∨ s.doff.state = .rundown ∨ s.doff.state = .doffing ∨ s.doff.state = .unknown) : announceDoff s =
      { enqueue .doffState 0 (field 1 s.doff.state.phase.code ++ field 1 s.doff.urgency.code ++
          field 2 (s.doff.grantedWait.getD 0)) s with doff := { s.doff with nextAnn := some (due + 5) } } := by
  have hdoff : (sendDoffState s).doff = s.doff := by simp
  unfold announceDoff
  rcases h with h | h | h | h <;> rw [h] <;> dsimp only <;> rw [hdoff, hdue, ← h] <;> rfl

theorem exec_nextAnnouncement {s : State} (hw : s.works) {due : Nat} (hdue : s.doff.nextAnn = some due) (h : due ≤ s.del.seconds) :
    exec .nextAnnouncement s = .next (announceDoff s) := by
  have hexec : exec .nextAnnouncement s = .next (if reached s.now s.doff.nextAnn then announceDoff s else s) := inRunning_works hw _
  rw [hexec, if_pos (by rw [hdue]; exact reached_some.2 h)]

/-! ### A change of RUN (R174) -/

theorem exec_runChange {s : State} (h : s.frame.resetLow = false) (active : Bool) :
    exec (.runChange active) s = .next (takeRun active s) := by
  have hexec : exec (.runChange active) s = execRunChange active s := rfl
  rw [hexec, execRunChange, if_neg (by simp [h])]

theorem takeRun_same (s : State) : takeRun s.frame.run s = s := if_pos rfl

/-- The state with the level of RUN taken. -/
def State.runTaken (active : Bool) (s : State) : State := { s with frame := { s.frame with run := active } }

theorem takeRun_unheld {active : Bool} {s : State} (h : s.port.part ≠ .running) : takeRun active s = s.runTaken active := by
  unfold takeRun
  split
  · next hsame => subst hsame; rfl
  · have hrun : (s.runTaken active).running = false := by simpa [State.running, State.runTaken] using h
    exact if_neg (Bool.eq_false_iff.1 hrun)

theorem takeRun_works {active : Bool} {s : State} (h : s.port.part = .running) (hne : s.frame.run ≠ active) :
    takeRun active s = if active then runActive (s.runTaken active) else stopTest (s.runTaken active) := by
  have hrun : (s.runTaken active).running = true := by simp [State.running, State.runTaken, h]
  unfold takeRun
  rw [if_neg hne]
  exact if_pos hrun

theorem runChange_stops {s : State} (hw : s.works) (hrun : s.frame.run = true) :
    exec (.runChange false) s = .next (stopTest (s.runTaken false)) := by
  obtain ⟨hlow, hpart⟩ := hw
  rw [exec_runChange hlow, takeRun_works hpart (by simp [hrun])]
  rfl

theorem runChange_starts {s : State} (hw : s.works) (hrun : s.frame.run = false) :
    exec (.runChange true) s = .next (runActive (s.runTaken true)) := by
  obtain ⟨hlow, hpart⟩ := hw
  rw [exec_runChange hlow, takeRun_works hpart (by simp [hrun])]
  rfl

theorem runTaken_onlyIn (active : Bool) (s : State) : onlyIn [.frame] s (s.runTaken active) :=
  ⟨rfl, fun b hb => by cases b <;> simp_all [Block.same, State.runTaken]⟩

theorem exec_doffTimer {s : State} (hw : s.works) : exec .doffTimer s = .next
    (if s.doff.state = .doffing ∧ (∃ due, s.doff.doffTimer = some due ∧ due ≤ s.del.seconds) then
      { s with doff := { s.doff with doffTimer := none }, frame := s.frame.raised .doffTimeout .action none s.del.seconds }
    else s) := by
  have hexec : exec .doffTimer s = .next (if s.doff.state = .doffing ∧ reached s.now s.doff.doffTimer then
      raiseAlert .doffTimeout .action none { s with doff := { s.doff with doffTimer := none } } else s) := inRunning_works hw _
  rw [hexec]
  exact congrArg Host.Outcome.next (if_congr (and_congr_right fun _ => reached_iff_exists) rfl rfl)

/-- Settles O40. -/
theorem doffTimersAndRun : Obligations.DoffTimersAndRun := by
  refine ⟨fun s active hlow hpart => by rw [exec_runChange hlow, takeRun_unheld hpart]; rfl, fun s hw => ?_⟩
  have hann : ∀ due, s.doff.nextAnn = some due → s.del.seconds < due → exec .nextAnnouncement s = .next s := fun due hdue h => by
    have hexec : exec .nextAnnouncement s = .next (if reached s.now s.doff.nextAnn then announceDoff s else s) := inRunning_works hw _
    rw [hexec, if_neg (by rw [hdue, reached_some]; exact Nat.not_le.2 h)]
  refine ⟨exec_doffTimer hw, fun due hdue hreached => ?_, fun h => ?_, ?_, fun hrun hkeep => ?_, fun hrun hstate hfree => ?_,
    fun hrun => ?_⟩
  · intro on wait
    rw [exec_nextAnnouncement hw hdue hreached]
    refine ⟨fun hstate => ?_, fun hstate => ?_⟩
    · rw [announceDoff_claims hdue hstate]
      exact ⟨_, rfl, enqueue_setDoff_onlyIn .., rfl, rfl, rfl⟩
    · rw [announceDoff_states hdue hstate]
      refine ⟨_, rfl, enqueue_setDoff_onlyIn .., rfl, ?_⟩
      have hphase : s.doff.state.phase.code = (match s.doff.state with
          | .granted => 1 | .rundown => 2 | .doffing => 3 | _ => 4) := by
        rcases hstate with h | h | h | h <;> rw [h] <;> rfl
      rw [hphase]
      exact ⟨rfl, rfl⟩
  · cases hnext : s.doff.nextAnn with
    | none =>
      have hexec : exec .nextAnnouncement s = .next (if reached s.now s.doff.nextAnn then announceDoff s else s) := inRunning_works hw _
      rw [hexec, hnext]
      rfl
    | some due => exact hann due hnext (h due hnext)
  · rw [exec_runChange hw.1, takeRun_same]
  · rw [runChange_stops hw hrun]
    refine congrArg Host.Outcome.next (stopTest_keeps (s := s.runTaken false) ?_)
    rintro ⟨hstate, -, hfree⟩
    exact hkeep.elim (fun h => h hstate) (fun h => absurd hfree (Nat.not_le.2 h))
  · rw [runChange_stops hw hrun, stopTest_stops (s := s.runTaken false) hstate rfl hfree]
    refine ⟨_, rfl, onlyIn_seq (runTaken_onlyIn false s) (enqueue_setDoff_onlyIn ..) (by simp) (by simp), ?_, rfl⟩
    exact (enqueue_inputs ..).1
  · rw [runChange_starts hw hrun]
    refine ⟨_, rfl, runActive_run _, onlyIn_seq (runTaken_onlyIn true s) (runActive_onlyIn _) (by simp) (by simp),
      fun htabled hwait x hx hwork => ?_, fun h => runActive_idle (s := s.runTaken true) h⟩
    have htabled' : (s.runTaken true).tabled := SameTables.tabled (s := s) ⟨rfl, rfl, rfl, rfl, fun _ => rfl, fun _ => rfl, rfl⟩ htabled
    exact runActive_decides (s := s.runTaken true) rfl htabled' hwait hx hwork

end Sys2Proof.Machine
end

section
/-! PROOFS. The end of an engagement whose robot is gone (R81). -/

namespace Sys2Proof.Machine

/-! ### An ordered record returns to piecing (R81 to R83) -/

/-- What an ORDERED record becomes that returns to piecing, by its section. -/
theorem returnToPiecing_effect {i : Nat} {s : State} (hs : s.tabled) (hc : s.shift.closing = none)
    (ho : (s.sp i).state = .ordered) :
    let t := returnToPiecing i s
    ((s.sec (stripOf i)).state = .exchanging → (t.sp i).state = .exchange ∧ (t.sp i).cause = some .roving ∧
      (t.sp i).attempts = 0 ∧ (t.sp i).bookedTo = some s.del.count ∧ t.shift = (book i s).shift) ∧
    ((s.sec (stripOf i)).state ≠ .exchanging → ((t.sp i).state = .queued ∨ (t.sp i).state = .waiting) ∧
      (t.sp i).attempts = (s.sp i).attempts ∧ (t.sp i).downSince = (s.sp i).downSince ∧ t.shift = s.shift) := by
  intro t
  have hi : s.hasSpindle i = true := hasSpindle_of_state (by rw [ho]; decide)
  have hdown : (s.sp i).state.isDown = true := by rw [ho]; rfl
  have hbooked := bookedTo_of_isDown hs hi hdown
  have ht : t = if s.underExchange i then bookEnter i .exchange s else joinQueue i s := if_pos ho
  by_cases hx : (s.sec (stripOf i)).state = .exchanging
  · obtain ⟨hstate, hcause, hattempts, -, -, -, -, hto⟩ := bookEnter_taken hi hc (.inl rfl) hdown
    rw [ht, if_pos ((underExchange_iff s i).2 hx)]
    exact ⟨fun _ => ⟨hstate, hcause, hattempts, hto hbooked, bookEnter_shift_idle hc i _⟩, fun hno => absurd hx hno⟩
  · obtain ⟨hstate, -, hattempts, -, -, -, -, hkept, -⟩ := joinQueue_effect hi hc
    rw [ht, if_neg (fun h => hx ((underExchange_iff s i).1 h))]
    exact ⟨fun h => absurd h hx, fun _ => ⟨hstate, hattempts, (hkept hdown).1, joinQueue_shift_idle hc i⟩⟩

theorem returnOrdered_some {x : Side} {s : State} {o : Order} (h : (s.eng x).order = some o) :
    returnOrdered x s = returnToPiecing o.index s := by
  unfold returnOrdered
  rw [h]

theorem returnOrdered_onlyIn (x : Side) (s : State) : onlyIn [.mon, .pie, .shift, .frame] s (returnOrdered x s) :=
  ⟨by simp, fun b hb => by cases b <;> simp_all [Block.same]⟩

/-! ### The engagement ends (R81, R83) -/

/-- What the end of an engagement leaves: its robot and order gone, a new spell or rest, and no telegram but its PIECE_CALL. -/
theorem endEngagement_effect (x : Side) (s : State) :
    let t := endEngagement x s
    let e := if t.queuesEmpty x = true then (s.eng x).cleared.idles else (s.eng x).cleared.calls s.del.seconds
    t.eng x = e ∧ (∀ y, y ≠ x → t.eng y = s.eng y) ∧ (∀ y, (t.side y).bar = (s.side y).bar) ∧
    (∀ j, t.sp j = (returnOrdered x s).sp j) ∧ onlyIn [.mon, .pie, .shift, .line, .frame, .draws] s t ∧
    (t.queuesEmpty x = true → t.line = s.line) ∧ (t.queuesEmpty x = false → handsCall x [] s t) := by
  intro t e
  have hreturned := returnOrdered_onlyIn x s
  have hengines : (returnOrdered x s).engines = s.engines := by simp
  have hframes : (returnOrdered x s).line = s.line ∧ (returnOrdered x s).port = s.port ∧ (returnOrdered x s).del = s.del := by simp
  have ht : t = callOrIdle x (setEng x ((returnOrdered x s).eng x).cleared (returnOrdered x s)) := rfl
  generalize returnOrdered x s = v at hreturned hengines hframes ht
  obtain ⟨hline, hport, hdel⟩ := hframes
  have hcleared := engagementOnly_setEng x (v.eng x).cleared v
  obtain ⟨honly, hblocks, hidle, hcalls⟩ := callOrIdle_effect x (setEng x (v.eng x).cleared v)
  rw [← ht] at honly hblocks hidle hcalls
  have hempty : (setEng x (v.eng x).cleared v).queuesEmpty x = t.queuesEmpty x := (honly.summary.queuesEmpty x).symm
  rw [hempty] at honly hidle hcalls
  have heng : ∀ y, v.eng y = s.eng y := eng_of_engines hengines
  have hnow : ∀ f, (setEng x f v).del.seconds = s.del.seconds := fun f => by simp [hdel]
  refine ⟨?_, fun y hy => ?_, fun y => ?_, fun j => ?_, ?_, fun hyes => ?_, fun hno => ?_⟩
  · rw [honly.eng, eng_setEng, heng, hnow]
  · exact (honly.other y hy).trans ((hcleared.other y hy).trans (heng y))
  · exact (honly.bar y).trans ((hcleared.bar y).trans (bar_of_engines hengines y))
  · exact sp_of_mon ((hcleared.summary.trans honly.summary).mon) j
  · exact onlyIn_seq hreturned (onlyIn_seq (cs := [.mon, .pie, .shift, .line, .frame, .draws]) (setEng_onlyIn ..) hblocks
      (by simp) (by simp)) (by simp) (by simp)
  · exact (hidle hyes).1.trans ((by simp : (setEng x (v.eng x).cleared v).line = v.line).trans hline)
  · obtain ⟨lowest, highest, hcall, hindices⟩ := hcalls hno
    exact ⟨lowest, highest, hands_congr hcall (by simp [hline]) (by simp [hport]) rfl, hindices⟩

/-! ### A withdrawal and a restart (R81) -/

theorem engaged_iff (st : EngState) : st.engaged = true ↔ st = .awaiting ∨ st = .working ∨ st = .orderOut := by
  cases st <;> simp [EngState.engaged]

theorem takeWithdraw_ends {t : Telegram} {s : State} {x : Side} (hx : s.engagedBy t.source = some x)
    (h : (s.eng x).state.engaged = true) : takeWithdraw t s = endEngagement x s := by
  unfold takeWithdraw
  rw [hx]
  exact if_pos h

theorem takeWithdraw_stray {t : Telegram} {s : State}
    (h : ∀ x, s.engagedBy t.source = some x → ¬ (s.eng x).state.engaged = true) : takeWithdraw t s = strayRobot s := by
  unfold takeWithdraw
  cases hx : s.engagedBy t.source with
  | none => rfl
  | some x => exact if_neg (h x hx)

theorem robotRestarted_ends {source : Nat} {s : State} {x : Side} (hx : s.engagedBy source = some x)
    (h : (s.eng x).state.engaged = true) : robotRestarted source s = endEngagement x s := by
  unfold robotRestarted
  rw [hx]
  exact if_pos h

theorem robotRestarted_other {source : Nat} {s : State}
    (h : ∀ x, s.engagedBy source = some x → ¬ (s.eng x).state.engaged = true) : robotRestarted source s = s := by
  unfold robotRestarted
  cases hx : s.engagedBy source with
  | none => rfl
  | some x => exact if_neg (h x hx)

theorem hands_rx {l : List Handed} {s t : State} (h : hands l s t) : t.line.rx = s.line.rx := by
  have hrest := hands_besideQueue h
  have hrx : t.line.besideQueue.rx = s.line.besideQueue.rx := by rw [hrest]
  exact hrx

theorem endEngagement_rx (x : Side) (s : State) : (endEngagement x s).line.rx = s.line.rx := by
  obtain ⟨-, -, -, -, -, hidle, hcalls⟩ := endEngagement_effect x s
  cases hempty : (endEngagement x s).queuesEmpty x with
  | true => rw [hidle hempty]
  | false =>
    obtain ⟨_, _, hhands, -⟩ := hcalls hempty
    exact hands_rx hhands

theorem takeRestart_other {taken : Received → Bool} {mark : Received → Received} {take : Nat → State → State} {s : State}
    {r : Received} {rest : List Received} (h : s.line.rx = r :: rest) (htaken : taken r = true) :
    takeRestart taken mark take s = s := by
  unfold takeRestart
  rw [h]
  exact if_neg (by simp [htaken])

/-- The end of an engagement whose sender's telegram has been read, field by field. -/
theorem endEngagement_ended {x : Side} {rx : List Received} {s : State} (htabled : s.tabled) (hc : s.shift.closing = none) :
    let u := s.setRx rx
    let t := endEngagement x u
    ((t.eng x).state = .idle → t.line = u.line) ∧ ((t.eng x).state = .calling → handsCall x [] u t) ∧
    onlyIn [.mon, .pie, .shift, .line, .frame, .draws] s t ∧
    (t.eng x).robot = none ∧ (t.eng x).order = none ∧ (t.eng x).position = none ∧ (t.eng x).timer = none ∧
    (t.eng x).timeouts = 0 ∧ (t.side x).bar = (s.side x).bar ∧
    ((t.eng x).state = .calling ∧ (t.eng x).sinceCall = 0 ∧ (t.eng x).nextCall = some (s.del.seconds + 10) ∨
      (t.eng x).state = .idle) ∧
    ((t.eng x).state = .idle ↔ t.queuesEmpty x = true) ∧
    (∀ o, (s.eng x).order = some o → (s.sp o.index).state = .ordered →
      ((s.sec (stripOf o.index)).state = .exchanging → (t.sp o.index).state = .exchange) ∧
      ((s.sec (stripOf o.index)).state ≠ .exchanging →
        ((t.sp o.index).state = .queued ∨ (t.sp o.index).state = .waiting) ∧
        (t.sp o.index).attempts = (s.sp o.index).attempts ∧ (t.sp o.index).downSince = (s.sp o.index).downSince)) := by
  intro u t
  obtain ⟨heng, -, hbar, hsp, hblocks, hidle, hcalls⟩ := endEngagement_effect x u
  have hutabled : u.tabled := SameTables.tabled (s := s) ⟨rfl, rfl, rfl, rfl, fun _ => rfl, fun _ => rfl, rfl⟩ htabled
  have hrecord : ∀ o, (s.eng x).order = some o → (s.sp o.index).state = .ordered →
      ((s.sec (stripOf o.index)).state = .exchanging → (t.sp o.index).state = .exchange) ∧
      ((s.sec (stripOf o.index)).state ≠ .exchanging →
        ((t.sp o.index).state = .queued ∨ (t.sp o.index).state = .waiting) ∧
        (t.sp o.index).attempts = (s.sp o.index).attempts ∧ (t.sp o.index).downSince = (s.sp o.index).downSince) := by
    intro o horder hstate
    obtain ⟨hexchange, helse⟩ := returnToPiecing_effect (s := u) hutabled hc hstate
    rw [hsp, returnOrdered_some (s := u) horder]
    refine ⟨fun hx => (hexchange hx).1, fun hx => ?_⟩
    obtain ⟨hqueued, hattempts, hsince, -⟩ := helse hx
    exact ⟨hqueued, hattempts, hsince⟩
  have hseq := onlyIn_seq (cs := [.mon, .pie, .shift, .line, .frame, .draws]) (setRx_onlyIn rx s) hblocks (by simp) (by simp)
  cases hempty : t.queuesEmpty x with
  | true =>
    have he : t.eng x = (u.eng x).cleared.idles := heng.trans (if_pos hempty)
    rw [he]
    exact ⟨fun _ => hidle hempty, nofun, hseq, rfl, rfl, rfl, rfl, rfl, hbar x, .inr rfl, iff_of_true rfl rfl, hrecord⟩
  | false =>
    have he : t.eng x = (u.eng x).cleared.calls s.del.seconds := heng.trans (if_neg (ne_true_of_eq_false hempty))
    rw [he]
    exact ⟨nofun, fun _ => hcalls hempty, hseq, rfl, rfl, rfl, rfl, rfl, hbar x, .inl ⟨rfl, rfl, rfl⟩, iff_of_false nofun nofun, hrecord⟩

/-- Settles O26. -/
theorem robotGoneEndsTheEngagement : Obligations.RobotGoneEndsTheEngagement := by
  intro s r rest hw htabled hc hrx ended engaged
  have hgone : ∀ x, engaged x ↔ s.engagedBy r.tel.source = some x ∧ (s.eng x).state.engaged = true := fun x =>
    and_congr_right fun _ => (engaged_iff _).symm
  refine ⟨fun hk => ?_, fun hk hby => ?_, fun hk hby => ?_⟩
  · have hexec : exec .robotWithdraw s = .next (handOver .robotWithdraw takeWithdraw s) := inRunning_works hw _
    rw [hexec, handOver_takes hrx hk]
    refine ⟨fun x hx => ?_, fun hno => ?_⟩
    · obtain ⟨hby, hstate⟩ := (hgone x).1 hx
      rw [takeWithdraw_ends (s := s.setRx rest) hby hstate]
      exact ⟨_, rfl, endEngagement_rx x _, endEngagement_ended htabled hc⟩
    · exact congrArg Host.Outcome.next (takeWithdraw_stray (s := s.setRx rest) fun x hx hstate => hno x ((hgone x).2 ⟨hx, hstate⟩))
  · intro rx
    have hexec : exec .stationRestartPiecing s = .next
        (takeRestart Received.byPiecing (fun r => { r with byPiecing := true }) robotRestarted s) := inRunning_works hw _
    have hrx' : (if ({ r with byPiecing := true } : Received).done then rest else { r with byPiecing := true } :: rest) = rx := by
      simp [rx, Received.done]
    rw [hexec, takeRestart_takes hrx hk hby, hrx']
    refine ⟨fun x hx => ?_, fun hno => ?_⟩
    · obtain ⟨hby, hstate⟩ := (hgone x).1 hx
      rw [robotRestarted_ends (s := s.setRx rx) hby hstate]
      exact ⟨_, rfl, endEngagement_rx x _, endEngagement_ended htabled hc⟩
    · exact congrArg Host.Outcome.next (robotRestarted_other (s := s.setRx rx) fun x hx hstate => hno x ((hgone x).2 ⟨hx, hstate⟩))
  · have hexec : exec .stationRestartPiecing s = .next
        (takeRestart Received.byPiecing (fun r => { r with byPiecing := true }) robotRestarted s) := inRunning_works hw _
    rw [hexec, takeRestart_other hrx hby]

end Sys2Proof.Machine
end

section
/-! PROOFS. What refills and decisions leave of a record, and an order timeout (R79, R80). -/

namespace Sys2Proof.Machine

/-! ### A record in its side's piecing (R46, R50, R73) -/

/-- QUEUED, WAITING or ORDERED: a record that refills and orders move. -/
def SpState.inPiecing (st : SpState) : Prop := st = .queued ∨ st = .waiting ∨ st = .ordered

/-- What refills and decisions keep of a record: all of it outside piecing, and there what R54, R57 and R59 speak of. -/
structure PlaceKept (r r' : Spindle) : Prop where
  attempts : r'.attempts = r.attempts
  downSince : r'.downSince = r.downSince
  bookedTo : r'.bookedTo = r.bookedTo
  shiftBreaks : r'.shiftBreaks = r.shiftBreaks
  lost : r'.lostSinceBase = r.lostSinceBase
  lazy : r'.lazy = r.lazy
  doffStart : r'.doffStart = r.doffStart
  unpieced : r.piecedAt = none → r'.piecedAt = none
  stays : r.state.inPiecing → r'.state.inPiecing
  outside : ¬ r.state.inPiecing → r' = r

theorem PlaceKept.refl (r : Spindle) : PlaceKept r r := ⟨rfl, rfl, rfl, rfl, rfl, rfl, rfl, id, id, fun _ => rfl⟩

theorem PlaceKept.of_eq {r r' : Spindle} (h : r' = r) : PlaceKept r r' := h ▸ .refl r

theorem PlaceKept.trans {r r' r'' : Spindle} (h : PlaceKept r r') (h' : PlaceKept r' r'') : PlaceKept r r'' :=
  ⟨h'.attempts.trans h.attempts, h'.downSince.trans h.downSince, h'.bookedTo.trans h.bookedTo,
    h'.shiftBreaks.trans h.shiftBreaks, h'.lost.trans h.lost, h'.lazy.trans h.lazy, h'.doffStart.trans h.doffStart,
    fun hr => h'.unpieced (h.unpieced hr), fun hr => h'.stays (h.stays hr), fun hr => by
      have heq := h.outside hr
      exact (h'.outside (by rw [heq]; exact hr)).trans heq⟩

theorem moved_placeKept {st : SpState} (hst : st = .queued ∨ st = .ordered) {r : Spindle} (hr : r.state.inPiecing) (now p : Nat) :
    PlaceKept r (r.moved st now p) := by
  have hdown : r.state.isDown = true := by rcases hr with h | h | h <;> rw [h] <;> rfl
  have hdown' : st.isDown = true := by rcases hst with rfl | rfl <;> rfl
  obtain ⟨hto, hsince⟩ := moved_down hdown hdown' now p
  refine ⟨?_, hsince, hto, moved_shiftBreaks .., moved_lost .., moved_lazy .., ?_, fun hnone => ?_, fun _ => ?_, fun hno => absurd hr hno⟩
  · rw [moved_attempts]
    rcases hst with rfl | rfl <;> simp
  · rcases hst with rfl | rfl <;> simp [Spindle.moved, SpState.cause, hdown]
  · rcases hst with rfl | rfl <;> simp [Spindle.moved, hnone, hdown]
  · rw [moved_state]
    exact hst.elim .inl (fun h => .inr (.inr h))

theorem enter_placeKept {i : Nat} {s : State} {st : SpState} (hi : s.hasSpindle i = true) (hc : s.shift.closing = none)
    (hst : st = .queued ∨ st = .ordered) (hr : (s.sp i).state.inPiecing) (j : Nat) :
    PlaceKept (s.sp j) ((enter i st s).sp j) := by
  by_cases hj : i = j
  · subst hj
    rw [enter_sp_self hi, touch_idle hc]
    exact moved_placeKept hst hr _ _
  · exact .of_eq (enter_sp_ne hj st s)

/-- With no close in progress, what `f` keeps of every record. -/
def KeepsPlaces (s t : State) : Prop := t.shift.closing = none ∧ ∀ j, PlaceKept (s.sp j) (t.sp j)

theorem KeepsPlaces.trans {s t u : State} (h : KeepsPlaces s t) (h' : KeepsPlaces t u) : KeepsPlaces s u :=
  ⟨h'.1, fun j => (h.2 j).trans (h'.2 j)⟩

theorem keepsPlaces_of_mon {s t : State} (hc : s.shift.closing = none) (hshift : t.shift = s.shift) (hmon : t.mon = s.mon) :
    KeepsPlaces s t := ⟨by rw [hshift]; exact hc, fun j => .of_eq (sp_of_mon hmon j)⟩

theorem keepsPlaces_enter {i : Nat} {s : State} {st : SpState} (hi : s.hasSpindle i = true) (hc : s.shift.closing = none)
    (hst : st = .queued ∨ st = .ordered) (hr : (s.sp i).state.inPiecing) : KeepsPlaces s (enter i st s) :=
  ⟨by rw [enter_shift_idle hc]; exact hc, enter_placeKept hi hc hst hr⟩

/-- What refills and decisions keep, once it is kept by what leaves the table alone and by a QUEUED or WAITING record that is moved on. -/
structure PlaceRelation (R : State → State → Prop) : Prop where
  same : ∀ {s t : State}, t.shift = s.shift → t.mon = s.mon → R s t
  trans : ∀ {s t u : State}, R s t → R t u → R s u
  enter : ∀ {s : State} {i : Nat} {st : SpState}, s.hasSpindle i = true → (s.sp i).state.inPiecing → st = .queued ∨ st = .ordered →
    R s (enter i st s)

section
variable {R : State → State → Prop} (hR : PlaceRelation R)
include hR

theorem PlaceRelation.refillSide (n : Nat) (x : Side) {s : State} (hs : s.tabled) : R s (refillSide n x s) :=
  refillSide_keepsProp (R s) x (fun _ _ _ hi _ hstate h => hR.trans h (hR.enter hi (.inr (.inl hstate)) (.inl rfl))) n hs
    (hR.same rfl rfl)

theorem PlaceRelation.refill {s : State} (hs : s.tabled) : R s (refill s) :=
  hR.trans (hR.refillSide _ .a hs) (hR.refillSide _ .b (tabled_refillSide hs _ _))

theorem PlaceRelation.issueOrder {x : Side} {i : Nat} {asc : Bool} {s : State} (hs : s.tabled) (hi : s.hasSpindle i = true)
    (hq : (s.sp i).state = .queued) : R s (issueOrder x i asc s) := by
  have hentered : (Machine.enter i .ordered s).tabled := tabled_enter hs i _ (mayEnter_other _ _ (by decide) (by decide))
  have hrest : (Machine.issueOrder x i asc s).mon = (Machine.refill (Machine.enter i .ordered s)).mon ∧
      (Machine.issueOrder x i asc s).shift = (Machine.refill (Machine.enter i .ordered s)).shift := by
    unfold Machine.issueOrder
    dsimp only
    split <;> simp
  exact hR.trans (hR.enter hi (.inl hq) (.inr rfl)) (hR.trans (hR.refill hentered) (hR.same hrest.2 hrest.1))

theorem PlaceRelation.decideNext (x : Side) {s : State} (hs : s.tabled) : R s (decideNext x s) := by
  unfold Machine.decideNext
  split
  · exact hR.same (by simp) (by simp)
  · split
    · split
      · next i asc hsel =>
        obtain ⟨hi, hq⟩ := served_queued hs (selection_mem hsel)
        exact hR.issueOrder hs hi hq
      · exact hR.same rfl rfl
    · exact hR.same rfl rfl

theorem PlaceRelation.notifyOne (s0 : State) (x : Side) {s : State} (hs : s.tabled) : R s (notifyOne s0 x s) := by
  unfold Machine.notifyOne
  dsimp only
  split
  case h_1 => split <;> exact hR.same (by simp) (by simp)
  case h_2 => split <;> exact hR.same (by simp) (by simp)
  case h_3 =>
    split
    · exact hR.decideNext x hs
    · exact hR.same rfl rfl
  all_goals exact hR.same rfl rfl

theorem PlaceRelation.notify (s0 : State) {s : State} (hs : s.tabled) : R s (notify s0 s) := by
  have hfold := foldl_keepsProp (fun u => u.tabled ∧ R s u) s.engagements (fun u x => Machine.notifyOne s0 x u)
    (fun u x hu => ⟨tabled_notifyOne hu.1 s0 x, hR.trans hu.2 (hR.notifyOne s0 x hu.1)⟩) ⟨hs, hR.same rfl rfl⟩
  exact hfold.2

theorem PlaceRelation.piecingEvent {f : State → State} {s : State} (hs : (f s).tabled) : R (f s) (piecingEvent f s) :=
  hR.trans (hR.refill hs) (hR.notify s (tabled_refill hs))
end

theorem keepsPlaces_relation : PlaceRelation (fun s t => s.shift.closing = none → KeepsPlaces s t) where
  same hshift hmon hc := keepsPlaces_of_mon hc hshift hmon
  trans h h' hc := (h hc).trans (h' (h hc).1)
  enter hi hr hst hc := keepsPlaces_enter hi hc hst hr

theorem keepsPlaces_refill {s : State} (hs : s.tabled) (hc : s.shift.closing = none) : KeepsPlaces s (refill s) :=
  keepsPlaces_relation.refill hs hc

theorem keepsPlaces_decideNext (x : Side) {s : State} (hs : s.tabled) (hc : s.shift.closing = none) :
    KeepsPlaces s (decideNext x s) := keepsPlaces_relation.decideNext x hs hc

theorem keepsPlaces_piecingEvent {f : State → State} {s : State} (hs : (f s).tabled) (hc : (f s).shift.closing = none) :
    KeepsPlaces (f s) (piecingEvent f s) := keepsPlaces_relation.piecingEvent hs hc

/-! ### A withdrawn order (R80) -/

theorem withdrawOf_other {y : Side} {i : Nat} {s : State} (h : (s.eng y).order.map Order.index ≠ some i) :
    withdrawOf y i s = s := if_neg fun hyes => h hyes.2

theorem withdrawOf_self {x : Side} {s : State} {o : Order} {robot : Nat} (hstate : (s.eng x).state = .orderOut)
    (ho : (s.eng x).order = some o) (hr : (s.eng x).robot = some robot) : withdrawOf x o.index s =
      setEng x { s.eng x with state := .working, order := none, timer := none }
        (enqueue .workCancel robot (field 2 o.index ++ field 1 o.tag) s) := by
  unfold withdrawOf
  dsimp only
  rw [if_pos ⟨hstate, by rw [ho]; rfl⟩, sendCancel_some hr ho]

theorem withdrawOrder_eq {x : Side} {s : State} {o : Order} {robot : Nat} (hstate : (s.eng x).state = .orderOut)
    (ho : (s.eng x).order = some o) (hr : (s.eng x).robot = some robot)
    (hother : ∀ y, y ≠ x → (s.eng y).order.map Order.index ≠ some o.index) : withdrawOrder o.index s =
      setEng x { s.eng x with state := .working, order := none, timer := none }
        (enqueue .workCancel robot (field 2 o.index ++ field 1 o.tag) s) := by
  have hqueued : ∀ y, (enqueue .workCancel robot (field 2 o.index ++ field 1 o.tag) s).eng y = s.eng y :=
    fun y => eng_of_pie (by simp) y
  unfold withdrawOrder
  cases x with
  | a =>
    rw [withdrawOf_self hstate ho hr]
    refine withdrawOf_other ?_
    rw [eng_setEng_ne (by decide), hqueued]
    exact hother .b (by decide)
  | b =>
    rw [withdrawOf_other (hother .a (by decide))]
    exact withdrawOf_self hstate ho hr

/-- An ORDERED record that a lockout, a strip failure or an exchange begin takes withdraws its order. -/
theorem taken_eq {take : Nat → State → State} {i : Nat} {s : State} (h : take = lockRecord ∨ take = unobserve ∨ take = exchangeRecord)
    (ho : (s.sp i).state = .ordered) : ∃ st, take i s = bookEnter i st (withdrawOrder i s) := by
  rcases h with rfl | rfl | rfl
  · exact ⟨.locked, by unfold lockRecord; rw [if_pos ho]⟩
  · exact ⟨.unobserved, by unfold unobserve; rw [ho]⟩
  · exact ⟨.exchange, by unfold exchangeRecord; rw [ho]⟩

theorem withdrawal_effect {x : Side} {s : State} {o : Order} {robot : Nat} (hstate : (s.eng x).state = .orderOut)
    (ho : (s.eng x).order = some o) (hr : (s.eng x).robot = some robot)
    (hother : ∀ y, y ≠ x → (s.eng y).order.map Order.index ≠ some o.index) (st : SpState) :
    let t := bookEnter o.index st (withdrawOrder o.index s)
    hands [cancelOf robot o] s t ∧ t.eng x = { s.eng x with state := .working, order := none, timer := none } ∧
    ∀ y, y ≠ x → t.eng y = s.eng y := by
  intro t
  have heng : ∀ y, t.eng y = (withdrawOrder o.index s).eng y := fun y => eng_of_engines (by simp [t]) y
  have hline : t.line = (withdrawOrder o.index s).line := by simp [t]
  rw [withdrawOrder_eq hstate ho hr hother] at heng hline
  refine ⟨hline.trans (by simp [cancelOf, handAll]), (heng x).trans (eng_setEng ..), fun y hy => ?_⟩
  rw [heng y, eng_setEng_ne hy]
  exact eng_of_pie (by simp) y

/-! ### What a decision leaves (R71, R73) -/

theorem decideNext_bar (x : Side) (s : State) (y : Side) : ((decideNext x s).side y).bar = (s.side y).bar := by
  unfold decideNext
  split
  · rw [enterIdle_eq, setEng_bar, sendRelease_side]
  · split
    · split
      · next i asc _ =>
        have hrefilled : ∀ n, (State.side { refill (enter i .ordered s) with
            pie := { (refill (enter i .ordered s)).pie with nextTag := n } } y).bar = (s.side y).bar := fun n => by
          have hbar := bar_of_engines (s := s) (t := refill (enter i .ordered s)) (by simp) y
          cases y <;> exact hbar
        unfold issueOrder
        dsimp only
        split
        · rw [setEng_bar, enqueue_side, hrefilled]
        · rw [setEng_bar, hrefilled]
      · rfl
    · rfl

/-- The decision of an engagement that has a robot: it lets the robot go, leaves everything as it is, or orders. -/
theorem decideNext_cases {x : Side} {s : State} {robot : Nat} (hs : s.tabled) (hc : s.shift.closing = none)
    (hr : (s.eng x).robot = some robot) :
    let t := decideNext x s
    t.eng x = (s.eng x).idles ∧ hands [releaseOf x robot s] s t ∨ t = s ∨
    (t.eng x).state = .orderOut ∧ (t.eng x).robot = some robot ∧ (t.eng x).timeouts = (s.eng x).timeouts ∧
      (t.eng x).position = (s.eng x).position ∧ ∃ p, (t.eng x).order = some p ∧ hands [orderOf robot p] s t := by
  intro t
  cases hempty : s.queuesEmpty x with
  | true =>
    have ht : t = setEng x _ (enqueue .robotRelease _ _ s) := decideNext_releases hr hempty
    rw [ht]
    exact .inl ⟨eng_setEng .., by simp [hands, handAll, releaseOf]⟩
  | false =>
    cases hrun : s.frame.run with
    | false => exact .inr (.inl (decideNext_waits hempty hrun))
    | true =>
      cases hsel : s.selection x with
      | none => simp [State.queuesEmpty, (selection_none_iff s x).1 hsel] at hempty
      | some p =>
        obtain ⟨i, asc⟩ := p
        obtain ⟨hi, hq⟩ := served_queued hs (selection_mem hsel)
        have ht : t = issueOrder x i asc s := decideNext_orders hempty hrun hsel
        obtain ⟨-, -, -, -, heng, -, -, hsends⟩ := issueOrder_effect (asc := asc) hs hi hq hc hr
        rw [ht, heng]
        exact .inr (.inr ⟨rfl, hr, rfl, rfl, _, rfl, hsends.1⟩)

theorem decideNext_onlyIn (x : Side) {s : State} (hc : s.shift.closing = none) :
    onlyIn [.mon, .pie, .line, .frame] s (decideNext x s) := by
  have hdraws := decideNext_draws x s
  have hshift := decideNext_shift_idle hc x
  exact ⟨by simp, fun b hb => by cases b <;> simp_all [Block.same]⟩

/-! ### An order that times out (R79) -/

theorem failedPiecing_closing {i : Nat} {s : State} (hc : s.shift.closing = none) : (failedPiecing i s).shift.closing = none := by
  by_cases hstate : (s.sp i).state = .ordered ∨ (s.sp i).state = .confirming
  · have hi : s.hasSpindle i = true := hasSpindle_of_state (by rcases hstate with h | h <;> rw [h] <;> decide)
    cases hx : s.underExchange i with
    | true =>
      rw [failedPiecing_exchange hc hstate hx]
      exact bookEnter_closing (s := s.unpieced i) hc i .exchange
    | false =>
      by_cases hlimit : s.cfg.attemptLimit ≤ min 5 ((s.sp i).attempts + 1)
      · rw [failedPiecing_rogue hc hstate hi hx hlimit, makeRogue_shift_idle (s := s.failedOnce i) hc]
        exact book_closing (s := s.failedOnce i) i hc
      · rw [failedPiecing_joins hc hstate hi hx (Nat.not_le.1 hlimit), joinQueue_shift_idle (s := s.failedOnce i) hc]
        exact hc
  · rw [failedPiecing_other hstate]
    exact hc

/-- The order taken away from its robot. -/
def orderCancelled (x : Side) (o : Order) (robot : Nat) (s : State) : State :=
  setEng x { s.eng x with order := none, timer := none } (enqueue .workCancel robot (field 2 o.index ++ field 1 o.tag) s)

/-- The order taken away, and the ordered record a failed piecing. -/
def orderFailed (x : Side) (o : Order) (robot : Nat) (s : State) : State :=
  refill (failedPiecing o.index (orderCancelled x o robot s))

theorem orderTimedOut_eq {x : Side} {o : Order} {robot : Nat} {s : State} (ho : (s.eng x).order = some o)
    (hr : (s.eng x).robot = some robot) : orderTimedOut x o s =
      let v := orderFailed x o robot s
      if (v.eng x).timeouts = 0 then decideNext x (setEng x { v.eng x with state := .working, timeouts := 1 } v)
      else robotLost x v := by
  have heng : (enqueue .workCancel robot (field 2 o.index ++ field 1 o.tag) s).eng x = s.eng x := eng_of_pie (by simp) x
  unfold orderTimedOut
  dsimp only
  rw [sendCancel_some hr ho, heng]
  rfl

/-- What the failed order leaves before the engagement goes on: one WORK_CANCEL, and the engagement without its order. -/
theorem orderFailed_effect {x : Side} {o : Order} {robot : Nat} {s : State} (hs : s.tabled) (hc : s.shift.closing = none) :
    let v := orderFailed x o robot s
    v.tabled ∧ v.shift.closing = none ∧ v.eng x = { s.eng x with order := none, timer := none } ∧
    (∀ y, (v.side y).bar = (s.side y).bar) ∧ hands [cancelOf robot o] s v ∧
    onlyIn [.mon, .pie, .shift, .line, .frame] s v ∧
    ∀ j, PlaceKept ((failedPiecing o.index (orderCancelled x o robot s)).sp j) (v.sp j) := by
  intro v
  have htabled : (orderCancelled x o robot s).tabled := tabled_setEng (tabled_enqueue hs ..) x _
  have hclosing : (orderCancelled x o robot s).shift.closing = none := by simpa [orderCancelled] using hc
  have hfailed : (failedPiecing o.index (orderCancelled x o robot s)).tabled := tabled_failedPiecing htabled _
  have hkept := keepsPlaces_refill hfailed (failedPiecing_closing hclosing)
  have hengines : v.engines = (orderCancelled x o robot s).engines := by simp [v, orderFailed]
  have hline : v.line = (orderCancelled x o robot s).line := by simp [v, orderFailed]
  have hblocks : onlyIn [.mon, .pie, .shift, .frame] (orderCancelled x o robot s) v :=
    ⟨by simp [v, orderFailed], fun b hb => by cases b <;> simp_all [Block.same, v, orderFailed]⟩
  refine ⟨tabled_refill hfailed, hkept.1, ?_, fun y => ?_, ?_, ?_, hkept.2⟩
  · rw [eng_of_engines hengines, orderCancelled, eng_setEng]
  · rw [bar_of_engines hengines, orderCancelled, setEng_bar, enqueue_side]
  · exact hline.trans (by simp [orderCancelled, cancelOf, handAll])
  · exact onlyIn_seq (onlyIn_seq (cs := [.pie, .line, .frame]) (enqueue_onlyIn ..) (setEng_onlyIn ..) (by simp) (by simp)) hblocks
      (by simp) (by simp)

/-! ### The second timeout in a row (R79) -/

theorem alerted_enterCalling {code : AlertCode} {subject : Option Nat} {s : State} (h : alerted code subject s) (x : Side) :
    alerted code subject (enterCalling x s) := by
  have hframe : (setEng x ((s.eng x).calls s.del.seconds) s).frame = s.frame := by simp
  have hset : alerted code subject (setEng x ((s.eng x).calls s.del.seconds) s) := by
    unfold alerted at *
    rw [hframe]
    exact h
  obtain ⟨_, _, _, heq, -⟩ := pieceCall_eq x (setEng x ((s.eng x).calls s.del.seconds) s)
  rw [enterCalling_eq, heq]
  exact alerted_enqueue hset ..

/-- The state in which a lost robot has been released, barred and reported. -/
def robotBarred (x : Side) (robot : Nat) (s : State) : State :=
  raiseAlert .robotLost .note (some robot)
    (setSide x { (sendRelease x s).side x with bar := some { robot := robot, ends := (sendRelease x s).now + 300 } } (sendRelease x s))

theorem robotLost_eq {x : Side} {robot : Nat} {s : State} (hr : (s.eng x).robot = some robot) : robotLost x s =
    enterCalling x (setEng x ((robotBarred x robot s).eng x).cleared (robotBarred x robot s)) := by
  unfold robotLost robotBarred
  dsimp only
  rw [hr]
  rfl

theorem robotBarred_effect {x : Side} {robot : Nat} {s : State} (hr : (s.eng x).robot = some robot) :
    let t := robotBarred x robot s
    (∀ y, t.eng y = s.eng y) ∧ (t.side x).bar = some { robot := robot, ends := s.del.seconds + 300 } ∧
    alerted .robotLost (some robot) t ∧ hands [releaseOf x robot s] s t ∧ onlyIn [.pie, .line, .frame] s t := by
  intro t
  have hside : ∀ y, t.side y = (setSide x { (sendRelease x s).side x with
      bar := some { robot := robot, ends := (sendRelease x s).now + 300 } } (sendRelease x s)).side y := fun y => rfl
  have hnow : (sendRelease x s).now = s.del.seconds := by simp [State.now]
  have hline : t.line = (sendRelease x s).line := by simp [t, robotBarred]
  have hblocks : onlyIn [.pie, .frame] (sendRelease x s) t :=
    ⟨by simp [t, robotBarred], fun b hb => by cases b <;> simp_all [Block.same, t, robotBarred]⟩
  obtain ⟨-, hreleased, -, hsides⟩ := sendRelease_effect hr
  refine ⟨fun y => ?_, ?_, alerted_raise .., hline.trans (sendRelease_hands hr), onlyIn_seq hreleased hblocks (by simp) (by simp)⟩
  · rw [State.eng, hside y]
    by_cases hy : y = x
    · rw [hy, side_setSide]
      change ((sendRelease x s).side x).eng = s.eng x
      rw [hsides x]
      rfl
    · rw [side_setSide_ne hy]
      exact congrArg SidePiecing.eng (hsides y)
  · rw [hside x, side_setSide, hnow]

/-- The robot that timed out twice in a row: released, barred and reported, and its engagement in a new calling spell. -/
theorem robotLost_effect {x : Side} {robot : Nat} {s : State} (hr : (s.eng x).robot = some robot) :
    let t := robotLost x s
    t.eng x = (s.eng x).cleared.calls s.del.seconds ∧ (t.side x).bar = some { robot := robot, ends := s.del.seconds + 300 } ∧
    alerted .robotLost (some robot) t ∧ handsCall x [releaseOf x robot s] s t ∧
    onlyIn [.pie, .line, .frame, .draws] s t := by
  intro t
  obtain ⟨heng, hbar, halert, hhands, hblocks⟩ := robotBarred_effect hr
  have ht : t = enterCalling x (setEng x ((robotBarred x robot s).eng x).cleared (robotBarred x robot s)) := robotLost_eq hr
  have hport : (robotBarred x robot s).port = s.port := by simp [robotBarred]
  have hdel : (robotBarred x robot s).del = s.del := by simp [robotBarred]
  generalize robotBarred x robot s = v at heng hbar halert hhands hblocks ht hport hdel
  obtain ⟨honly, hcalling, lowest, highest, hcall, hindices⟩ := enterCalling_effect x (setEng x (v.eng x).cleared v)
  rw [← ht] at honly hcalling hcall hindices
  refine ⟨?_, ?_, ?_, ⟨lowest, highest, hands_trans hhands hport (hands_congr hcall (by simp) (by simp) rfl), hindices⟩, ?_⟩
  · rw [honly.eng, eng_setEng, heng, (setEng_frame ..).1, hdel]
  · rw [honly.bar, setEng_bar]
    exact hbar
  · rw [ht]
    refine alerted_enterCalling ?_ x
    unfold alerted at *
    rw [show (setEng x (v.eng x).cleared v).frame = v.frame from by simp]
    exact halert
  · exact onlyIn_seq hblocks (onlyIn_seq (cs := [.pie, .line, .frame, .draws]) (setEng_onlyIn ..) hcalling (by simp) (by simp))
      (by simp) (by simp)

theorem exec_orderTimeout {s : State} (hw : s.works) {x : Side} {o : Order} {due : Nat} (hstate : (s.eng x).state = .orderOut)
    (ho : (s.eng x).order = some o) (htimer : (s.eng x).timer = some due) :
    exec (.orderTimeout x) s = .next (if due ≤ s.del.seconds then orderTimedOut x o s else s) := by
  have hrow : exec (.orderTimeout x) s = execOrderTimeout x s := rfl
  rw [hrow, execOrderTimeout, inRunning_works hw, hstate, ho]
  dsimp only
  rw [htimer]
  exact congrArg Host.Outcome.next (if_congr reached_some rfl rfl)

/-- The ordered record of a failed order, as the engagement's decision leaves it. -/
theorem orderFailed_record {x : Side} {o : Order} {robot : Nat} {s : State} {r : Spindle} (hs : s.tabled) (hc : s.shift.closing = none)
    (ho : (s.sp o.index).state = .ordered)
    (hkept : PlaceKept ((failedPiecing o.index (orderCancelled x o robot s)).sp o.index) r) :
    let attempts := min 5 ((s.sp o.index).attempts + 1)
    ((s.sec (stripOf o.index)).state = .exchanging → r.state = .exchange) ∧
    ((s.sec (stripOf o.index)).state ≠ .exchanging → r.attempts = attempts ∧
      (s.cfg.attemptLimit ≤ attempts → r.state = .rogue) ∧
      (attempts < s.cfg.attemptLimit → r.state = .queued ∨ r.state = .waiting ∨ r.state = .ordered)) := by
  intro attempts
  have htabled : (orderCancelled x o robot s).tabled := tabled_setEng (tabled_enqueue hs ..) x _
  have hclosing : (orderCancelled x o robot s).shift.closing = none := by simpa [orderCancelled] using hc
  have hmon : (orderCancelled x o robot s).mon = s.mon := by simp [orderCancelled]
  have hcreel : (orderCancelled x o robot s).creel = s.creel := by simp [orderCancelled]
  have hcfg : (orderCancelled x o robot s).cfg = s.cfg := cfg_of_port (by simp [orderCancelled])
  have hsp := sp_of_mon hmon o.index
  have hsec : (orderCancelled x o robot s).sec (stripOf o.index) = s.sec (stripOf o.index) := by rw [State.sec, hcreel, State.sec]
  have hi : (orderCancelled x o robot s).hasSpindle o.index = true := by
    rw [has_of_mon hmon]; exact hasSpindle_of_state (by rw [ho]; decide)
  have hstate : ((orderCancelled x o robot s).sp o.index).state = .ordered := by rw [hsp]; exact ho
  generalize orderCancelled x o robot s = u at *
  obtain ⟨-, -, -, -, hexchange, helse⟩ := failedPiecing_effect hi hclosing
    (bookedTo_of_isDown htabled hi (by rw [hstate]; rfl)) (.inl hstate)
  rw [hsec] at hexchange helse
  rw [hsp, hcfg] at helse
  have houtside : ∀ {st : SpState}, ((failedPiecing o.index u).sp o.index).state = st → ¬ st.inPiecing → r.state = st :=
    fun hst hno => by rw [hkept.outside (by rw [hst]; exact hno)]; exact hst
  refine ⟨fun hx => houtside (hexchange hx).1 (by simp [SpState.inPiecing]), fun hx => ?_⟩
  obtain ⟨hatt, hrogue, hjoins⟩ := helse hx
  refine ⟨hkept.attempts.trans hatt, fun hlimit => houtside (hrogue hlimit).1 (by simp [SpState.inPiecing]), fun hless => ?_⟩
  obtain ⟨-, -, hqueued, hwaiting, -⟩ := hjoins hless
  refine hkept.stays ?_
  by_cases hroom : (u.side (u.sideOf o.index)).queue.length < 48
  · exact .inl (hqueued hroom)
  · exact .inr (.inl (hwaiting (Nat.not_lt.1 hroom)))

theorem releaseOf_congr {s t : State} (h : t.cfg = s.cfg) (x : Side) (robot : Nat) : releaseOf x robot t = releaseOf x robot s := by
  rw [releaseOf, releaseOf, State.sideName, State.sideName, State.joined, State.joined, h]

/-- The first timeout in a row: the engagement decides anew, with one timeout counted. -/
theorem orderTimedOut_first {x : Side} {o : Order} {robot : Nat} {s : State} (hs : s.tabled) (hc : s.shift.closing = none)
    (ho : (s.eng x).order = some o) (hr : (s.eng x).robot = some robot) (hfirst : (s.eng x).timeouts = 0) :
    let t := orderTimedOut x o s
    onlyIn [.mon, .pie, .shift, .line, .frame] s t ∧
    PlaceKept ((failedPiecing o.index (orderCancelled x o robot s)).sp o.index) (t.sp o.index) ∧
    (t.eng x).timeouts = 1 ∧ (t.side x).bar = (s.side x).bar ∧
    ((t.eng x).state = .idle ∧ (t.eng x).robot = none ∧ hands [cancelOf robot o, releaseOf x robot s] s t ∨
      (t.eng x).state = .working ∧ (t.eng x).robot = some robot ∧ hands [cancelOf robot o] s t ∨
      (t.eng x).state = .orderOut ∧ (t.eng x).robot = some robot ∧
        ∃ p, (t.eng x).order = some p ∧ hands [cancelOf robot o, orderOf robot p] s t) := by
  intro t
  obtain ⟨hvtabled, hvclosing, heng, hbar, hhands, hblocks, hkept⟩ := orderFailed_effect (x := x) (o := o) (robot := robot) hs hc
  have ht : t = _ := orderTimedOut_eq ho hr
  dsimp only at ht
  rw [if_pos (by rw [heng]; exact hfirst)] at ht
  have hport : (orderFailed x o robot s).port = s.port := by simp [orderFailed, orderCancelled]
  generalize orderFailed x o robot s = v at *
  have hwtabled := tabled_setEng hvtabled x { v.eng x with state := .working, timeouts := 1 }
  have hw : (setEng x { v.eng x with state := .working, timeouts := 1 } v).eng x = { v.eng x with state := .working, timeouts := 1 } :=
    eng_setEng ..
  have hwclosing : (setEng x { v.eng x with state := .working, timeouts := 1 } v).shift.closing = none := by simpa using hvclosing
  have hwport : (setEng x { v.eng x with state := .working, timeouts := 1 } v).port = s.port := by simp [hport]
  have hwline : (setEng x { v.eng x with state := .working, timeouts := 1 } v).line = v.line := by simp
  have hwbar : ((setEng x { v.eng x with state := .working, timeouts := 1 } v).side x).bar = (s.side x).bar := by
    rw [setEng_bar]; exact hbar x
  have hwblocks := onlyIn_seq (cs := [.mon, .pie, .shift, .line, .frame]) hblocks
    (setEng_onlyIn x { v.eng x with state := .working, timeouts := 1 } v) (by simp) (by simp)
  have hwsp : (setEng x { v.eng x with state := .working, timeouts := 1 } v).sp o.index = v.sp o.index := sp_of_mon (by simp) _
  generalize setEng x { v.eng x with state := .working, timeouts := 1 } v = w at *
  have hwhands : hands [cancelOf robot o] s w := hwline.trans hhands
  have hrobot : (w.eng x).robot = some robot := by rw [hw, heng]; exact hr
  obtain ⟨-, hplaces⟩ := keepsPlaces_decideNext x hwtabled hwclosing
  rw [ht]
  refine ⟨onlyIn_seq hwblocks (decideNext_onlyIn x hwclosing) (by simp) (by simp), ?_, ?_⟩
  · exact (hkept o.index).trans ((PlaceKept.of_eq hwsp).trans (hplaces o.index))
  rw [decideNext_bar, hwbar]
  obtain ⟨he, hreleased⟩ | hsame | ⟨hstate, hkeeps, htimeouts, -, p, hp, hordered⟩ := decideNext_cases hwtabled hwclosing hrobot
  · rw [releaseOf_congr (cfg_of_port hwport)] at hreleased
    rw [he, hw]
    exact ⟨rfl, rfl, .inl ⟨rfl, rfl, hands_trans hwhands hwport hreleased⟩⟩
  · rw [hsame]
    exact ⟨by rw [hw], rfl, .inr (.inl ⟨by rw [hw], hrobot, hwhands⟩)⟩
  · exact ⟨by rw [htimeouts, hw], rfl, .inr (.inr ⟨hstate, hkeeps, p, hp, hands_trans hwhands hwport hordered⟩)⟩

/-- The second timeout in a row: the robot released, barred and reported lost, and a new calling spell. -/
theorem orderTimedOut_second {x : Side} {o : Order} {robot : Nat} {s : State} (hs : s.tabled) (hc : s.shift.closing = none)
    (ho : (s.eng x).order = some o) (hr : (s.eng x).robot = some robot) (hagain : (s.eng x).timeouts ≠ 0) :
    let t := orderTimedOut x o s
    onlyIn [.mon, .pie, .shift, .line, .frame, .draws] s t ∧
    PlaceKept ((failedPiecing o.index (orderCancelled x o robot s)).sp o.index) (t.sp o.index) ∧
    (∃ e : Engagement, t.eng x = e.cleared.calls s.del.seconds) ∧ (t.side x).bar = some { robot := robot, ends := s.del.seconds + 300 } ∧
    alerted .robotLost (some robot) t ∧ handsCall x [cancelOf robot o, releaseOf x robot s] s t := by
  intro t
  obtain ⟨-, -, heng, -, hhands, hblocks, hkept⟩ := orderFailed_effect (x := x) (o := o) (robot := robot) hs hc
  have ht : t = _ := orderTimedOut_eq ho hr
  dsimp only at ht
  rw [if_neg (by rw [heng]; exact hagain)] at ht
  have hport : (orderFailed x o robot s).port = s.port := by simp [orderFailed, orderCancelled]
  have hdel : (orderFailed x o robot s).del = s.del := by simp [orderFailed, orderCancelled]
  generalize orderFailed x o robot s = v at *
  obtain ⟨hcalls, hbarred, halert, ⟨lowest, highest, hcall, hindices⟩, hlost⟩ := robotLost_effect (x := x) (robot := robot) (s := v)
    (by rw [heng]; exact hr)
  rw [releaseOf_congr (cfg_of_port hport)] at hcall
  rw [hdel] at hcalls hbarred
  rw [ht]
  have hmon : (robotLost x v).mon = v.mon := hlost.2 .mon (by simp)
  have hall := hands_trans hhands hport hcall
  exact ⟨onlyIn_seq hblocks hlost (by simp) (by simp), (hkept o.index).trans (.of_eq (sp_of_mon hmon _)), ⟨_, hcalls⟩, hbarred, halert,
    lowest, highest, hall, hindices⟩

/-- Settles O21. -/
theorem orderTimeoutFailsThenBars : Obligations.OrderTimeoutFailsThenBars := by
  refine ⟨fun s x o robot take htake hstate ho hr hother hordered => ?_, fun s x o due robot hw hs hc hstate ho htimer hr => ?_⟩
  · obtain ⟨st, htaken⟩ := taken_eq htake hordered
    rw [htaken]
    exact withdrawal_effect hstate ho hr hother st
  · rw [exec_orderTimeout hw hstate ho htimer]
    refine ⟨fun hearly => by rw [if_neg (Nat.not_le.2 hearly)], fun hdue => ?_⟩
    rw [if_pos hdue]
    by_cases hfirst : (s.eng x).timeouts = 0
    · obtain ⟨hblocks, hkept, htimeouts, hbar, hcases⟩ := orderTimedOut_first hs hc ho hr hfirst
      refine ⟨_, rfl, onlyIn_mono hblocks (by simp), fun hordered => orderFailed_record hs hc hordered hkept, fun _ => ?_,
        fun hagain => absurd hfirst hagain⟩
      refine ⟨htimeouts, hbar, ?_⟩
      obtain ⟨hst, hrob, hh⟩ | ⟨hst, hrob, hh⟩ | ⟨hst, hrob, p, hp, hh⟩ := hcases
      · rw [hst]
        exact ⟨.inl ⟨rfl, hrob⟩, fun _ => hh, nofun, nofun⟩
      · rw [hst]
        exact ⟨.inr (.inl ⟨rfl, hrob⟩), nofun, fun _ => hh, nofun⟩
      · rw [hst]
        exact ⟨.inr (.inr ⟨rfl, hrob⟩), nofun, nofun, fun q _ hq => by
          obtain rfl : p = q := Option.some.inj (hp.symm.trans hq)
          exact hh⟩
    · obtain ⟨hblocks, hkept, ⟨e, he⟩, hbar, halert, hcall⟩ := orderTimedOut_second hs hc ho hr hfirst
      refine ⟨_, rfl, hblocks, fun hordered => orderFailed_record hs hc hordered hkept, fun h => absurd h hfirst, fun _ => ?_⟩
      rw [he]
      exact ⟨rfl, rfl, rfl, rfl, rfl, rfl, hbar, halert, hcall⟩

end Sys2Proof.Machine
end

section
/-! PROOFS. The due list, its announcement, the margin check, and lapses and timeouts of the creel unit (R92 to R97, R105, R110). -/

namespace Sys2Proof.Machine

/-! ### The announcement of the due list (R96, R97) -/

theorem announceDue_eq (s : State) : announceDue s =
    { enqueue .rovingDue 0 (duePayload (s.creel.dueList.take 6)) s with
      creel := { s.creel with announceFrom := some s.del.seconds, dueSentAt := some s.del.seconds } } := by
  have hcreel : (enqueue .rovingDue 0 (duePayload (s.creel.dueList.take 6)) s).creel = s.creel := by simp
  have hnow : (enqueue .rovingDue 0 (duePayload (s.creel.dueList.take 6)) s).now = s.del.seconds := by simp [State.now]
  calc announceDue s = { enqueue .rovingDue 0 (duePayload (s.creel.dueList.take 6)) s with
        creel := { (enqueue .rovingDue 0 (duePayload (s.creel.dueList.take 6)) s).creel with
          announceFrom := some (enqueue .rovingDue 0 (duePayload (s.creel.dueList.take 6)) s).now
          dueSentAt := some (enqueue .rovingDue 0 (duePayload (s.creel.dueList.take 6)) s).now } } := rfl
    _ = _ := by rw [hcreel, hnow]

theorem enqueue_setCreel_onlyIn (kind : Kind) (dest : Nat) (payload : List Byte) (c : Creel) (s : State) :
    onlyIn [.creel, .line, .frame] s { enqueue kind dest payload s with creel := c } :=
  ⟨by simp, fun b hb => by cases b <;> simp_all [Block.same]⟩

/-- Settles O27. -/
theorem announcementRepeatsEvery300 : Obligations.AnnouncementRepeatsEvery300 := by
  intro s hw
  have hrow : exec .announcementCount s = .next
      (if reached s.now (s.creel.announceFrom.map (· + Config.announceSeconds)) then
        if s.creel.dueList.isEmpty then { s with creel := { s.creel with announceFrom := some s.now } } else announceDue s
      else s) := inRunning_works hw _
  have hreached : ∀ from_, s.creel.announceFrom = some from_ → from_ + 300 ≤ s.del.seconds →
      reached s.now (s.creel.announceFrom.map (· + Config.announceSeconds)) = true := fun from_ hfrom hdue => by
    rw [hfrom]
    exact reached_some.2 hdue
  rw [hrow]
  refine ⟨fun from_ hfrom hdue hempty => ?_, fun from_ hfrom hdue hsome => ?_, fun hearly => ?_⟩
  · rw [if_pos (hreached from_ hfrom hdue), hempty]
    rfl
  · rw [if_pos (hreached from_ hfrom hdue), if_neg (by simpa using hsome), announceDue_eq]
    exact ⟨_, rfl, enqueue_setCreel_onlyIn .., rfl, rfl, rfl⟩
  · rw [if_neg]
    intro hyes
    obtain ⟨due, hmap, hdue⟩ := reached_iff_exists.1 hyes
    obtain ⟨from_, hfrom, rfl⟩ := Option.map_eq_some_iff.1 hmap
    exact absurd hdue (Nat.not_le.2 (hearly from_ hfrom))

/-! ### The order of the due list (R94) -/

/-- The order of the due list: minutes, then section number. -/
def DueEntry.before (d e : DueEntry) : Prop := d.minutes < e.minutes ∨ d.minutes = e.minutes ∧ d.number < e.number

theorem DueEntry.before_trans {d e f : DueEntry} (h : d.before e) (h' : e.before f) : d.before f := by
  unfold DueEntry.before at *
  omega

theorem DueEntry.before_total {d e : DueEntry} (hne : d.number ≠ e.number) (h : ¬ e.before d) : d.before e := by
  unfold DueEntry.before at *
  omega

theorem mem_insertDue {d e : DueEntry} {l : List DueEntry} : d ∈ insertDue e l ↔ d = e ∨ d ∈ l := by
  induction l with
  | nil => simp [insertDue]
  | cons f rest ih =>
    unfold insertDue
    split
    · simp
    · simp only [List.mem_cons, ih]
      tauto

/-- An entry of a new section joins a list in order at its place. -/
theorem insertDue_pairwise {e : DueEntry} {l : List DueEntry} (hnew : ∀ d ∈ l, d.number ≠ e.number)
    (h : l.Pairwise DueEntry.before) : (insertDue e l).Pairwise DueEntry.before := by
  induction l with
  | nil => simp [insertDue]
  | cons f rest ih =>
    obtain ⟨hf, hrest⟩ := List.pairwise_cons.1 h
    unfold insertDue
    split
    · next hbefore =>
      refine List.pairwise_cons.2 ⟨fun d hd => ?_, h⟩
      obtain rfl | hd := List.mem_cons.1 hd
      · exact hbefore
      · exact DueEntry.before_trans hbefore (hf d hd)
    · next hbefore =>
      refine List.pairwise_cons.2 ⟨fun d hd => ?_, ih (fun d hd => hnew d (List.mem_cons_of_mem _ hd)) hrest⟩
      obtain rfl | hd := mem_insertDue.1 hd
      · exact DueEntry.before_total (hnew f List.mem_cons_self) hbefore
      · exact hf d hd

/-- The entry of a due section. -/
def State.dueEntry (s : State) (k : Nat) : DueEntry := { number := k, minutes := (s.sec k).minutes.getD 0 }

/-- The due sections of a list of numbers, put in order behind those of `l`. -/
theorem dueFold_spec (s : State) (ks : List Nat) (hks : ks.Nodup) {l : List DueEntry} (hl : ∀ e ∈ l, e.number ∉ ks)
    (hsorted : l.Pairwise DueEntry.before) :
    let m := ks.foldl (fun l k =>
      if (s.sec k).due then insertDue { number := k, minutes := (s.sec k).minutes.getD 0 } l else l) l
    m.Pairwise DueEntry.before ∧ ∀ e, e ∈ m ↔ e ∈ l ∨ ∃ k ∈ ks, (s.sec k).due = true ∧ e = s.dueEntry k := by
  induction ks generalizing l with
  | nil => exact ⟨hsorted, by simp⟩
  | cons k ks ih =>
    obtain ⟨hk, hks'⟩ := List.nodup_cons.1 hks
    by_cases hdue : (s.sec k).due = true
    · have hnew : ∀ d ∈ l, d.number ≠ (s.dueEntry k).number := fun d hd h => hl d hd (by rw [h]; exact List.mem_cons_self)
      have hrest : ∀ e ∈ insertDue (s.dueEntry k) l, e.number ∉ ks := fun e he => by
        obtain rfl | he := mem_insertDue.1 he
        · exact hk
        · exact fun hmem => hl e he (List.mem_cons_of_mem _ hmem)
      obtain ⟨hpair, hmem⟩ := ih hks' hrest (insertDue_pairwise hnew hsorted)
      simp only [List.foldl_cons, if_pos hdue]
      refine ⟨hpair, fun e => (hmem e).trans ?_⟩
      rw [mem_insertDue]
      simp only [List.mem_cons, exists_eq_or_imp, hdue, true_and]
      tauto
    · obtain ⟨hpair, hmem⟩ := ih hks' (fun e he h => hl e he (List.mem_cons_of_mem _ h)) hsorted
      simp only [List.foldl_cons, if_neg hdue]
      refine ⟨hpair, fun e => (hmem e).trans ?_⟩
      simp only [List.mem_cons, exists_eq_or_imp, hdue]
      tauto

theorem dueSections_spec (s : State) : s.dueSections.Pairwise DueEntry.before ∧
    ∀ e, e ∈ s.dueSections ↔ ∃ k ∈ s.numbers, (s.sec k).due = true ∧ e = s.dueEntry k := by
  obtain ⟨hpair, hmem⟩ := dueFold_spec s s.numbers List.nodup_range' (l := []) (by simp) .nil
  exact ⟨hpair, fun e => (hmem e).trans (by simp)⟩

theorem mem_numbers {s : State} {k : Nat} : k ∈ s.numbers ↔ 1 ≤ k ∧ k ≤ s.creel.sections.length := by
  rw [State.numbers, List.mem_range'_1]
  omega

/-- What the first `n` of a list in order leave out stands behind all of them. -/
theorem take_or_behind {l : List DueEntry} (h : l.Pairwise DueEntry.before) {n : Nat} {e : DueEntry} (he : e ∈ l) :
    e ∈ l.take n ∨ (l.take n).length = n ∧ ∀ d ∈ l.take n, d.before e := by
  rw [← List.take_append_drop n l] at h he
  obtain ⟨-, -, hcross⟩ := List.pairwise_append.1 h
  obtain htake | hdrop := List.mem_append.1 he
  · exact .inl htake
  · refine .inr ⟨?_, fun d hd => hcross d hd e hdrop⟩
    have hlong : 0 < (l.drop n).length := List.length_pos_of_mem hdrop
    rw [List.length_drop] at hlong
    rw [List.length_take]
    omega

/-! ### The rebuild (R94, R96) -/

/-- The state with its due list rebuilt, before an announcement. -/
def State.dueRebuilt (s : State) : State :=
  { s with creel := { s.creel with
    dueList := s.dueSections.take 16, firstSix := ((s.dueSections.take 16).take 6).map DueEntry.number } }

theorem rebuildDue_quiet {s : State} (h : s.dueRebuilt.creel.firstSix = s.creel.firstSix) : rebuildDue s = s.dueRebuilt := if_pos h

theorem rebuildDue_announces {s : State} (h : s.dueRebuilt.creel.firstSix ≠ s.creel.firstSix) :
    rebuildDue s = announceDue s.dueRebuilt := if_neg h

/-- A rebuild changes the due list, its first six, and the announcement's times. -/
theorem rebuildDue_creel (s : State) : (rebuildDue s).creel = { s.dueRebuilt.creel with
    announceFrom := (rebuildDue s).creel.announceFrom, dueSentAt := (rebuildDue s).creel.dueSentAt } := by
  by_cases h : s.dueRebuilt.creel.firstSix = s.creel.firstSix
  · rw [rebuildDue_quiet h]
  · rw [rebuildDue_announces h, announceDue_eq]

theorem rebuildDue_sec (s : State) (k : Nat) : (rebuildDue s).sec k = s.sec k := by
  rw [State.sec, rebuildDue_creel]
  rfl

theorem dueRebuilt_onlyIn (s : State) : onlyIn [.creel] s s.dueRebuilt :=
  ⟨rfl, fun b hb => by cases b <;> simp_all [Block.same, State.dueRebuilt]⟩

theorem rebuildDue_onlyIn (s : State) : onlyIn [.creel, .line, .frame] s (rebuildDue s) := by
  by_cases h : s.dueRebuilt.creel.firstSix = s.creel.firstSix
  · rw [rebuildDue_quiet h]
    exact onlyIn_mono (dueRebuilt_onlyIn s) (by simp)
  · rw [rebuildDue_announces h, announceDue_eq]
    exact onlyIn_seq (dueRebuilt_onlyIn s) (enqueue_setCreel_onlyIn ..) (by simp) (by simp)

/-- Settles O28. -/
theorem dueListOrderedAndAnnounced : Obligations.DueListOrderedAndAnnounced := by
  intro s t l before six
  have hl : l = s.dueSections.take 16 := by rw [show l = (rebuildDue s).creel.dueList from rfl, rebuildDue_creel]; rfl
  have hsix : t.creel.firstSix = six := by
    rw [show six = (l.take 6).map DueEntry.number from rfl, hl, show t = rebuildDue s from rfl, rebuildDue_creel]
    rfl
  obtain ⟨hpair, hmem⟩ := dueSections_spec s
  have hrebuilt : s.dueRebuilt.creel.firstSix = six := by
    rw [show six = (l.take 6).map DueEntry.number from rfl, hl]
    rfl
  refine ⟨rebuildDue_onlyIn s, rebuildDue_sec s, ?_, ?_, fun e he => ?_, fun k hk hk' hdue => ?_, hsix, fun hsame => ?_, fun hnew => ?_⟩
  · rw [hl, List.length_take]
    exact Nat.min_le_left ..
  · rw [hl]
    exact hpair.sublist (List.take_sublist _ _)
  · rw [hl] at he
    obtain ⟨k, hk, hdue, rfl⟩ := (hmem e).1 (List.mem_of_mem_take he)
    obtain ⟨hlow, hhigh⟩ := mem_numbers.1 hk
    exact ⟨hlow, hhigh, hdue, rfl⟩
  · rw [hl]
    obtain htaken | hbehind := take_or_behind hpair (n := 16) ((hmem _).2 ⟨k, mem_numbers.2 ⟨hk, hk'⟩, hdue, rfl⟩)
    · exact .inl ⟨_, htaken, rfl⟩
    · exact .inr hbehind
  · have ht : t = s.dueRebuilt := rebuildDue_quiet (hrebuilt.trans hsame)
    rw [ht]
    exact ⟨rfl, rfl, rfl⟩
  · have ht : t = announceDue s.dueRebuilt := rebuildDue_announces (fun h => hnew (hrebuilt.symm.trans h))
    have hlist : s.dueRebuilt.creel.dueList = l := hl.symm
    rw [ht, announceDue_eq, hlist]
    exact ⟨rfl, sends_congr (s' := s.dueRebuilt) rfl rfl rfl rfl ⟨rfl, rfl⟩⟩

end Sys2Proof.Machine
end

section
/-! PROOFS. The rules of the section table and the booking slots, and lapses and timeouts (R105, R110). -/

namespace Sys2Proof.Machine

/-! ### Reading the section table and the slots after a write -/

theorem hasSection_iff {s : State} {k : Nat} : s.hasSection k = true ↔ 1 ≤ k ∧ k ≤ s.creel.sections.length := by
  simp [State.hasSection]

theorem sec_blank {s : State} {k : Nat} (h : ¬ s.hasSection k = true) : s.sec k = Section.blank := by
  rw [hasSection_iff] at h
  cases k with
  | zero => rfl
  | succ k => exact List.getD_eq_default _ _ (by omega)

theorem modifySec_sec_ne {k m : Nat} (h : m ≠ k) (f : Section → Section) (s : State) : (modifySec k f s).sec m = s.sec m :=
  sec_setSec_ne _ _ _ _ h.symm

theorem modifySec_sec_self {k : Nat} {s : State} (h : s.hasSection k = true) (f : Section → Section) :
    (modifySec k f s).sec k = f (s.sec k) := by
  obtain ⟨hlow, hhigh⟩ := hasSection_iff.1 h
  exact sec_setSec_self _ _ _ hlow hhigh

/-- A write that leaves a section that does not exist as it is changes the one section it names. -/
theorem modifySec_sec {f : Section → Section} (hf : f Section.blank = Section.blank) (k m : Nat) (s : State) :
    (modifySec k f s).sec m = if m = k then f (s.sec m) else s.sec m := by
  by_cases hm : m = k
  · subst hm
    rw [if_pos rfl]
    by_cases h : s.hasSection m = true
    · exact modifySec_sec_self h f
    · have h' : ¬ (modifySec m f s).hasSection m = true := by
        rw [hasSection_iff] at h ⊢
        cases m with
        | zero => simp
        | succ m => simpa [modifySec, setSec, setNth] using h
      rw [sec_blank h', sec_blank h, hf]
  · rw [if_neg hm]
    exact modifySec_sec_ne hm f s

/-- The creel unit beside its sections and its slots. -/
def Creel.besideBookings (c : Creel) : Creel := { c with sections := [], slot1 := none, slot2 := none }

theorem modifySec_slot (k : Nat) (f : Section → Section) (s : State) (n : Nat) : (modifySec k f s).slot n = s.slot n := rfl

theorem setSlot_sec (n : Nat) (b : Option Booking) (s : State) (m : Nat) : (setSlot n b s).sec m = s.sec m := by
  unfold setSlot
  split <;> rfl

theorem setSlot_besideBookings (n : Nat) (b : Option Booking) (s : State) :
    (setSlot n b s).creel.besideBookings = s.creel.besideBookings := by
  unfold setSlot
  split <;> rfl

theorem setSlot_other {n : Nat} (hn : n = 1 ∨ n = 2) (b : Option Booking) (s : State) : (setSlot n b s).slot (3 - n) = s.slot (3 - n) := by
  rcases hn with rfl | rfl <;> rfl

theorem slot_of_creel {s t : State} (h : t.creel = s.creel) (n : Nat) : t.slot n = s.slot n := by
  rw [State.slot, h, State.slot]

/-- Sections unbooked one after the other. -/
theorem each_unbooked (l : List Nat) (s : State) :
    (∀ m, (each l (fun k => modifySec k (fun x => { x with booking := none })) s).sec m =
      if m ∈ l then { s.sec m with booking := none } else s.sec m) ∧
    (∀ n, (each l (fun k => modifySec k (fun x => { x with booking := none })) s).slot n = s.slot n) ∧
    (each l (fun k => modifySec k (fun x => { x with booking := none })) s).creel.besideBookings = s.creel.besideBookings := by
  induction l generalizing s with
  | nil => exact ⟨fun m => by simp [each], fun _ => rfl, rfl⟩
  | cons k l ih =>
    obtain ⟨hsec, hslot, hrest⟩ := ih (modifySec k (fun x => { x with booking := none }) s)
    refine ⟨fun m => (hsec m).trans ?_, hslot, hrest⟩
    rw [modifySec_sec rfl]
    by_cases hm : m = k <;> by_cases hl : m ∈ l <;> simp [hm, hl]

/-! ### A slot that is freed (R105, R106, R111) -/

theorem freeSlot_effect {n : Nat} (hn : n = 1 ∨ n = 2) {b : Booking} {s : State} (h : s.slot n = some b) :
    let t := freeSlot n s
    onlyIn [.creel] s t ∧ t.slot n = none ∧ t.slot (3 - n) = s.slot (3 - n) ∧ t.creel.besideBookings = s.creel.besideBookings ∧
    ∀ k, t.sec k = if k ∈ b.sections then { s.sec k with booking := none } else s.sec k := by
  intro t
  obtain ⟨hsec, hslot, hrest⟩ := each_unbooked b.sections s
  have ht : t = setSlot n none (each b.sections (fun k => modifySec k (fun x => { x with booking := none })) s) := by
    show freeSlot n s = _
    unfold freeSlot
    rw [h]
  have hblocks : onlyIn [.creel] s t := ⟨by simp [t], fun c hc => by cases c <;> simp_all [Block.same, t]⟩
  refine ⟨hblocks, ?_, ?_, ?_, fun k => ?_⟩
  · rw [ht, slot_setSlot]
  · rw [ht, setSlot_other hn, hslot]
  · rw [ht, setSlot_besideBookings, hrest]
  · rw [ht, setSlot_sec, hsec]

theorem creel_of_besideBookings {c d : Creel} (h : c.besideBookings = d.besideBookings) :
    c = { d with sections := c.sections, slot1 := c.slot1, slot2 := c.slot2 } := by
  cases c
  cases d
  simp_all [Creel.besideBookings]

/-! ### A section that leaves its booking (R108, R110, R113) -/

theorem unbook_sec (k m : Nat) (s : State) : (unbook k s).sec m = if m = k then { s.sec m with booking := none } else s.sec m := by
  have hset := modifySec_sec (f := fun x => { x with booking := none }) rfl k m s
  unfold unbook
  cases hb : (s.sec k).booking with
  | none =>
    dsimp only
    split
    · next hm => subst hm; rw [← hb]
    · rfl
  | some n =>
    dsimp only
    rw [modifySec_slot]
    cases s.slot n with
    | none => exact hset
    | some b => exact (setSlot_sec ..).trans hset

theorem unbook_besideBookings (k : Nat) (s : State) : (unbook k s).creel.besideBookings = s.creel.besideBookings := by
  unfold unbook
  cases (s.sec k).booking with
  | none => rfl
  | some n =>
    dsimp only
    rw [modifySec_slot]
    cases s.slot n with
    | none => rfl
    | some b => exact setSlot_besideBookings ..

/-- Section `k` has left its booking, and the slots have lost it. -/
theorem unbook_leftBooking (k : Nat) (s : State) : leftBooking k s (unbook k s) := by
  refine ⟨by rw [unbook_sec, if_pos rfl], fun hb => ?_, fun n b hn hb hslot => ?_⟩
  · unfold unbook
    rw [hb]
    exact ⟨rfl, rfl⟩
  · have heq : unbook k s = setSlot n (if (b.sections.filter (· != k)).isEmpty then none
        else some { b with sections := b.sections.filter (· != k) }) (modifySec k (fun x => { x with booking := none }) s) := by
      unfold unbook
      rw [hb]
      dsimp only
      rw [modifySec_slot, hslot]
    rw [heq, slot_setSlot, setSlot_other hn, modifySec_slot]
    exact ⟨if_congr List.isEmpty_iff rfl rfl, rfl⟩

/-- What happens to a section before and after it leaves its booking does not matter to the booking. -/
theorem leftBooking_of {k : Nat} {s s' t' t : State} (h : leftBooking k s' t') (hbooking : (s'.sec k).booking = (s.sec k).booking)
    (hslots : ∀ n, s'.slot n = s.slot n) (hbooking' : (t.sec k).booking = (t'.sec k).booking) (hslots' : ∀ n, t.slot n = t'.slot n) :
    leftBooking k s t := by
  obtain ⟨hnone, hkept, htaken⟩ := h
  refine ⟨hbooking'.trans hnone, fun hb => ?_, fun n b hn hb hslot => ?_⟩
  · obtain ⟨h1, h2⟩ := hkept (hbooking.trans hb)
    exact ⟨(hslots' 1).trans (h1.trans (hslots 1)), (hslots' 2).trans (h2.trans (hslots 2))⟩
  · obtain ⟨hn', hother⟩ := htaken n b hn (hbooking.trans hb) ((hslots n).trans hslot)
    exact ⟨(hslots' n).trans hn', (hslots' (3 - n)).trans (hother.trans (hslots (3 - n)))⟩

/-! ### The due list rebuilt, seen from the rest of the creel unit -/

theorem rebuildDue_slot (s : State) (n : Nat) : (rebuildDue s).slot n = s.slot n := by
  rw [State.slot, rebuildDue_creel]
  rfl

theorem rebuildDue_stray (s : State) : (rebuildDue s).creel.stray = s.creel.stray := by
  rw [rebuildDue_creel]
  rfl

theorem stray_of_besideBookings {s t : State} (h : t.creel.besideBookings = s.creel.besideBookings) :
    t.creel.stray = s.creel.stray := by
  have hstray : t.creel.besideBookings.stray = s.creel.besideBookings.stray := by rw [h]
  exact hstray

theorem raiseAlert_onlyIn (code : AlertCode) (cls : AlertClass) (subject : Option Nat) (s : State) :
    onlyIn [.frame] s (raiseAlert code cls subject s) :=
  ⟨rfl, fun b hb => by cases b <;> simp_all [Block.same]⟩

theorem alerted_rebuildDue {code : AlertCode} {subject : Option Nat} {s : State} (h : alerted code subject s) :
    alerted code subject (rebuildDue s) := by
  by_cases hsix : s.dueRebuilt.creel.firstSix = s.creel.firstSix
  · rw [rebuildDue_quiet hsix]
    exact h
  · rw [rebuildDue_announces hsix, announceDue_eq]
    exact alerted_enqueue (s := s.dueRebuilt) h ..

/-! ### An exchange that ends without a load (R110) -/

/-- The state before the alert and the due list of an exchange that ends without a load. -/
def exchangeLeft (k : Nat) (s : State) : State := unbook k (settleSection k .unknown s)

theorem exchangeLeft_effect {k : Nat} {s : State} (hk : s.hasSection k = true) :
    let t := exchangeLeft k s
    t.sec k = { s.sec k with state := .unknown, timer := none, carrier := none, booking := none } ∧
    (∀ m, m ≠ k → t.sec m = s.sec m) ∧ leftBooking k s t ∧ t.creel.stray = s.creel.stray ∧
    onlyIn [.creel] s t := by
  intro t
  have hsettled : (settleSection k .unknown s).sec k = { s.sec k with state := .unknown, timer := none, carrier := none } :=
    modifySec_sec_self hk _
  have hother : ∀ m, m ≠ k → (settleSection k .unknown s).sec m = s.sec m := fun m hm => modifySec_sec_ne hm _ s
  refine ⟨?_, fun m hm => ?_, ?_, ?_, ?_⟩
  · exact (unbook_sec k k _).trans (by rw [if_pos rfl, hsettled])
  · exact (unbook_sec k m _).trans (by rw [if_neg hm, hother m hm])
  · exact leftBooking_of (s' := settleSection k .unknown s) (unbook_leftBooking k _) (by rw [hsettled]) (fun _ => rfl) rfl (fun _ => rfl)
  · exact (stray_of_besideBookings (unbook_besideBookings k _)).trans rfl
  · exact ⟨by simp [t, exchangeLeft], fun b hb => by cases b <;> simp_all [Block.same, t, exchangeLeft]⟩

/-- The exchange of a section ends without a load. -/
theorem endUnknown_endedWithoutLoad {k : Nat} {s : State} (hk : s.hasSection k = true) : endedWithoutLoad k s (endUnknown k s) := by
  obtain ⟨hself, hother, hbooking, hstray, hblocks⟩ := exchangeLeft_effect hk
  have ht : endUnknown k s = rebuildDue (modifySec k (fun x => { x with minutes := none, due := false })
      (raiseAlert .exchangeUnknown .action (some k) (exchangeLeft k s))) := rfl
  rw [ht]
  generalize exchangeLeft k s = u at *
  have hunpredicted : ∀ v, onlyIn [.creel] v (modifySec k (fun x => { x with minutes := none, due := false }) v) := fun v =>
    ⟨rfl, fun b hb => by cases b <;> simp_all [Block.same]⟩
  have hsec : ∀ m, (modifySec k (fun x => { x with minutes := none, due := false })
      (raiseAlert .exchangeUnknown .action (some k) u)).sec m =
        if m = k then { u.sec m with minutes := none, due := false } else u.sec m := fun m => modifySec_sec rfl k m _
  refine ⟨?_, ?_, fun m hm => ?_, ?_, ?_, ?_⟩
  · exact onlyIn_seq (onlyIn_seq (cs := [.creel, .line, .frame]) hblocks (raiseAlert_onlyIn ..) (by simp) (by simp))
      (onlyIn_seq (cs := [.creel, .line, .frame]) (hunpredicted _) (rebuildDue_onlyIn _) (by simp) (by simp)) (by simp) (by simp)
  · rw [rebuildDue_sec, hsec, if_pos rfl, hself]
  · rw [rebuildDue_sec, hsec, if_neg hm, hother m hm]
  · refine leftBooking_of hbooking rfl (fun _ => rfl) ?_ (fun n => rebuildDue_slot _ n)
    rw [rebuildDue_sec, hsec, if_pos rfl]
  · exact alerted_rebuildDue (alerted_raise ..)
  · rw [rebuildDue_stray]
    exact hstray

/-! ### A lapse and a timeout (R105, R110) -/

theorem exec_bookingLapse {s : State} (hw : s.works) (n : Nat) : exec (.bookingLapse n) s = .next
    (if reached s.now ((s.slot n).map Booking.lapse) then lapse n s else s) := inRunning_works hw _

theorem exec_exchangeTimeout {s : State} (hw : s.works) (k : Nat) : exec (.exchangeTimeout k) s = .next
    (if s.hasSection k ∧ (s.sec k).state = .exchanging ∧ reached s.now (s.sec k).timer then endUnknown k s else s) :=
  inRunning_works hw _

/-- Settles O31. -/
theorem bookingsLapseAndExchangesTimeOut : Obligations.BookingsLapseAndExchangesTimeOut := by
  refine ⟨fun s n hw hn => ⟨fun b hslot hdue => ?_, fun hearly => ?_⟩, fun s k hw => ⟨fun due hk hstate htimer hdue => ?_, fun hno => ?_⟩⟩
  · obtain ⟨hblocks, hfreed, hother, hrest, hsec⟩ := freeSlot_effect hn hslot
    have hlapse : lapse n s = raiseAlert .bookingLapsed .note (some b.carrier) (freeSlot n s) := by
      unfold lapse
      rw [hslot]
    rw [exec_bookingLapse hw, if_pos (by rw [hslot]; exact reached_some.2 hdue), hlapse]
    refine ⟨_, rfl, onlyIn_seq hblocks (raiseAlert_onlyIn ..) (by simp) (by simp), hfreed, hother,
      creel_of_besideBookings hrest, hsec, alerted_raise ..⟩
  · rw [exec_bookingLapse hw, if_neg]
    intro hyes
    obtain ⟨due, hmap, hdue⟩ := reached_iff_exists.1 hyes
    obtain ⟨b, hslot, rfl⟩ := Option.map_eq_some_iff.1 hmap
    exact absurd hdue (Nat.not_le.2 (hearly b hslot))
  · rw [exec_exchangeTimeout hw, if_pos ⟨hk, hstate, by rw [htimer]; exact reached_some.2 hdue⟩]
    exact ⟨_, rfl, endUnknown_endedWithoutLoad hk⟩
  · rw [exec_exchangeTimeout hw, if_neg]
    rintro ⟨-, hstate, hreached⟩
    obtain ⟨due, htimer, hdue⟩ := reached_iff_exists.1 hreached
    exact hno.elim (fun h => h hstate) (fun h => absurd hdue (Nat.not_le.2 (h due htimer)))

end Sys2Proof.Machine
end

section
/-! PROOFS. The margin check and the recompute (R91 to R93). -/

namespace Sys2Proof.Machine

/-! ### The margin check of one record (R92) -/

theorem remaining_some {i : Nat} {b : Base} {s : State} (h : (s.sec (stripOf i)).base = some b) :
    s.remaining i = some (s.remainingFrom b i) := by
  rw [State.remaining, h]
  rfl

theorem marginOne_taken {i left : Nat} {s : State} (hstate : (s.sp i).state = .waiting ∨ (s.sp i).state = .queued)
    (hleft : s.remaining i = some left) (hmargin : s.atMargin left = true) :
    marginOne i s = emptyAlert i (bookEnter i .empty s) := by
  unfold marginOne
  rw [if_pos hstate, hleft]
  exact if_pos hmargin

theorem marginOne_keeps {i : Nat} {s : State} (h : (s.sp i).state = .waiting ∨ (s.sp i).state = .queued → ∀ left,
    s.remaining i = some left → s.atMargin left = false) : marginOne i s = s := by
  unfold marginOne
  by_cases hstate : (s.sp i).state = .waiting ∨ (s.sp i).state = .queued
  · rw [if_pos hstate]
    cases hleft : s.remaining i with
    | none => rfl
    | some left => exact if_neg (by rw [h hstate left hleft]; decide)
  · exact if_neg hstate

theorem stripOf_mem {k j : Nat} (hk : 1 ≤ k) (hj : j ∈ indicesOf k) : stripOf j = k := by
  rw [mem_indicesOf hk] at hj
  rw [stripOf, show Config.perStrip = 24 from rfl]
  omega

theorem one_le_stripOf (i : Nat) : 1 ≤ stripOf i := Nat.le_add_left _ _

/-- The one EMPTY record of a section is reported. -/
theorem emptyAlert_alerted {i : Nat} {s : State} (h : ∀ j, j ≠ i → stripOf j = stripOf i → (s.sp j).state ≠ .empty) :
    alerted .rovingEmpty (some (stripOf i)) (emptyAlert i s) := by
  have hcount : s.emptyCount (stripOf i) ≤ 1 := by
    have honly : s.emptyCount (stripOf i) ≤ (indicesOf (stripOf i)).count i := by
      refine List.countP_mono_left fun j hj hempty => ?_
      by_contra hne
      exact h j (by simpa using hne) (stripOf_mem (one_le_stripOf i) hj) (by simpa using hempty)
    exact honly.trans (List.nodup_iff_count_le_one.1 (nodup_indicesOf _) i)
  unfold emptyAlert
  rw [if_pos hcount]
  exact alerted_raise ..

/-- Settles O29. -/
theorem marginCheckEmptiesQueuedEnds : Obligations.MarginCheckEmptiesQueuedEnds := by
  intro s i b hs hi hc hbase t r taken
  have hleft := remaining_some hbase
  have hmargin : s.atMargin (s.remainingFrom b i) = true ↔ s.remainingFrom b i ≤ s.cfg.emptyMargin * 1000 := by simp [State.atMargin]
  have hsp : ∀ j, (emptyAlert i (bookEnter i .empty s)).sp j = (bookEnter i .empty s).sp j := sp_of_mon (by simp)
  have hkeeps : ¬ taken → t = s := fun hno => marginOne_keeps fun hstate left hl => by
    obtain rfl : s.remainingFrom b i = left := Option.some.inj (hleft.symm.trans hl)
    exact Bool.eq_false_iff.2 fun hyes => hno ⟨hstate, hmargin.1 hyes⟩
  refine ⟨fun j hj => ?_, hkeeps, fun htaken => ?_⟩
  · by_cases htaken : taken
    · rw [show t = _ from marginOne_taken htaken.1 hleft (hmargin.2 htaken.2), hsp]
      exact bookEnter_sp_ne hj.symm _ _
    · rw [hkeeps htaken]
  · have hdown : r.state.isDown = true := by rcases htaken.1 with h | h <;> rw [h] <;> rfl
    obtain ⟨hstate, hcause, hattempts, hpieced, hbreaks, hsince, -, hto⟩ := bookEnter_taken hi hc (.inr rfl) hdown
    rw [show t = _ from marginOne_taken htaken.1 hleft (hmargin.2 htaken.2), hsp]
    refine ⟨hstate, hcause, hattempts, hpieced, hto (bookedTo_of_isDown hs hi hdown), hsince, hbreaks, fun hnone => ?_⟩
    exact emptyAlert_alerted fun j hj hstrip => by rw [bookEnter_sp_ne hj.symm]; exact hnone j hstrip

/-! ### What the recompute of a section leaves elsewhere (R91) -/

theorem marginOne_sp_ne {i j : Nat} (h : i ≠ j) (s : State) : (marginOne i s).sp j = s.sp j := by
  unfold marginOne
  split
  · split
    · split
      · exact (sp_of_mon (s := bookEnter i .empty s) (by simp) j).trans (bookEnter_sp_ne h _ _)
      · rfl
    · rfl
  · rfl

/-- A record that is neither WAITING nor QUEUED is passed over. -/
theorem marginOne_sp_outside {i : Nat} {s : State} (h : (s.sp i).state ≠ .waiting) (h' : (s.sp i).state ≠ .queued) :
    marginOne i s = s := marginOne_keeps fun hstate => absurd hstate (not_or.2 ⟨h, h'⟩)

theorem each_marginOne_sp_outside {j : Nat} (l : List Nat) {s : State} (h : (s.sp j).state ≠ .waiting)
    (h' : (s.sp j).state ≠ .queued) : (each l marginOne s).sp j = s.sp j :=
  each_keepsProp (fun u => u.sp j = s.sp j) l marginOne (fun i u hu => by
    by_cases hi : i = j
    · subst hi
      rw [marginOne_sp_outside (by rw [hu]; exact h) (by rw [hu]; exact h')]
      exact hu
    · exact (marginOne_sp_ne hi u).trans hu) rfl

theorem tabled_each_marginOne (l : List Nat) {s : State} (hs : s.tabled) : (each l marginOne s).tabled :=
  each_keepsProp State.tabled _ _ (fun i _ h => tabled_marginOne h i) hs

theorem emptyAlert_shift (i : Nat) (s : State) : (emptyAlert i s).shift = s.shift := by simp

theorem marginOne_closing (i : Nat) {s : State} (hc : s.shift.closing = none) : (marginOne i s).shift.closing = none := by
  unfold marginOne
  split
  · split
    · split
      · rw [emptyAlert_shift]
        exact bookEnter_closing hc i .empty
      · exact hc
    · exact hc
  · exact hc

/-- The margin checks of section `k` with what follows in the piecing engine (R92). -/
def marginSection (k : Nat) (s : State) : State := piecingEvent (each (indicesOf k) marginOne) s

theorem marginSection_creel (k : Nat) (s : State) : (marginSection k s).creel = s.creel :=
  piecingEvent_creel _ (fun v => each_keeps State.creel _ _ (fun i u => by simp) v) s

theorem each_marginOne_closing (l : List Nat) {s : State} (hc : s.shift.closing = none) :
    (each l marginOne s).shift.closing = none :=
  each_keepsProp (fun u => u.shift.closing = none) l marginOne (fun i _ hu => marginOne_closing i hu) hc

theorem piecingEvent_closing {f : State → State} {s : State} (hc : (f s).shift.closing = none) :
    (piecingEvent f s).shift.closing = none := by
  rw [piecingEvent_shift_idle hc]
  exact hc

theorem marginSection_closing (k : Nat) {s : State} (hc : s.shift.closing = none) : (marginSection k s).shift.closing = none := by
  have hmargin := each_marginOne_closing (indicesOf k) hc
  rw [marginSection]
  generalize each (indicesOf k) marginOne = f at hmargin
  exact piecingEvent_closing hmargin

theorem marginSection_sp_outside (k : Nat) {s : State} (hs : s.tabled) {j : Nat} (h : (s.sp j).state ≠ .waiting)
    (h' : (s.sp j).state ≠ .queued) : (marginSection k s).sp j = s.sp j := by
  have hmargin := each_marginOne_sp_outside (indicesOf k) h h'
  exact (piecingEvent_sp _ (tabled_each_marginOne _ hs) j (by rw [hmargin]; exact h) (by rw [hmargin]; exact h')).trans hmargin

/-- No record of another section goes EMPTY or leaves EMPTY. -/
def SameEmpty (s t : State) : Prop := ∀ j, (t.sp j).state = .empty ↔ (s.sp j).state = .empty

theorem sameEmpty_relation : PlaceRelation SameEmpty where
  same _ hmon j := by rw [sp_of_mon hmon]
  trans h h' j := (h' j).trans (h j)
  enter {s i st} hi hr hst j := by
    by_cases hj : i = j
    · subst hj
      have hafter : ((enter i st s).sp i).state = st := by rw [enter_sp_self hi, moved_state]
      rw [hafter]
      exact iff_of_false (by rcases hst with rfl | rfl <;> decide) (by rcases hr with h | h | h <;> rw [h] <;> decide)
    · rw [enter_sp_ne hj]

theorem marginSection_empty {k : Nat} {s : State} (hs : s.tabled) {j : Nat} (hj : j ∉ indicesOf k) :
    ((marginSection k s).sp j).state = .empty ↔ (s.sp j).state = .empty := by
  rw [marginSection, sameEmpty_relation.piecingEvent (tabled_each_marginOne _ hs) j,
    each_sp_notMem (fun i u h => marginOne_sp_ne h u) hj]

theorem marginSection_kept {k : Nat} {s : State} (hs : s.tabled) (hc : s.shift.closing = none) {j : Nat} (hj : j ∉ indicesOf k) :
    PlaceKept (s.sp j) ((marginSection k s).sp j) := by
  have hplaces := (keepsPlaces_piecingEvent (f := each (indicesOf k) marginOne) (s := s)
    (tabled_each_marginOne (indicesOf k) hs) (each_marginOne_closing (indicesOf k) hc)).2 j
  rw [each_sp_notMem (fun i u h => marginOne_sp_ne h u) hj] at hplaces
  exact hplaces

/-! ### The recompute of one section (R90, R91) -/

/-- The minutes that a recompute records. -/
def State.recordedMinutes (s : State) (k : Nat) : Option Nat :=
  match s.sectionMinutes k with
  | some (.value n) => some n
  | _ => (s.sec k).minutes

/-- The due flag of recorded minutes, by the booking horizon. -/
def State.dueWithin (s : State) (minutes : Option Nat) : Bool :=
  match minutes with
  | some n => decide (n ≤ s.cfg.horizon)
  | none => false

theorem dueWithin_iff (s : State) (minutes : Option Nat) :
    s.dueWithin minutes = true ↔ ∃ m, minutes = some m ∧ m ≤ s.cfg.horizon := by
  cases minutes <;> simp [State.dueWithin]

theorem recomputeSection_normal {k : Nat} {s : State} (h : (s.sec k).state = .normal) :
    let v := marginSection k s
    recomputeSection k s = modifySec k (fun x => { x with
      minutes := v.recordedMinutes k, due := v.dueWithin (v.recordedMinutes k) }) v := if_pos h

theorem recomputeSection_other {k : Nat} {s : State} (h : (s.sec k).state ≠ .normal) : recomputeSection k s = s := if_neg h

/-- The minutes recorded where the section holds an EMPTY record. -/
theorem recordedMinutes_empty {k : Nat} {b : Base} {s : State} (hstate : (s.sec k).state = .normal) (hbase : (s.sec k).base = some b)
    (h : s.emptyCount k ≠ 0) : s.recordedMinutes k = some 0 := by
  have hminutes : s.sectionMinutes k = some (.value 0) := by
    unfold State.sectionMinutes
    rw [hstate, hbase]
    exact if_pos (Nat.pos_of_ne_zero h)
  rw [State.recordedMinutes, hminutes]

theorem sectionMinutes_live {k : Nat} {b : Base} {s : State} (hstate : (s.sec k).state = .normal) (hbase : (s.sec k).base = some b)
    (h : s.emptyCount k = 0) :
    s.sectionMinutes k = some ((indicesOf k).foldl (fun m i => m.least (s.minutesAt b i)) (.value 65535)) := by
  unfold State.sectionMinutes
  rw [hstate, hbase]
  exact if_neg (by omega)

theorem foldl_least_held (l : List Nat) : l.foldl (fun m _ => Minutes.least m .held) .held = .held := by
  induction l with
  | nil => rfl
  | cons _ _ ih => exact ih

/-- The minutes recorded where the rate is HELD. -/
theorem recordedMinutes_held {k : Nat} {b : Base} {s : State} (hstate : (s.sec k).state = .normal) (hbase : (s.sec k).base = some b)
    (h : s.emptyCount k = 0) (hrate : s.rate = none) : s.recordedMinutes k = (s.sec k).minutes := by
  have hat : ∀ i, s.minutesAt b i = .held := fun i => by rw [State.minutesAt, hrate]; rfl
  have hminutes : s.sectionMinutes k = some .held := by
    rw [sectionMinutes_live hstate hbase h, indicesOf_eq]
    simp only [hat]
    exact congrArg some (foldl_least_held _)
  rw [State.recordedMinutes, hminutes]

/-- The least of values: a bound of all of them, and the start or one of them. -/
theorem foldl_least_value (f : Nat → Nat) (l : List Nat) (c : Nat) : ∃ m,
    l.foldl (fun m i => Minutes.least m (.value (f i))) (.value c) = .value m ∧ m ≤ c ∧ (∀ i ∈ l, m ≤ f i) ∧
      (m = c ∨ ∃ i ∈ l, m = f i) := by
  induction l generalizing c with
  | nil => exact ⟨c, rfl, le_rfl, by simp, .inl rfl⟩
  | cons j l ih =>
    obtain ⟨m, hm, hle, hall, hwhich⟩ := ih (min c (f j))
    refine ⟨m, hm, hle.trans (Nat.min_le_left ..), fun i hi => ?_, ?_⟩
    · obtain rfl | hi := List.mem_cons.1 hi
      · exact hle.trans (Nat.min_le_right ..)
      · exact hall i hi
    · obtain rfl | ⟨i, hi, rfl⟩ := hwhich
      · obtain hc | hf := Nat.le_total c (f j)
        · exact .inl (Nat.min_eq_left hc)
        · exact .inr ⟨j, List.mem_cons_self, Nat.min_eq_right ‹_›⟩
      · exact .inr ⟨i, List.mem_cons_of_mem _ hi, rfl⟩

/-- The minutes recorded with a rate: the least of the section's positions. -/
theorem recordedMinutes_rate {k rate : Nat} {b : Base} {s : State} (hstate : (s.sec k).state = .normal)
    (hbase : (s.sec k).base = some b) (h : s.emptyCount k = 0) (hrate : s.rate = some rate) :
    ∃ m, s.recordedMinutes k = some m ∧ (∃ i ∈ indicesOf k, m = min 65535 (s.remainingFrom b i * s.draft / (100 * rate))) ∧
      ∀ i ∈ indicesOf k, m ≤ min 65535 (s.remainingFrom b i * s.draft / (100 * rate)) := by
  have hat : ∀ i, s.minutesAt b i = .value (min 65535 (s.remainingFrom b i * s.draft / (100 * rate))) := fun i => by
    rw [State.minutesAt, hrate]; rfl
  obtain ⟨m, hm, -, hall, hwhich⟩ := foldl_least_value
    (fun i => min 65535 (s.remainingFrom b i * s.draft / (100 * rate))) (indicesOf k) 65535
  have hminutes : s.sectionMinutes k = some (.value m) := by
    rw [sectionMinutes_live hstate hbase h]
    simp only [hat]
    exact congrArg some hm
  refine ⟨m, by rw [State.recordedMinutes, hminutes], ?_, hall⟩
  obtain rfl | hone := hwhich
  · have hfirst : 24 * (k - 1) + 1 ∈ indicesOf k := by
      rw [indicesOf_eq]
      exact List.mem_map.2 ⟨0, by simp, rfl⟩
    exact ⟨_, hfirst, le_antisymm (hall _ hfirst) (Nat.min_le_left ..)⟩
  · exact hone

end Sys2Proof.Machine
end

section
/-! PROOFS. The whole-table recompute (R91). -/

namespace Sys2Proof.Machine

/-! ### What section `k` keeps while other sections are recomputed -/

/-- From `s` to `t` other sections than `k` have been recomputed. -/
structure Elsewhere (k : Nat) (s t : State) : Prop where
  sec : t.sec k = s.sec k
  del : t.del = s.del
  port : t.port = s.port
  empty : t.emptyCount k = s.emptyCount k
  tabled : t.tabled
  kept : s.shift.closing = none → t.shift.closing = none ∧ ∀ j ∈ indicesOf k, PlaceKept (s.sp j) (t.sp j)

theorem Elsewhere.refl (k : Nat) {s : State} (hs : s.tabled) : Elsewhere k s s :=
  ⟨rfl, rfl, rfl, rfl, hs, fun hc => ⟨hc, fun _ _ => .refl _⟩⟩

theorem Elsewhere.trans {k : Nat} {s t u : State} (h : Elsewhere k s t) (h' : Elsewhere k t u) : Elsewhere k s u :=
  ⟨h'.sec.trans h.sec, h'.del.trans h.del, h'.port.trans h.port, h'.empty.trans h.empty, h'.tabled, fun hc => by
    obtain ⟨hct, hkept⟩ := h.kept hc
    obtain ⟨hcu, hkept'⟩ := h'.kept hct
    exact ⟨hcu, fun j hj => (hkept j hj).trans (hkept' j hj)⟩⟩

/-- What of a record the remaining roving of its position depends on stays through refills and decisions. -/
theorem PlaceKept.isDown {r r' : Spindle} (h : PlaceKept r r') : r'.state.isDown = r.state.isDown := by
  have hpiecing : ∀ {q : Spindle}, q.state.inPiecing → q.state.isDown = true := fun hq => by
    rcases hq with h | h | h <;> rw [h] <;> rfl
  by_cases hr : r.state.inPiecing
  · rw [hpiecing hr, hpiecing (h.stays hr)]
  · rw [h.outside hr]

theorem remainingFrom_kept {s t : State} {i : Nat} (b : Base) (h : PlaceKept (s.sp i) (t.sp i)) (hdel : t.del = s.del)
    (hport : t.port = s.port) : t.remainingFrom b i = s.remainingFrom b i := by
  unfold State.remainingFrom State.draft State.count
  dsimp only
  rw [h.isDown, h.bookedTo, h.lost, hdel, cfg_of_port hport]

theorem notMem_indicesOf {k m j : Nat} (hk : 1 ≤ k) (hm : 1 ≤ m) (hne : m ≠ k) (hj : j ∈ indicesOf k) : j ∉ indicesOf m :=
  fun hj' => hne ((stripOf_mem hm hj').symm.trans (stripOf_mem hk hj))

theorem emptyCount_congr {k : Nat} {s t : State} (h : ∀ j ∈ indicesOf k, ((t.sp j).state = .empty ↔ (s.sp j).state = .empty)) :
    t.emptyCount k = s.emptyCount k :=
  List.countP_congr fun j hj => by simpa using h j hj

/-- A recompute leaves everything but the sections as its margin checks left it. -/
theorem recomputeSection_blocks {k : Nat} {s : State} (h : (s.sec k).state = .normal) :
    (recomputeSection k s).mon = (marginSection k s).mon ∧ (recomputeSection k s).shift = (marginSection k s).shift ∧
    (recomputeSection k s).del = (marginSection k s).del ∧ (recomputeSection k s).port = (marginSection k s).port := by
  rw [recomputeSection_normal h]
  generalize marginSection k s = v
  exact ⟨rfl, rfl, rfl, rfl⟩

theorem recomputeSection_elsewhere {k m : Nat} {s : State} (hs : s.tabled) (hk : 1 ≤ k) (hm : 1 ≤ m) (hne : m ≠ k) :
    Elsewhere k s (recomputeSection m s) := by
  by_cases hnormal : (s.sec m).state = .normal
  · obtain ⟨hmon, hshift, -⟩ := recomputeSection_blocks hnormal
    have hsp := fun j => sp_of_mon hmon j
    refine ⟨?_, by simp, by simp, ?_, tabled_recomputeSection hs m, fun hc => ⟨?_, fun j hj => ?_⟩⟩
    · rw [recomputeSection_normal hnormal, modifySec_sec_ne hne.symm]
      exact sec_of_creel (marginSection_creel m s) k
    · refine emptyCount_congr fun j hj => ?_
      rw [hsp]
      exact marginSection_empty hs (notMem_indicesOf hk hm hne hj)
    · rw [hshift]
      exact marginSection_closing m hc
    · rw [hsp]
      exact marginSection_kept hs hc (notMem_indicesOf hk hm hne hj)
  · rw [recomputeSection_other hnormal]
    exact .refl k hs

theorem each_recompute_elsewhere {k : Nat} (hk : 1 ≤ k) (l : List Nat) (hl : ∀ m ∈ l, 1 ≤ m ∧ m ≠ k) {s : State} (hs : s.tabled) :
    Elsewhere k s (each l recomputeSection s) := by
  induction l generalizing s with
  | nil => exact .refl k hs
  | cons m l ih =>
    obtain ⟨hm, hne⟩ := hl m List.mem_cons_self
    have hfirst := recomputeSection_elsewhere hs hk hm hne
    exact hfirst.trans (ih (fun m' hm' => hl m' (List.mem_cons_of_mem _ hm')) hfirst.tabled)

/-- A section's own recompute, between those of the sections before it and behind it. -/
theorem each_recompute_mem {k : Nat} (hk : 1 ≤ k) {l : List Nat} (hnodup : l.Nodup) (hl : ∀ m ∈ l, 1 ≤ m) (hmem : k ∈ l) {s : State}
    (hs : s.tabled) : ∃ u, Elsewhere k s u ∧ Elsewhere k (recomputeSection k u) (each l recomputeSection s) := by
  obtain ⟨before, behind, rfl⟩ := List.append_of_mem hmem
  obtain ⟨-, hbehind, hcross⟩ := List.nodup_append.1 hnodup
  have hbefore := each_recompute_elsewhere hk before
    (fun m hm => ⟨hl m (List.mem_append_left _ hm), hcross m hm k List.mem_cons_self⟩) hs
  refine ⟨_, hbefore, ?_⟩
  have hsplit : each (before ++ k :: behind) recomputeSection s =
      each behind recomputeSection (recomputeSection k (each before recomputeSection s)) := by simp [each]
  rw [hsplit]
  exact each_recompute_elsewhere hk behind
    (fun m hm => ⟨hl m (List.mem_append_right _ (List.mem_cons_of_mem _ hm)),
      fun h => (List.nodup_cons.1 hbehind).1 (h ▸ hm)⟩) (tabled_recomputeSection hbefore.tabled k)

/-- A record that is neither WAITING nor QUEUED is passed over by the recompute of every section. -/
theorem each_recompute_sp_outside (l : List Nat) {s : State} (hs : s.tabled) {j : Nat} (h : (s.sp j).state ≠ .waiting)
    (h' : (s.sp j).state ≠ .queued) : (each l recomputeSection s).sp j = s.sp j := by
  have hkept := each_keepsProp (fun u => u.tabled ∧ u.sp j = s.sp j) l recomputeSection (fun m u hu => by
    refine ⟨tabled_recomputeSection hu.1 m, ?_⟩
    by_cases hnormal : (u.sec m).state = .normal
    · obtain ⟨hmon, -⟩ := recomputeSection_blocks hnormal
      rw [sp_of_mon hmon, marginSection_sp_outside m hu.1 (by rw [hu.2]; exact h) (by rw [hu.2]; exact h')]
      exact hu.2
    · rw [recomputeSection_other hnormal]
      exact hu.2) ⟨hs, rfl⟩
  exact hkept.2

/-! ### What the recompute records of a NORMAL section -/

/-- The recorded minutes and due flag of a NORMAL section, after its own recompute and those of the others. -/
theorem recompute_records {k : Nat} {s u t : State} (hnormal : (s.sec k).state = .normal) (hbefore : Elsewhere k s u)
    (hafter : Elsewhere k (recomputeSection k u) t) (hin' : (marginSection k u).hasSection k = true) :
    t.sec k = { s.sec k with minutes := (t.sec k).minutes, due := (t.sec k).due } ∧
    ((t.sec k).due = true ↔ ∃ m, (t.sec k).minutes = some m ∧ m ≤ s.cfg.horizon) ∧
    ((s.sec k).base.isSome = true →
      (t.emptyCount k ≠ 0 → (t.sec k).minutes = some 0) ∧
      (t.emptyCount k = 0 → s.rate = none → (t.sec k).minutes = (s.sec k).minutes)) ∧
    (∀ b rate, (s.sec k).base = some b → s.rate = some rate → t.emptyCount k = 0 → s.shift.closing = none →
      ∃ m, (t.sec k).minutes = some m ∧
        (∃ i ∈ indicesOf k, m = min 65535 (t.remainingFrom b i * s.draft / (100 * rate))) ∧
        ∀ i ∈ indicesOf k, m ≤ min 65535 (t.remainingFrom b i * s.draft / (100 * rate))) := by
  have hnormal' : (u.sec k).state = .normal := by rw [hbefore.sec]; exact hnormal
  have hmargin : (marginSection k u).sec k = s.sec k := (sec_of_creel (marginSection_creel k u) k).trans hbefore.sec
  have hrecomputed := recomputeSection_normal hnormal'
  obtain ⟨hmon, hshift, hd, hp⟩ := recomputeSection_blocks hnormal'
  have hport : (marginSection k u).port = s.port := hp.symm.trans ((recomputeSection_frame k u).2.2.1.trans hbefore.port)
  have hdel : (marginSection k u).del = s.del := hd.symm.trans ((recomputeSection_frame k u).1.trans hbefore.del)
  have hclosing : s.shift.closing = none → (marginSection k u).shift.closing = none := fun hc =>
    marginSection_closing k (hbefore.kept hc).1
  generalize marginSection k u = v at *
  have hsec : t.sec k = { s.sec k with minutes := v.recordedMinutes k, due := v.dueWithin (v.recordedMinutes k) } := by
    rw [hafter.sec, hrecomputed, modifySec_sec_self hin', hmargin]
  have hempty : t.emptyCount k = v.emptyCount k :=
    hafter.empty.trans (emptyCount_congr fun j _ => by rw [sp_of_mon hmon])
  have hrate : v.rate = s.rate := by rw [State.rate, State.rate, hdel, cfg_of_port hport]
  have hdraft : v.draft = s.draft := by rw [State.draft, State.draft, hdel]
  have hstate : (v.sec k).state = .normal := by rw [hmargin]; exact hnormal
  rw [hsec, hempty]
  refine ⟨rfl, ?_, fun hbase => ?_, fun b rate hbase hsome hzero hc => ?_⟩
  · exact (dueWithin_iff v _).trans (by rw [cfg_of_port hport])
  · obtain ⟨b, hb⟩ := Option.isSome_iff_exists.1 hbase
    have hb' : (v.sec k).base = some b := by rw [hmargin]; exact hb
    exact ⟨fun hne => recordedMinutes_empty hstate hb' hne, fun hzero hnone =>
      (recordedMinutes_held hstate hb' hzero (hrate.trans hnone)).trans (by rw [hmargin])⟩
  · obtain ⟨m, hm, ⟨i, hi, hwhich⟩, hall⟩ := recordedMinutes_rate hstate (by rw [hmargin]; exact hbase) hzero (hrate.trans hsome)
    have hremaining : ∀ i ∈ indicesOf k, t.remainingFrom b i = v.remainingFrom b i := fun i hi => by
      obtain ⟨-, hkept⟩ := hafter.kept (by rw [hshift]; exact hclosing hc)
      have hplace := hkept i hi
      rw [sp_of_mon hmon] at hplace
      exact remainingFrom_kept b hplace (hafter.del.trans hd) (hafter.port.trans hp)
    rw [hdraft] at hwhich hall
    exact ⟨m, hm, ⟨i, hi, by rw [hremaining i hi]; exact hwhich⟩, fun i hi => by rw [hremaining i hi]; exact hall i hi⟩

/-! ### The whole table (R91) -/

/-- The section tables of sound states of one configuration are of one length. -/
theorem sections_length_of_port {s t : State} (hs : s.tabled) (ht : t.tabled) (hport : t.port = s.port) :
    t.creel.sections.length = s.creel.sections.length := by
  obtain ⟨hsized, -⟩ := hs
  obtain ⟨hsized', -⟩ := ht
  unfold State.sized at hsized hsized'
  rw [hport] at hsized'
  cases hcfg : s.port.config with
  | none =>
    rw [hcfg] at hsized hsized'
    rw [hsized.2.2, hsized'.2.2]
  | some c =>
    rw [hcfg] at hsized hsized'
    exact hsized'.2.2.trans hsized.2.2.symm

theorem each_recompute_besideSections (l : List Nat) (s : State) :
    (each l recomputeSection s).creel.besideSections = s.creel.besideSections :=
  each_keeps (fun u => u.creel.besideSections) l recomputeSection recomputeSection_besideSections s

theorem recomputeAll_onlyIn (s : State) : onlyIn [.mon, .pie, .creel, .shift, .line, .frame, .draws] s (recomputeAll s) :=
  ⟨by simp, fun b hb => by cases b <;> simp_all [Block.same]⟩

/-- The state with the time of the recompute moved on. -/
def State.recomputeMoved (s : State) : State :=
  { s with creel := { s.creel with nextRecompute := s.creel.nextRecompute.map (· + Config.recomputeSeconds) } }

theorem exec_recompute {s : State} (hw : s.works) : exec .recompute s = .next
    (if reached s.now s.creel.nextRecompute then recomputeAll s.recomputeMoved else s) := inRunning_works hw _

theorem recomputeMoved_onlyIn (s : State) : onlyIn [.creel] s s.recomputeMoved :=
  ⟨rfl, fun b hb => by cases b <;> simp_all [Block.same, State.recomputeMoved]⟩

theorem rebuildDue_elsewhere (k : Nat) {s : State} (hs : s.tabled) : Elsewhere k s (rebuildDue s) := by
  have hmon : (rebuildDue s).mon = s.mon := by simp
  have hshift : (rebuildDue s).shift = s.shift := by simp
  exact ⟨rebuildDue_sec s k, by simp, by simp, emptyCount_congr fun j _ => by rw [sp_of_mon hmon], tabled_rebuildDue hs,
    fun hc => ⟨by rw [hshift]; exact hc, fun j _ => .of_eq (sp_of_mon hmon j)⟩⟩

/-- The due list of a rebuild is read off the sections it leaves. -/
theorem rebuildDue_dueList (s : State) : (rebuildDue s).creel.dueList = (rebuildDue s).dueSections.take 16 := by
  have hsections : (rebuildDue s).creel.sections = s.creel.sections := by rw [rebuildDue_creel]; rfl
  have hdue : (rebuildDue s).dueSections = s.dueSections := by
    unfold State.dueSections State.numbers State.sec
    rw [hsections]
  rw [hdue, rebuildDue_creel]
  rfl

theorem recomputeAll_rest (s : State) : (recomputeAll s).creel.nextRecompute = s.creel.nextRecompute ∧
    (recomputeAll s).creel.slot1 = s.creel.slot1 ∧ (recomputeAll s).creel.slot2 = s.creel.slot2 := by
  have hrest : (each s.numbers recomputeSection s).creel.besideSections = s.creel.besideSections := each_recompute_besideSections _ s
  unfold recomputeAll
  generalize each s.numbers recomputeSection s = u at hrest ⊢
  have hfield : ∀ {α : Type} (f : Creel → α), (∀ c, f c.besideSections = f c) → f u.creel = f s.creel := fun f hf => by
    rw [← hf, hrest, hf]
  rw [rebuildDue_creel]
  exact ⟨hfield Creel.nextRecompute fun _ => rfl, hfield Creel.slot1 fun _ => rfl, hfield Creel.slot2 fun _ => rfl⟩

/-- A section's own recompute within that of the whole table. -/
theorem recomputeAll_mem {k : Nat} {s : State} (hs : s.tabled) (hk : 1 ≤ k) (hk' : k ≤ s.creel.sections.length) :
    ∃ u, Elsewhere k s u ∧ Elsewhere k (recomputeSection k u) (recomputeAll s) := by
  obtain ⟨u, hbefore, hafter⟩ := each_recompute_mem hk (l := s.numbers) List.nodup_range' (fun m hm => (mem_numbers.1 hm).1)
    (mem_numbers.2 ⟨hk, hk'⟩) hs
  exact ⟨u, hbefore, hafter.trans (rebuildDue_elsewhere k hafter.tabled)⟩

theorem marginSection_hasSection {k : Nat} {s u : State} (hs : s.tabled) (hbefore : Elsewhere k s u) (hk : s.hasSection k = true) :
    (marginSection k u).hasSection k = true := by
  rw [hasSection_iff, marginSection_creel, sections_length_of_port hs hbefore.tabled hbefore.port]
  exact hasSection_iff.1 hk

/-- Settles O30. -/
theorem recomputeRecordsMinutes : Obligations.RecomputeRecordsMinutes := by
  intro s due hw hs hnext
  have hreached : reached s.now s.creel.nextRecompute = true ↔ due ≤ s.del.seconds := by rw [hnext]; exact reached_some
  rw [exec_recompute hw]
  refine ⟨fun hearly => by rw [if_neg (mt hreached.1 (Nat.not_le.2 hearly))], fun hdue => ?_⟩
  rw [if_pos (hreached.2 hdue)]
  have hmoved : s.recomputeMoved.tabled := SameTables.tabled (s := s) ⟨rfl, rfl, rfl, rfl, fun _ => rfl, fun _ => rfl, rfl⟩ hs
  obtain ⟨hnextAt, hslot1, hslot2⟩ := recomputeAll_rest s.recomputeMoved
  refine ⟨_, rfl, onlyIn_seq (recomputeMoved_onlyIn s) (recomputeAll_onlyIn _) (by simp) (by simp), ?_, hslot1, hslot2,
    rebuildDue_dueList _, fun i h h' => ?_, fun k hk hk' => ?_⟩
  · rw [hnextAt, State.recomputeMoved, hnext]
    rfl
  · have hmon : (recomputeAll s.recomputeMoved).mon = (each s.recomputeMoved.numbers recomputeSection s.recomputeMoved).mon := by
      simp [recomputeAll]
    rw [sp_of_mon hmon]
    exact each_recompute_sp_outside _ hmoved h h'
  · obtain ⟨u, hbefore, hafter⟩ := recomputeAll_mem hmoved hk hk'
    refine ⟨fun hother => ?_, fun hnormal => ?_⟩
    · rw [recomputeSection_other (by rw [hbefore.sec]; exact hother)] at hafter
      exact hafter.sec.trans hbefore.sec
    · have hin := marginSection_hasSection hmoved hbefore (hasSection_iff.2 ⟨hk, hk'⟩)
      obtain ⟨hsec, hflag, hempty, hrate⟩ := recompute_records (s := s.recomputeMoved) hnormal hbefore hafter hin
      refine ⟨hsec, hflag, hempty, fun b rate hbase hsome hzero hc => ?_⟩
      obtain ⟨m, hm, ⟨i, hi, hwhich⟩, hall⟩ := hrate b rate hbase hsome hzero hc
      obtain ⟨hlow, hhigh⟩ := (mem_indicesOf hk).1 hi
      exact ⟨m, hm, ⟨i, hlow, hhigh, hwhich⟩, fun j hj hj' => hall j ((mem_indicesOf hk).2 ⟨hj, hj'⟩)⟩

end Sys2Proof.Machine
end

section
/-! PROOFS. A position gone empty (R93), and a matched work result (R74 to R78). -/

namespace Sys2Proof.Machine

/-! ### News of the queues leaves an engagement with its order, and a suspended one, alone (R71) -/

theorem notifyOne_eng {x : Side} {s : State} (h : (s.eng x).state = .orderOut ∨ (s.eng x).state = .suspended) (s0 : State)
    (y : Side) :
    (notifyOne s0 y s).eng x = s.eng x := by
  by_cases hxy : x = y
  · subst hxy
    unfold notifyOne
    dsimp only
    rcases h with h | h <;> rw [h]
  · have hcalling : (enterCalling y s).eng x = s.eng x := (enterCalling_effect y s).1.other x hxy
    have hidle : (enterIdle y s).eng x = s.eng x := eng_setEng_ne hxy _ _
    have hdecides : (decideNext y s).eng x = s.eng x := decideNext_eng_ne hxy s
    unfold notifyOne
    dsimp only
    split
    case h_1 => split <;> simp [hcalling]
    case h_2 => split <;> simp [hidle]
    case h_3 => split <;> simp [hdecides]
    all_goals rfl

theorem notify_eng {x : Side} {s : State} (h : (s.eng x).state = .orderOut ∨ (s.eng x).state = .suspended) (s0 : State) :
    (notify s0 s).eng x = s.eng x :=
  foldl_keepsProp (fun u => u.eng x = s.eng x) s.engagements (fun u y => notifyOne s0 y u)
    (fun u y hu => (notifyOne_eng (by rw [hu]; exact h) s0 y).trans hu) rfl

theorem piecingEvent_eng {x : Side} {f : State → State} {s : State}
    (h : ((f s).eng x).state = .orderOut ∨ ((f s).eng x).state = .suspended) :
    (piecingEvent f s).eng x = (f s).eng x := by
  have hrefilled : (refill (f s)).eng x = (f s).eng x := eng_of_engines (by simp) x
  exact (notify_eng (by rw [hrefilled]; exact h) s).trans hrefilled

/-! ### A position gone empty (R93) -/

theorem marginOne_engines (i : Nat) (s : State) : (marginOne i s).engines = s.engines := by
  have halert : ∀ u : State, (emptyAlert i u).engines = u.engines := fun u => engines_of_pie (by simp)
  unfold marginOne
  split
  · split
    · split
      · exact (halert _).trans (by simp)
      · rfl
    · rfl
  · rfl

theorem marginSection_eng {x : Side} (k : Nat) {s : State} (h : (s.eng x).state = .orderOut ∨ (s.eng x).state = .suspended) :
    (marginSection k s).eng x = s.eng x := by
  have hmargin : (each (indicesOf k) marginOne s).eng x = s.eng x := eng_of_engines (each_engines _ marginOne_engines s) x
  rw [marginSection]
  generalize each (indicesOf k) marginOne = f at hmargin
  exact (piecingEvent_eng (by rw [hmargin]; exact h)).trans hmargin

theorem recomputeOne_eng {x : Side} (k : Nat) {s : State} (h : (s.eng x).state = .orderOut ∨ (s.eng x).state = .suspended) :
    (recomputeOne k s).eng x = s.eng x := by
  have hrebuilt : ∀ u : State, (rebuildDue u).eng x = u.eng x := fun u => eng_of_pie (by simp) x
  have hmargin := marginSection_eng k h
  rw [recomputeOne, hrebuilt]
  by_cases hnormal : (s.sec k).state = .normal
  · rw [recomputeSection_normal hnormal]
    generalize marginSection k s = v at hmargin
    exact hmargin
  · rw [recomputeSection_other hnormal]

theorem recomputeOne_closing (k : Nat) {s : State} (hc : s.shift.closing = none) : (recomputeOne k s).shift.closing = none := by
  rw [recomputeOne, (rebuildDue_frame _).2.2.2.2.1]
  by_cases hnormal : (s.sec k).state = .normal
  · rw [(recomputeSection_blocks hnormal).2.1]
    exact marginSection_closing k hc
  · rw [recomputeSection_other hnormal]
    exact hc

theorem recomputeOne_sp_outside (k : Nat) {s : State} (hs : s.tabled) {j : Nat} (h : (s.sp j).state ≠ .waiting)
    (h' : (s.sp j).state ≠ .queued) : (recomputeOne k s).sp j = s.sp j := by
  have hrebuilt : ∀ u : State, (rebuildDue u).sp j = u.sp j := fun u => sp_of_mon (by simp) j
  rw [recomputeOne, hrebuilt]
  exact each_recompute_sp_outside [k] hs h h'

/-- No WAITING or QUEUED end of the section is at the margin. -/
def State.noneAtMargin (s : State) (k : Nat) : Prop :=
  ∀ j left, stripOf j = k → (s.sp j).state = .waiting ∨ (s.sp j).state = .queued → s.remaining j = some left → s.atMargin left = false

theorem each_marginOne_idle {k : Nat} (hk : 1 ≤ k) {s : State} (h : s.noneAtMargin k) : each (indicesOf k) marginOne s = s := by
  have hone : ∀ i ∈ indicesOf k, marginOne i s = s := fun i hi =>
    marginOne_keeps fun hstate left hleft => h i left (stripOf_mem hk hi) hstate hleft
  generalize indicesOf k = l at hone
  induction l with
  | nil => rfl
  | cons i l ih =>
    have hrest := ih fun j hj => hone j (List.mem_cons_of_mem _ hj)
    rw [each, List.foldl_cons, hone i List.mem_cons_self]
    exact hrest

theorem recomputeOne_shift_idle {k : Nat} (hk : 1 ≤ k) {s : State} (hc : s.shift.closing = none) (h : s.noneAtMargin k) :
    (recomputeOne k s).shift = s.shift := by
  have hidle := each_marginOne_idle hk h
  have hevent : (marginSection k s).shift = s.shift := by
    unfold marginSection piecingEvent
    rw [hidle, notify_shift_idle (by rw [refill_shift_idle hc]; exact hc), refill_shift_idle hc]
  rw [recomputeOne, (rebuildDue_frame _).2.2.2.2.1]
  by_cases hnormal : (s.sec k).state = .normal
  · rw [(recomputeSection_blocks hnormal).2.1, hevent]
  · rw [recomputeSection_other hnormal]

theorem remaining_congr {i : Nat} {s t : State} (hsp : t.sp i = s.sp i) (hsec : t.sec (stripOf i) = s.sec (stripOf i))
    (hdel : t.del = s.del) (hport : t.port = s.port) : t.remaining i = s.remaining i := by
  have hfrom : ∀ b, t.remainingFrom b i = s.remainingFrom b i := fun b => by
    unfold State.remainingFrom State.draft State.count
    rw [hsp, hdel, cfg_of_port hport]
  rw [State.remaining, State.remaining, hsec]
  exact congrArg (fun f => (s.sec (stripOf i)).base.map f) (funext hfrom)

/-- What a position gone empty leaves: the record, an engagement with its order or suspended, and the shift counter where its section
has no other end at the margin. -/
theorem goneEmpty_effect {i : Nat} {s : State} (hs : s.tabled) (hc : s.shift.closing = none) (hempty : (s.sp i).state = .empty) :
    let t := goneEmpty i s
    t.tabled ∧ t.shift.closing = none ∧ t.sp i = s.sp i ∧
    (∀ x, (s.eng x).state = .orderOut ∨ (s.eng x).state = .suspended → t.eng x = s.eng x) ∧
    (s.noneAtMargin (stripOf i) → t.shift = s.shift) := by
  intro t
  have hmon : (emptyAlert i s).mon = s.mon := by simp
  have hshift : (emptyAlert i s).shift = s.shift := emptyAlert_shift i s
  have heng : ∀ x, (emptyAlert i s).eng x = s.eng x := eng_of_pie (by simp)
  have hcreel : (emptyAlert i s).creel = s.creel := by simp
  have hdel : (emptyAlert i s).del = s.del := by simp
  have hport : (emptyAlert i s).port = s.port := by simp
  have hsp : (emptyAlert i s).sp i = s.sp i := sp_of_mon hmon i
  have halert := tabled_emptyAlert hs i
  have ht : t = if ((emptyAlert i s).sec (stripOf i)).state = .normal then recomputeOne (stripOf i) (emptyAlert i s) else emptyAlert i s := rfl
  generalize emptyAlert i s = u at *
  rw [ht]
  split
  · refine ⟨tabled_recomputeOne halert _, recomputeOne_closing _ (by rw [hshift]; exact hc), ?_, fun x hx => ?_, fun hnone => ?_⟩
    · exact (recomputeOne_sp_outside _ halert (by rw [hsp, hempty]; decide) (by rw [hsp, hempty]; decide)).trans hsp
    · exact (recomputeOne_eng _ (by rw [heng]; exact hx)).trans (heng x)
    · refine (recomputeOne_shift_idle (one_le_stripOf i) (by rw [hshift]; exact hc) fun j left hj hstate hleft => ?_).trans hshift
      have hj' := sp_of_mon hmon j
      rw [remaining_congr hj' (sec_of_creel hcreel _) hdel hport] at hleft
      have hnot := hnone j left hj (by rw [← hj']; exact hstate) hleft
      unfold State.atMargin at hnot ⊢
      rw [cfg_of_port hport]
      exact hnot
  · exact ⟨halert, by rw [hshift]; exact hc, hsp, fun x _ => heng x, fun _ => hshift⟩

/-! ### The ordered record dealt with (R75 to R78) -/

section
variable {i : Nat} {s : State} (hs : s.tabled) (hc : s.shift.closing = none) (ho : (s.sp i).state = .ordered)
include ho

theorem applyResult_seenUp (out : WorkOutcome) (hseen : (s.sp i).seenUp = true) : applyResult out i s =
    modifySp i (fun r => { r with piecedAt := some s.now }) (countEvent .byRobot (bookEnter i .up s)) := by
  unfold applyResult
  rw [if_pos ho, if_pos hseen]

section
variable (hseen : (s.sp i).seenUp = false)
include hseen

theorem applyResult_pieced : applyResult .pieced i s = modifySp i (fun r => { r with piecedAt := some s.now }) (enter i .confirming s) := by
  unfold applyResult
  rw [if_pos ho, if_neg (by simp [hseen])]

theorem applyResult_failed : applyResult .failed i s = failedPiecing i s := by
  unfold applyResult
  rw [if_pos ho, if_neg (by simp [hseen])]

theorem applyResult_skipped : applyResult .skipped i s = returnToPiecing i s := by
  unfold applyResult
  rw [if_pos ho, if_neg (by simp [hseen])]

theorem applyResult_noRoving : applyResult .noRoving i s =
    if s.underExchange i then bookEnter i .exchange s else goneEmpty i (bookEnter i .empty s) := by
  unfold applyResult
  rw [if_pos ho, if_neg (by simp [hseen])]
end

include hs

/-- A record under an order stands in the table, is down, and has a booked-to. -/
theorem ordered_sound : s.hasSpindle i = true ∧ (s.sp i).state.isDown = true ∧ (s.sp i).bookedTo.isSome = true := by
  have hi : s.hasSpindle i = true := hasSpindle_of_state (by rw [ho]; decide)
  have hdown : (s.sp i).state.isDown = true := by rw [ho]; rfl
  exact ⟨hi, hdown, bookedTo_of_isDown hs hi hdown⟩

include hc

/-- A seen-up record comes UP: booked, a piecing by robot, its attempts kept. -/
theorem seenUp_effect (out : WorkOutcome) (hseen : (s.sp i).seenUp = true) :
    let t := applyResult out i s
    (t.sp i).state = .up ∧ (t.sp i).piecedAt = some s.del.seconds ∧ (t.sp i).attempts = (s.sp i).attempts ∧
    (t.sp i).bookedTo = none ∧ t.shift = (countEvent .byRobot (book i s)).shift := by
  intro t
  obtain ⟨hi, -, -⟩ := ordered_sound hs ho
  obtain ⟨hstate, hattempts, -⟩ := book_fields hi hc
  have hself : (countEvent .byRobot (bookEnter i .up s)).sp i = _ := bookEnter_self hi hc .up
  have hi' : (countEvent .byRobot (bookEnter i .up s)).hasSpindle i = true :=
    (has_of_beside (t := bookEnter i .up s) (by simp) i).trans hi
  rw [show t = _ from applyResult_seenUp ho out hseen]
  have hshift : (countEvent .byRobot (bookEnter i .up s)).shift = (countEvent .byRobot (book i s)).shift := by
    unfold countEvent
    dsimp only
    rw [bookEnter_shift_idle hc]
  rw [modifySp_sp_self hi', hself]
  refine ⟨moved_state .., rfl, ?_, ?_, hshift⟩
  · dsimp only
    rw [moved_attempts]
    simp [hstate, ho, hattempts]
  · dsimp only
    rw [moved_bookedTo, if_pos rfl]

/-- A piecing not yet seen up is confirmed by the sensor. -/
theorem pieced_effect (hseen : (s.sp i).seenUp = false) :
    let t := applyResult .pieced i s
    (t.sp i).state = .confirming ∧ (t.sp i).cause = some .brk ∧ (t.sp i).piecedAt = some s.del.seconds ∧
    (t.sp i).confirmReads = 0 ∧ (t.sp i).bookedTo = (s.sp i).bookedTo ∧ (t.sp i).attempts = (s.sp i).attempts ∧ t.shift = s.shift := by
  intro t
  obtain ⟨hi, hdown, -⟩ := ordered_sound hs ho
  have hself : (enter i .confirming s).sp i = _ := enter_sp_self hi .confirming
  rw [touch_idle hc] at hself
  have hi' : (enter i .confirming s).hasSpindle i = true := (has_of_beside (by simp) i).trans hi
  rw [show t = _ from applyResult_pieced ho hseen]
  rw [modifySp_sp_self hi', hself]
  refine ⟨moved_state .., moved_cause .., rfl, ?_, (moved_down hdown rfl _ _).1, ?_, enter_shift_idle hc i _⟩
  · simp [Spindle.moved]
  · exact (moved_attempts ..).trans (by simp)

/-- A failed, skipped or empty position of a section under exchange goes to EXCHANGE. -/
theorem exchanged_effect {out : WorkOutcome} (hseen : (s.sp i).seenUp = false) (hout : out ≠ .pieced)
    (hx : (s.sec (stripOf i)).state = .exchanging) :
    let t := applyResult out i s
    (t.sp i).state = .exchange ∧ (t.sp i).cause = some .roving ∧ (t.sp i).attempts = 0 ∧
    (t.sp i).bookedTo = some s.del.count ∧ t.shift = (book i s).shift := by
  intro t
  obtain ⟨hi, hdown, hbooked⟩ := ordered_sound hs ho
  cases out with
  | pieced => exact absurd rfl hout
  | failed =>
    obtain ⟨-, -, -, -, hexchange, -⟩ := failedPiecing_effect hi hc hbooked (.inl ho)
    rw [show t = _ from applyResult_failed ho hseen]
    exact hexchange hx
  | skipped =>
    rw [show t = _ from applyResult_skipped ho hseen]
    exact (returnToPiecing_effect hs hc ho).1 hx
  | noRoving =>
    obtain ⟨hstate, hcause, hattempts, -, -, -, -, hto⟩ := bookEnter_taken hi hc (.inl rfl) hdown
    rw [show t = _ from applyResult_noRoving ho hseen, if_pos ((underExchange_iff s i).2 hx)]
    exact ⟨hstate, hcause, hattempts, hto hbooked, bookEnter_shift_idle hc i _⟩

/-- A position without roving goes to EMPTY. -/
theorem noRoving_effect (hseen : (s.sp i).seenUp = false) (hx : (s.sec (stripOf i)).state ≠ .exchanging) :
    let t := applyResult .noRoving i s
    (t.sp i).state = .empty ∧ (t.sp i).cause = some .roving ∧ (t.sp i).attempts = 0 ∧ (t.sp i).piecedAt = none ∧
    (t.sp i).bookedTo = some s.del.count ∧ (s.noneAtMargin (stripOf i) → t.shift = (book i s).shift) := by
  intro t
  obtain ⟨hi, hdown, hbooked⟩ := ordered_sound hs ho
  obtain ⟨hstate, hcause, hattempts, hpieced, -, -, -, hto⟩ := bookEnter_taken hi hc (.inr rfl) hdown
  obtain ⟨-, -, hsp, -, hshift⟩ := goneEmpty_effect (tabled_bookEnter hs i _ (by decide) (by decide)) (bookEnter_closing hc i _) hstate
  have hnot : ¬ s.underExchange i = true := fun h => hx ((underExchange_iff s i).1 h)
  rw [show t = _ from applyResult_noRoving ho hseen, if_neg hnot, hsp]
  refine ⟨hstate, hcause, hattempts, hpieced, hto hbooked, fun hnone => ?_⟩
  refine (hshift fun j left hj hwaits hleft => ?_).trans (bookEnter_shift_idle hc i _)
  have hne : i ≠ j := fun heq => by
    subst heq
    rw [hstate] at hwaits
    exact hwaits.elim (fun h => absurd h (by decide)) (fun h => absurd h (by decide))
  have hother : (bookEnter i .empty s).sp j = s.sp j := bookEnter_sp_ne hne _ _
  have hframes : (bookEnter i .empty s).creel = s.creel ∧ (bookEnter i .empty s).del = s.del ∧ (bookEnter i .empty s).port = s.port := by simp
  obtain ⟨hcreel, hdel, hport⟩ := hframes
  rw [remaining_congr hother (sec_of_creel hcreel _) hdel hport] at hleft
  have hfar := hnone j left hj (by rw [← hother]; exact hwaits) hleft
  unfold State.atMargin at hfar ⊢
  rw [cfg_of_port hport]
  exact hfar

theorem applyResult_closing (out : WorkOutcome) : (applyResult out i s).shift.closing = none := by
  cases hseen : (s.sp i).seenUp with
  | true =>
    rw [(seenUp_effect hs hc ho out hseen).2.2.2.2]
    exact book_closing i hc
  | false =>
    by_cases hx : (s.sec (stripOf i)).state = .exchanging ∧ out ≠ .pieced
    · rw [(exchanged_effect hs hc ho hseen hx.2 hx.1).2.2.2.2]
      exact book_closing i hc
    · cases out with
      | pieced =>
        obtain ⟨-, -, -, -, -, -, hshift⟩ := pieced_effect hs hc ho hseen
        rw [hshift]
        exact hc
      | failed =>
        rw [applyResult_failed ho hseen]
        exact failedPiecing_closing hc
      | skipped =>
        obtain ⟨-, -, -, hshift⟩ := (returnToPiecing_effect hs hc ho).2 fun h => hx ⟨h, by decide⟩
        rw [applyResult_skipped ho hseen, hshift]
        exact hc
      | noRoving =>
        obtain ⟨hi, hdown, -⟩ := ordered_sound hs ho
        have hempty := (bookEnter_taken hi hc (.inr rfl) hdown).1
        rw [applyResult_noRoving ho hseen, if_neg fun h => hx ⟨(underExchange_iff s i).1 h, by decide⟩]
        exact (goneEmpty_effect (tabled_bookEnter hs i _ (by decide) (by decide)) (bookEnter_closing hc i _) hempty).2.1

theorem applyResult_eng (out : WorkOutcome) {x : Side} (hx : (s.eng x).state = .orderOut) : (applyResult out i s).eng x = s.eng x := by
  have hbooked : ∀ st, (bookEnter i st s).eng x = s.eng x := fun st => eng_of_engines (by simp) x
  cases hseen : (s.sp i).seenUp with
  | true =>
    rw [applyResult_seenUp ho out hseen]
    exact eng_of_engines (by simp) x
  | false =>
    cases out with
    | pieced =>
      rw [applyResult_pieced ho hseen]
      exact eng_of_engines (by simp) x
    | failed =>
      rw [applyResult_failed ho hseen]
      exact eng_of_engines (by simp) x
    | skipped =>
      rw [applyResult_skipped ho hseen]
      exact eng_of_engines (by simp) x
    | noRoving =>
      obtain ⟨hi, hdown, -⟩ := ordered_sound hs ho
      have hempty := (bookEnter_taken hi hc (.inr rfl) hdown).1
      rw [applyResult_noRoving ho hseen]
      split
      · exact hbooked _
      · obtain ⟨-, -, -, heng, -⟩ :=
          goneEmpty_effect (tabled_bookEnter hs i _ (by decide) (by decide)) (bookEnter_closing hc i _) hempty
        exact (heng x (.inl (by rw [hbooked]; exact hx))).trans (hbooked _)
end

end Sys2Proof.Machine
end

section
/-! PROOFS. A work result is matched to its order, or late (R74). -/

namespace Sys2Proof.Machine

/-- The engagement with its order answered, from the reported position. -/
def orderAnswered (x : Side) (position : Nat) (s : State) : State :=
  setEng x { s.eng x with order := none, timer := none, timeouts := 0, position := some (s.clampIndex position) } s

/-- What a matched result leaves of the engagement, and of what dealing with the ordered record left. -/
theorem matchedResult_effect {x : Side} {o : Order} {out : WorkOutcome} {position robot : Nat} {s : State} (hs : s.tabled)
    (hc : s.shift.closing = none) (hstate : (s.eng x).state = .orderOut) (hr : (s.eng x).robot = some robot)
    (ho : (s.sp o.index).state = .ordered) :
    let a := applyResult out o.index (orderAnswered x position s)
    let t := matchedResult x o out position s
    PlaceKept (a.sp o.index) (t.sp o.index) ∧ t.shift = a.shift ∧ (t.eng x).timeouts = 0 ∧
    ((t.eng x).state = .idle ∨ ((t.eng x).state = .working ∨ (t.eng x).state = .orderOut) ∧
      (t.eng x).position = some (s.clampIndex position) ∧ (t.eng x).robot = some robot) := by
  intro a t
  have hu : (orderAnswered x position s).tabled := tabled_setEng hs x _
  have huc : (orderAnswered x position s).shift.closing = none := by simpa [orderAnswered] using hc
  have huo : ((orderAnswered x position s).sp o.index).state = .ordered := by
    rw [sp_of_mon (s := s) (by simp [orderAnswered])]; exact ho
  have hueng : (orderAnswered x position s).eng x =
      { s.eng x with order := none, timer := none, timeouts := 0, position := some (s.clampIndex position) } := eng_setEng ..
  have haeng : a.eng x = _ := applyResult_eng hu huc huo out (x := x) (by rw [hueng]; exact hstate)
  have hac : a.shift.closing = none := applyResult_closing hu huc huo out
  have hat : a.tabled := tabled_applyResult hu out o.index
  have ht : t = decideNext x (setEng x { (refill a).eng x with state := .working } (refill a)) := rfl
  clear_value a
  have hveng : (refill a).eng x = a.eng x := eng_of_engines (by simp) x
  have hvt := tabled_refill hat
  obtain ⟨hvc, hplaces⟩ := keepsPlaces_refill hat hac
  have hvshift := refill_shift_idle hac
  generalize refill a = v at *
  have hwt := tabled_setEng hvt x { v.eng x with state := .working }
  have hwc : (setEng x { v.eng x with state := .working } v).shift.closing = none := by simpa using hvc
  have hwshift : (setEng x { v.eng x with state := .working } v).shift = v.shift := by simp
  have hwsp : (setEng x { v.eng x with state := .working } v).sp o.index = v.sp o.index := sp_of_mon (by simp) _
  have hweng : (setEng x { v.eng x with state := .working } v).eng x = { v.eng x with state := .working } := eng_setEng ..
  generalize setEng x { v.eng x with state := .working } v = w at *
  have hrobot : (w.eng x).robot = some robot := by rw [hweng, hveng, haeng, hueng]; exact hr
  have htimeouts : (w.eng x).timeouts = 0 := by rw [hweng, hveng, haeng, hueng]
  have hposition : (w.eng x).position = some (s.clampIndex position) := by rw [hweng, hveng, haeng, hueng]
  have hworking : (w.eng x).state = .working := by rw [hweng]
  rw [ht]
  refine ⟨(hplaces _).trans ((PlaceKept.of_eq hwsp).trans ((keepsPlaces_decideNext x hwt hwc).2 _)),
    (decideNext_shift_idle hwc x).trans (hwshift.trans hvshift), ?_⟩
  obtain ⟨he, -⟩ | hsame | ⟨hout, hkeeps, hzero, hat, -⟩ := decideNext_cases hwt hwc hrobot
  · rw [he]
    exact ⟨htimeouts, .inl rfl⟩
  · rw [hsame]
    exact ⟨htimeouts, .inr ⟨.inl hworking, hposition, hrobot⟩⟩
  · exact ⟨hzero.trans htimeouts, .inr ⟨.inr hout, hat.trans hposition, hkeeps⟩⟩

/-! ### Matching (R74) -/

theorem matchedOrder_some {s : State} {robot tag : Nat} {x : Side} {o : Order} (hx : s.engagedBy robot = some x)
    (hstate : (s.eng x).state = .orderOut) (ho : (s.eng x).order = some o) (htag : o.tag = tag) :
    s.matchedOrder robot tag = some (x, o) := by
  unfold State.matchedOrder
  rw [hx]
  dsimp only
  rw [hstate, ho]
  exact if_pos htag

theorem matchedOrder_none {s : State} {robot tag : Nat} (h : ∀ x o, s.engagedBy robot = some x → (s.eng x).state = .orderOut →
    (s.eng x).order = some o → o.tag ≠ tag) : s.matchedOrder robot tag = none := by
  unfold State.matchedOrder
  cases hx : s.engagedBy robot with
  | none => rfl
  | some x =>
    dsimp only
    cases hstate : (s.eng x).state with
    | orderOut =>
      cases ho : (s.eng x).order with
      | none => rfl
      | some o => exact if_neg (h x o hx hstate ho)
    | _ => rfl

theorem ofCode_none {outcome : Nat} (h : 3 < outcome) : WorkOutcome.ofCode outcome = none := by
  match outcome, h with
  | n + 4, _ => rfl

/-- The outcome of a code of a WORK_RESULT. -/
theorem ofCode_some {outcome : Nat} (h : outcome ≤ 3) : ∃ out, WorkOutcome.ofCode outcome = some out ∧
    (outcome = 0 ↔ out = .pieced) ∧ (outcome = 1 ↔ out = .failed) ∧ (outcome = 2 ↔ out = .skipped) ∧
    (outcome = 3 ↔ out = .noRoving) := by
  match outcome, h with
  | 0, _ => exact ⟨.pieced, rfl, by simp⟩
  | 1, _ => exact ⟨.failed, rfl, by simp⟩
  | 2, _ => exact ⟨.skipped, rfl, by simp⟩
  | 3, _ => exact ⟨.noRoving, rfl, by simp⟩

theorem takeResult_matched {t : Telegram} {s : State} {x : Side} {o : Order} {out : WorkOutcome}
    (h : s.matchedOrder t.source (t.num 0 1) = some (x, o)) (hout : WorkOutcome.ofCode (t.num 3 1) = some out) :
    takeResult t s = matchedResult x o out (t.num 4 2) s := by
  unfold takeResult
  rw [h, hout]

theorem takeResult_late {t : Telegram} {s : State}
    (h : s.matchedOrder t.source (t.num 0 1) = none ∨ WorkOutcome.ofCode (t.num 3 1) = none) : takeResult t s = lateResult s := by
  unfold takeResult
  rcases h with h | h
  · rw [h]
  · rw [h]
    cases s.matchedOrder t.source (t.num 0 1) <;> rfl

theorem matchedResult_onlyIn (x : Side) (o : Order) (out : WorkOutcome) (position : Nat) (s : State) :
    onlyIn [.mon, .pie, .creel, .shift, .line, .frame, .draws] s (matchedResult x o out position s) :=
  ⟨by simp, fun b hb => by cases b <;> simp_all [Block.same]⟩

/-- Booking and the counted event read of a state what the answered order leaves. -/
theorem orderAnswered_shift {x : Side} {position i : Nat} {rest : List Received} {s : State} (hc : s.shift.closing = none)
    (hb : (s.sp i).bookedTo.isSome = true) :
    (book i (orderAnswered x position (s.setRx rest))).shift = (book i s).shift ∧
    (countEvent .byRobot (book i (orderAnswered x position (s.setRx rest)))).shift = (countEvent .byRobot (book i s)).shift := by
  have hsp : (orderAnswered x position (s.setRx rest)).sp i = s.sp i := sp_of_mon (by simp [orderAnswered, State.setRx]) i
  have hbook : (book i (orderAnswered x position (s.setRx rest))).shift = (book i s).shift :=
    book_shift_congr hc (by simp [orderAnswered, State.setRx]) (by simp [orderAnswered, State.setRx]) (by rw [hsp]) (by rw [hsp]) hb
  refine ⟨hbook, ?_⟩
  unfold countEvent
  dsimp only
  rw [hbook]

theorem orderAnswered_noneAtMargin {x : Side} {position k : Nat} {s : State} (h : s.noneAtMargin k) :
    (orderAnswered x position s).noneAtMargin k := by
  intro j left hj hstate hleft
  have hsp : (orderAnswered x position s).sp j = s.sp j := sp_of_mon (by simp [orderAnswered]) j
  have hport : (orderAnswered x position s).port = s.port := by simp [orderAnswered]
  rw [remaining_congr hsp (sec_of_creel (by simp [orderAnswered]) _) (by simp [orderAnswered]) hport] at hleft
  rw [hsp] at hstate
  have hfar := h j left hj hstate hleft
  unfold State.atMargin at hfar ⊢
  rw [cfg_of_port hport]
  exact hfar

/-- A failed piecing of the ordered record of a section that is not under exchange (R54, R57). -/
theorem failed_effect {i : Nat} {s : State} (hs : s.tabled) (hc : s.shift.closing = none) (ho : (s.sp i).state = .ordered)
    (hseen : (s.sp i).seenUp = false) (hx : (s.sec (stripOf i)).state ≠ .exchanging) :
    let t := applyResult .failed i s
    let attempts := min 5 ((s.sp i).attempts + 1)
    (t.sp i).attempts = attempts ∧ (t.sp i).shiftBreaks = (s.sp i).shiftBreaks ∧
    (s.cfg.attemptLimit ≤ attempts → (t.sp i).state = .rogue ∧ t.shift = (book i s).shift) ∧
    (attempts < s.cfg.attemptLimit → t.shift = s.shift) := by
  intro t attempts
  obtain ⟨hi, -, hbooked⟩ := ordered_sound hs ho
  obtain ⟨-, hbreaks, -, -, -, helse⟩ := failedPiecing_effect hi hc hbooked (.inl ho)
  obtain ⟨hatt, hrogue, hjoins⟩ := helse hx
  rw [show t = _ from applyResult_failed ho hseen]
  refine ⟨hatt, hbreaks, fun hlimit => ?_, fun hless => ?_⟩
  · obtain ⟨hstate, -, -, -, hshift⟩ := hrogue hlimit
    exact ⟨hstate, hshift⟩
  · obtain ⟨-, hshift, -⟩ := hjoins hless
    exact hshift

/-- What the ordered record has become once the engagement has decided anew, by seen-up, outcome and section. -/
theorem dealtRecord {i outcome : Nat} {out : WorkOutcome} {s t : State} (hs : s.tabled) (hc : s.shift.closing = none)
    (ho : (s.sp i).state = .ordered) (hkept : PlaceKept ((applyResult out i s).sp i) (t.sp i))
    (hshift : t.shift = (applyResult out i s).shift) (h0 : outcome = 0 ↔ out = .pieced) (h1 : outcome = 1 ↔ out = .failed)
    (h2 : outcome = 2 ↔ out = .skipped) (h3 : outcome = 3 ↔ out = .noRoving) :
    ((s.sp i).seenUp = true → (t.sp i).state = .up ∧ (t.sp i).piecedAt = some s.del.seconds ∧
      (t.sp i).attempts = (s.sp i).attempts ∧ (t.sp i).bookedTo = none ∧ t.shift = (countEvent .byRobot (book i s)).shift) ∧
    ((s.sp i).seenUp = false → outcome = 0 → (t.sp i).state = .confirming ∧ (t.sp i).cause = some .brk ∧
      (t.sp i).piecedAt = some s.del.seconds ∧ (t.sp i).confirmReads = 0 ∧
      (t.sp i).bookedTo = (s.sp i).bookedTo ∧ (t.sp i).attempts = (s.sp i).attempts ∧ t.shift = s.shift) ∧
    ((s.sp i).seenUp = false → outcome ≠ 0 → (s.sec (stripOf i)).state = .exchanging →
      (t.sp i).state = .exchange ∧ (t.sp i).cause = some .roving ∧ (t.sp i).attempts = 0 ∧
      (t.sp i).bookedTo = some s.del.count ∧ t.shift = (book i s).shift) ∧
    ((s.sp i).seenUp = false → outcome = 1 → (s.sec (stripOf i)).state ≠ .exchanging →
      (t.sp i).attempts = min 5 ((s.sp i).attempts + 1) ∧ (t.sp i).shiftBreaks = (s.sp i).shiftBreaks ∧
      (s.cfg.attemptLimit ≤ min 5 ((s.sp i).attempts + 1) → (t.sp i).state = .rogue ∧ t.shift = (book i s).shift) ∧
      (min 5 ((s.sp i).attempts + 1) < s.cfg.attemptLimit → t.shift = s.shift)) ∧
    ((s.sp i).seenUp = false → outcome = 2 → (s.sec (stripOf i)).state ≠ .exchanging →
      (t.sp i).attempts = (s.sp i).attempts ∧ (t.sp i).downSince = (s.sp i).downSince ∧
      ((t.sp i).state = .queued ∨ (t.sp i).state = .waiting ∨ (t.sp i).state = .ordered) ∧ t.shift = s.shift) ∧
    ((s.sp i).seenUp = false → outcome = 3 → (s.sec (stripOf i)).state ≠ .exchanging →
      (t.sp i).state = .empty ∧ (t.sp i).cause = some .roving ∧ (t.sp i).attempts = 0 ∧
      (t.sp i).piecedAt = none ∧ (t.sp i).bookedTo = some s.del.count ∧
      (s.noneAtMargin (stripOf i) → t.shift = (book i s).shift)) := by
  have houtside : ∀ {st : SpState}, ((applyResult out i s).sp i).state = st → ¬ st.inPiecing →
      t.sp i = (applyResult out i s).sp i := fun hst hno => hkept.outside (by rw [hst]; exact hno)
  refine ⟨fun hseen => ?_, fun hseen hout => ?_, fun hseen hout hx => ?_, fun hseen hout hx => ?_, fun hseen hout hx => ?_,
    fun hseen hout hx => ?_⟩
  · have heffect := seenUp_effect hs hc ho out hseen
    rw [houtside heffect.1 (by simp [SpState.inPiecing]), hshift]
    exact heffect
  · obtain rfl := h0.1 hout
    have heffect := pieced_effect hs hc ho hseen
    rw [houtside heffect.1 (by simp [SpState.inPiecing]), hshift]
    exact heffect
  · have heffect := exchanged_effect hs hc ho hseen (fun h => hout (h0.2 h)) hx
    rw [houtside heffect.1 (by simp [SpState.inPiecing]), hshift]
    exact heffect
  · obtain rfl := h1.1 hout
    obtain ⟨hatt, hbreaks, hrogue, hjoins⟩ := failed_effect hs hc ho hseen hx
    refine ⟨hkept.attempts.trans hatt, hkept.shiftBreaks.trans hbreaks, fun hlimit => ?_, fun hless => hshift.trans (hjoins hless)⟩
    obtain ⟨hst, hbook⟩ := hrogue hlimit
    rw [houtside hst (by simp [SpState.inPiecing])]
    exact ⟨hst, hshift.trans hbook⟩
  · obtain rfl := h2.1 hout
    rw [applyResult_skipped ho hseen] at hkept hshift
    obtain ⟨hst, hatt, hsince, hsame⟩ := (returnToPiecing_effect hs hc ho).2 hx
    exact ⟨hkept.attempts.trans hatt, hkept.downSince.trans hsince, hkept.stays (hst.imp_right .inl), hshift.trans hsame⟩
  · obtain rfl := h3.1 hout
    have heffect := noRoving_effect hs hc ho hseen hx
    rw [houtside heffect.1 (by simp [SpState.inPiecing]), hshift]
    exact heffect

/-- Settles O25. -/
theorem resultDealsWithTheOrderedRecord : Obligations.ResultDealsWithTheOrderedRecord := by
  intro s r rest hw hs hc hrx hk u tag outcome
  have hrow : exec .workResult s = .next (takeResult r.tel u) := by
    have hexec : exec .workResult s = .next (handOver .workResult takeResult s) := inRunning_works hw _
    rw [hexec, handOver_takes hrx hk]
    rfl
  rw [hrow]
  have hfront : u.tabled := SameTables.tabled (s := s) ⟨rfl, rfl, rfl, rfl, fun _ => rfl, fun _ => rfl, rfl⟩ hs
  refine ⟨fun x o hx hstate ho htag hout hordered => ?_, fun hlate => congrArg Host.Outcome.next (takeResult_late ?_)⟩
  · obtain ⟨out, hcode, h0, h1, h2, h3⟩ := ofCode_some hout
    rw [takeResult_matched (s := u) (matchedOrder_some (s := u) hx hstate ho htag) hcode]
    obtain ⟨hkept, hshift, htimeouts, hcases⟩ := matchedResult_effect (out := out) (position := r.tel.num 4 2) (s := u)
      hfront hc hstate (engagedBy_robot hx) hordered
    refine ⟨_, rfl, onlyIn_seq (setRx_onlyIn rest s) (matchedResult_onlyIn ..) (by simp) (by simp), htimeouts, hcases, ?_⟩
    intro i exchanging
    obtain ⟨-, -, hbooked⟩ := ordered_sound hs hordered
    obtain ⟨hbook, hcount⟩ := orderAnswered_shift (x := x) (position := r.tel.num 4 2) (rest := rest) (i := i) hc hbooked
    have hanswered : (orderAnswered x (r.tel.num 4 2) u).tabled := tabled_setEng hfront x _
    have hclosing : (orderAnswered x (r.tel.num 4 2) u).shift.closing = none := by simpa [orderAnswered] using hc
    have hsp : (orderAnswered x (r.tel.num 4 2) u).sp i = s.sp i := sp_of_mon (by simp [orderAnswered, u]) i
    have hsec : (orderAnswered x (r.tel.num 4 2) u).sec (stripOf i) = s.sec (stripOf i) := sec_of_creel (by simp [orderAnswered, u]) _
    have hsame : (orderAnswered x (r.tel.num 4 2) u).shift = s.shift := by simp [orderAnswered, u]
    have hdel : (orderAnswered x (r.tel.num 4 2) u).del = s.del := by simp [orderAnswered, u]
    have hcfg : (orderAnswered x (r.tel.num 4 2) u).cfg = s.cfg := cfg_of_port (by simp [orderAnswered, u])
    have hnone : s.noneAtMargin (stripOf i) → (orderAnswered x (r.tel.num 4 2) u).noneAtMargin (stripOf i) := fun h =>
      orderAnswered_noneAtMargin (s := u) h
    change (book i (orderAnswered x (r.tel.num 4 2) u)).shift = _ at hbook
    change (countEvent .byRobot (book i (orderAnswered x (r.tel.num 4 2) u))).shift = _ at hcount
    change PlaceKept ((applyResult out i _).sp i) ((matchedResult x o out (r.tel.num 4 2) u).sp i) at hkept
    generalize matchedResult x o out (r.tel.num 4 2) u = t at *
    change t.shift = (applyResult out i (orderAnswered x (r.tel.num 4 2) u)).shift at hshift
    generalize orderAnswered x (r.tel.num 4 2) u = v at *
    have hdealt := dealtRecord hanswered hclosing (by rw [hsp]; exact hordered) hkept hshift h0 h1 h2 h3
    rw [hsp, hsec, hdel, hcfg, hsame, hbook, hcount] at hdealt
    obtain ⟨hseen, hpieced, hexchanged, hfailed, hskipped, hempty⟩ := hdealt
    refine ⟨hseen, hpieced, hexchanged, hfailed, hskipped, fun hs' hout hx => ?_⟩
    obtain ⟨hst, hcause, hatt, hpieced', hto, hbooks⟩ := hempty hs' hout hx
    exact ⟨hst, hcause, hatt, hpieced', hto, fun hfar => hbooks (hnone hfar)⟩
  · refine hlate.imp (fun h => matchedOrder_none h) ofCode_none

end Sys2Proof.Machine
end

section
/-! PROOFS. A carrier's booking (R103, R104). -/

namespace Sys2Proof.Machine

/-! ### Which sections are accepted (R103) -/

theorem acceptsSection_iff (s : State) (own : Option Nat) (held taken fresh : List Nat) (k : Nat) :
    s.acceptsSection own held taken fresh k = true ↔ s.hasSection k = true ∧ (s.sec k).state = .normal ∧ k ∉ taken ∧
      ((s.sec k).booking = none ∧ held.length + fresh.length < 8 ∨ (s.sec k).booking ≠ none ∧ (s.sec k).booking = own) := by
  unfold State.acceptsSection
  cases hb : (s.sec k).booking with
  | none => simp [Config.bookingCapacity, and_assoc]
  | some n => simp [and_assoc, eq_comm (a := own)]

/-- One section of a CARRIER_BOOKING taken or passed over. -/
def State.bookingStep (s : State) (own : Option Nat) (held : List Nat) (r : List Nat × List Nat) (k : Nat) : List Nat × List Nat :=
  if s.acceptsSection own held r.1 r.2 k then
    (r.1 ++ [k], if (s.sec k).booking.isNone then r.2 ++ [k] else r.2)
  else r

/-- The newly accepted of a list of sections: those in no booking. -/
def State.unbooked (s : State) (l : List Nat) : List Nat := l.filter (fun k => (s.sec k).booking.isNone)

theorem bookingTaken_eq (s : State) (own : Option Nat) (held listed : List Nat) :
    s.bookingTaken own held listed = listed.foldl (s.bookingStep own held) ([], []) := rfl

/-- What the sections taken from an accumulator on are, and which are not left out. -/
theorem bookingFold_spec (s : State) (own : Option Nat) (held : List Nat) (l a : List Nat) (ha : a.Nodup) :
    ∃ b : List Nat, l.foldl (s.bookingStep own held) (a, s.unbooked a) = (a ++ b, s.unbooked (a ++ b)) ∧ b.Sublist l ∧
      (a ++ b).Nodup ∧
      (held.length + (s.unbooked a).length ≤ 8 → held.length + (s.unbooked (a ++ b)).length ≤ 8) ∧
      (∀ k ∈ b, s.hasSection k = true ∧ (s.sec k).state = .normal ∧ ((s.sec k).booking = none ∨ (s.sec k).booking = own)) ∧
      ∀ k ∈ l, s.hasSection k = true → (s.sec k).state = .normal →
        ((s.sec k).booking = none ∧ held.length + (s.unbooked (a ++ b)).length < 8 ∨
          (s.sec k).booking ≠ none ∧ (s.sec k).booking = own) → k ∈ a ++ b := by
  induction l generalizing a with
  | nil => exact ⟨[], by simp, .refl _, by simpa using ha, by simp, by simp, by simp⟩
  | cons k l ih =>
    by_cases hk : s.acceptsSection own held a (s.unbooked a) k = true
    · obtain ⟨hsection, hnormal, hnew, hbooking⟩ := (acceptsSection_iff ..).1 hk
      have hstep : s.bookingStep own held (a, s.unbooked a) k = (a ++ [k], s.unbooked (a ++ [k])) := by
        unfold State.bookingStep
        dsimp only
        rw [if_pos hk]
        unfold State.unbooked
        rw [List.filter_append]
        cases hb : (s.sec k).booking <;> simp [hb]
      have hnodup : (a ++ [k]).Nodup := by
        rw [List.nodup_append]
        exact ⟨ha, List.nodup_singleton k, fun m hm n hn heq => by
          obtain rfl := List.mem_singleton.1 hn
          exact hnew (heq ▸ hm)⟩
      obtain ⟨b, hfold, hsub, hall, hroom, hin, hcomplete⟩ := ih (a ++ [k]) hnodup
      have hassoc : a ++ [k] ++ b = a ++ (k :: b) := by simp
      rw [hassoc] at hfold hall hroom hcomplete
      refine ⟨k :: b, by rw [List.foldl_cons, hstep, hfold], hsub.cons_cons k, hall, fun hle => hroom ?_, fun m hm => ?_,
        fun m hm => ?_⟩
      · rw [State.unbooked, List.filter_append, List.length_append]
        obtain ⟨hb, hlt⟩ | ⟨hb, -⟩ := hbooking
        · simp only [State.unbooked] at hlt
          simp [hb]
          omega
        · simp only [State.unbooked] at hle
          simpa [hb, Option.isNone_iff_eq_none] using hle
      · obtain rfl | hm := List.mem_cons.1 hm
        · exact ⟨hsection, hnormal, hbooking.imp (·.1) (·.2)⟩
        · exact hin m hm
      · obtain rfl | hm := List.mem_cons.1 hm
        · exact fun _ _ _ => by simp
        · exact hcomplete m hm
    · have hstep : s.bookingStep own held (a, s.unbooked a) k = (a, s.unbooked a) := if_neg hk
      obtain ⟨b, hfold, hsub, hall, hroom, hin, hcomplete⟩ := ih a ha
      refine ⟨b, by rw [List.foldl_cons, hstep, hfold], hsub.cons k, hall, hroom, hin, fun m hm hsection hnormal hbooking => ?_⟩
      obtain rfl | hm := List.mem_cons.1 hm
      · by_contra hnot
        refine hk ((acceptsSection_iff ..).2 ⟨hsection, hnormal, fun h => hnot (List.mem_append_left _ h), hbooking.imp ?_ id⟩)
        rintro ⟨hb, hlt⟩
        rw [State.unbooked, List.filter_append, List.length_append] at hlt
        exact ⟨hb, by rw [State.unbooked]; omega⟩
      · exact hcomplete m hm hsection hnormal hbooking

theorem bookingTaken_spec (s : State) (own : Option Nat) (held listed : List Nat) :
    let accepted := (s.bookingTaken own held listed).1
    let fresh := (s.bookingTaken own held listed).2
    fresh = s.unbooked accepted ∧ accepted.Sublist listed ∧ accepted.Nodup ∧
    (held.length ≤ 8 → held.length + fresh.length ≤ 8) ∧
    (∀ k ∈ accepted, s.hasSection k = true ∧ (s.sec k).state = .normal ∧ ((s.sec k).booking = none ∨ (s.sec k).booking = own)) ∧
    ∀ k ∈ listed, s.hasSection k = true → (s.sec k).state = .normal →
      ((s.sec k).booking = none ∧ held.length + fresh.length < 8 ∨ (s.sec k).booking ≠ none ∧ (s.sec k).booking = own) →
      k ∈ accepted := by
  obtain ⟨b, hfold, hsub, hnodup, hroom, hin, hcomplete⟩ := bookingFold_spec s own held listed [] .nil
  rw [show s.unbooked [] = [] from rfl] at hfold hroom
  simp only [bookingTaken_eq, hfold, List.nil_append, true_and]
  exact ⟨hsub, hnodup, hroom, hin, hcomplete⟩

/-! ### The slot extended (R104) -/

theorem modifySec_hasSection (k m : Nat) (f : Section → Section) (s : State) : (modifySec k f s).hasSection m = s.hasSection m := by
  have hlength : (modifySec k f s).creel.sections.length = s.creel.sections.length := by
    cases k <;> simp [modifySec, setSec, setNth]
  unfold State.hasSection
  rw [hlength]

/-- Sections of this frame booked one after the other. -/
theorem each_booked (n : Nat) (l : List Nat) {s : State} (hl : ∀ k ∈ l, s.hasSection k = true) :
    (∀ m, (each l (fun k => modifySec k (fun x => { x with booking := some n })) s).sec m =
      if m ∈ l then { s.sec m with booking := some n } else s.sec m) ∧
    (∀ j, (each l (fun k => modifySec k (fun x => { x with booking := some n })) s).slot j = s.slot j) := by
  induction l generalizing s with
  | nil => exact ⟨fun m => by simp [each], fun _ => rfl⟩
  | cons k l ih =>
    have hk := hl k List.mem_cons_self
    obtain ⟨hsec, hslot⟩ := ih (s := modifySec k (fun x => { x with booking := some n }) s)
      (fun m hm => (modifySec_hasSection ..).trans (hl m (List.mem_cons_of_mem _ hm)))
    refine ⟨fun m => (hsec m).trans ?_, hslot⟩
    by_cases hm : m = k
    · subst hm
      rw [modifySec_sec_self hk]
      by_cases hin : m ∈ l <;> simp [hin]
    · rw [modifySec_sec_ne hm]
      by_cases hin : m ∈ l <;> simp [hin, hm]

/-- The booking of a slot that is taken or extended. -/
def extended (carrier eta lapse : Nat) (fresh : List Nat) : Option Booking → Booking
  | some b => { b with eta := eta, lapse := max b.lapse lapse, sections := b.sections ++ fresh }
  | none => { carrier := carrier, eta := eta, lapse := lapse, sections := fresh }

theorem extendSlot_effect {n carrier eta : Nat} (hn : n = 1 ∨ n = 2) {fresh : List Nat} {s : State}
    (hfresh : ∀ k ∈ fresh, s.hasSection k = true) :
    let t := extendSlot n carrier eta fresh s
    onlyIn [.creel] s t ∧
    t.slot n = some (extended carrier eta (s.del.seconds + eta * 60 + s.cfg.bookingGrace) fresh (s.slot n)) ∧
    t.slot (3 - n) = s.slot (3 - n) ∧
    ∀ k, t.sec k = if k ∈ fresh then { s.sec k with booking := some n } else s.sec k := by
  intro t
  have ht : t = each fresh (fun k => modifySec k (fun x => { x with booking := some n }))
      (setSlot n (some (extended carrier eta (s.del.seconds + eta * 60 + s.cfg.bookingGrace) fresh (s.slot n))) s) := by
    show extendSlot n carrier eta fresh s = _
    unfold extendSlot
    cases s.slot n <;> rfl
  have hslots : (setSlot n (some (extended carrier eta (s.del.seconds + eta * 60 + s.cfg.bookingGrace) fresh (s.slot n))) s).creel.sections =
      s.creel.sections := by
    unfold setSlot
    split <;> rfl
  obtain ⟨hsec, hslot⟩ := each_booked n fresh
    (s := setSlot n (some (extended carrier eta (s.del.seconds + eta * 60 + s.cfg.bookingGrace) fresh (s.slot n))) s)
    (fun k hk => by
      have h := hfresh k hk
      unfold State.hasSection at h ⊢
      rw [hslots]
      exact h)
  refine ⟨?_, ?_, ?_, fun k => ?_⟩
  · exact ⟨by simp [t], fun b hb => by cases b <;> simp_all [Block.same, t]⟩
  · rw [ht, hslot, slot_setSlot]
  · rw [ht, hslot, setSlot_other hn]
  · rw [ht, hsec, setSlot_sec]

theorem slotFor_valid {s : State} {carrier n : Nat} (h : s.slotFor carrier = some n) : n = 1 ∨ n = 2 := by
  unfold State.slotFor State.slotOf at h
  split at h
  · next hown =>
    cases h
    split at hown
    · exact .inl (Option.some.inj hown).symm
    · split at hown
      · exact .inr (Option.some.inj hown).symm
      · cases hown
  · split at h
    · exact .inl (Option.some.inj h).symm
    · split at h
      · exact .inr (Option.some.inj h).symm
      · cases h

/-! ### A CARRIER_BOOKING -/

/-- Settles O32. -/
theorem carrierBookingAcceptsSections : Obligations.CarrierBookingAcceptsSections := by
  intro s r rest hw hrx hk u listed eta carrier
  have hrow : exec .carrierBooking s = .next (takeBooking r.tel u) := by
    have hexec : exec .carrierBooking s = .next (handOver .carrierBooking takeBooking s) := inRunning_works hw _
    rw [hexec, handOver_takes hrx hk]
    rfl
  have hread : onlyIn [.line] s u := setRx_onlyIn rest s
  rw [hrow]
  refine ⟨fun hnone => ?_, fun n hsome => ?_⟩
  · have htake : takeBooking r.tel u = enqueue .bookingAck carrier [] u := by
      have hslot : u.slotFor r.tel.source = none := hnone
      unfold takeBooking
      rw [hslot]
    rw [htake]
    exact ⟨_, rfl, onlyIn_seq hread (enqueue_onlyIn ..) (by simp) (by simp), rfl, rfl⟩
  · intro held accepted fresh lapse
    obtain ⟨hfresh, hsub, hnodup, hroom, hin, hcomplete⟩ := bookingTaken_spec s (s.slotOf carrier) held listed
    change fresh = s.unbooked accepted at hfresh
    have hn := slotFor_valid hsome
    have htake : takeBooking r.tel u = enqueue .bookingAck carrier (accepted.flatMap (field 1))
        (if fresh.isEmpty then u else extendSlot n carrier eta fresh u) := by
      have hslot : u.slotFor r.tel.source = some n := hsome
      unfold takeBooking
      rw [hslot]
      rfl
    have hmem : ∀ k, k ∈ fresh ↔ k ∈ accepted ∧ (s.sec k).booking = none := fun k => by
      rw [hfresh, State.unbooked, List.mem_filter, Option.isNone_iff_eq_none]
    have hfreshIn : ∀ k ∈ fresh, u.hasSection k = true := fun k hk => (hin k ((hmem k).1 hk).1).1
    obtain ⟨hblocks, hslot, hother, hsec⟩ := extendSlot_effect (carrier := carrier) (eta := eta) (s := u) hn hfreshIn
    have hframes : ∀ v, v = u ∨ v = extendSlot n carrier eta fresh u → v.line = u.line ∧ v.frame = u.frame ∧ v.port = u.port ∧
        v.del = u.del ∧ onlyIn [.creel] u v := fun v hv => by
      obtain rfl | rfl := hv
      · exact ⟨rfl, rfl, rfl, rfl, rfl, fun b _ => by cases b <;> rfl⟩
      · exact ⟨by simp, by simp, by simp, by simp, hblocks⟩
    rw [htake]
    obtain ⟨hline, hframe, hport, hdel, hcreel⟩ := hframes (if fresh.isEmpty then u else extendSlot n carrier eta fresh u)
      (by split <;> simp)
    refine ⟨_, rfl, onlyIn_seq hread (onlyIn_seq (cs := [.creel, .line, .frame]) hcreel (enqueue_onlyIn ..) (by simp) (by simp))
      (by simp) (by simp), enqueue_sends hline hframe hport hdel .., hsub, hnodup, ?_, hroom, fun k hk => ?_, hcomplete,
      fun hempty => ?_, fun hne => ?_⟩
    · rw [hfresh]
      exact List.filter_sublist
    · obtain ⟨hsection, hnormal, hbooking⟩ := hin k hk
      refine ⟨hsection, hnormal, ?_⟩
      by_cases hnone : (s.sec k).booking = none
      · exact .inl ⟨hnone, (hmem k).2 ⟨hk, hnone⟩⟩
      · exact .inr ⟨hbooking.resolve_left hnone, fun h => hnone ((hmem k).1 h).2⟩
    · rw [hempty]
      exact (enqueue_frame ..).2.2.2.1
    · have hnot : ¬ fresh.isEmpty = true := by simpa using hne
      rw [if_neg hnot]
      have hkept : (enqueue .bookingAck carrier (accepted.flatMap (field 1)) (extendSlot n carrier eta fresh u)).creel =
          (extendSlot n carrier eta fresh u).creel := by simp
      refine ⟨(slot_of_creel hkept n).trans (hslot.trans ?_), (slot_of_creel hkept _).trans hother, fun k =>
        (sec_of_creel hkept k).trans (hsec k)⟩
      have hsame : u.slot n = s.slot n := rfl
      rw [hsame]
      cases s.slot n <;> rfl

end Sys2Proof.Machine
end

section
/-! PROOFS. A carrier that is done, and one that restarts (R106, R110, R111). -/

namespace Sys2Proof.Machine

/-! ### What leaves a slot (R108, R110) -/

/-- A booking without section `k`; none where its list has become empty. -/
def Booking.without (k : Nat) (b : Booking) : Option Booking :=
  if b.sections.filter (· != k) = [] then none else some { b with sections := b.sections.filter (· != k) }

/-- Section record `x` names slot `n` as its booking. -/
def Section.bookedIn (n : Nat) (x : Section) : Bool := x.booking.any (fun m => (m == 1) == (n == 1))

theorem slot_same {m n : Nat} (h : ((m == 1) == (n == 1)) = true) (s : State) : s.slot m = s.slot n := by
  unfold State.slot
  have hmn : m = 1 ↔ n = 1 := by by_cases hm : m = 1 <;> by_cases hn : n = 1 <;> simp_all
  by_cases hm : m = 1
  · rw [if_pos hm, if_pos (hmn.1 hm)]
  · rw [if_neg hm, if_neg (mt hmn.2 hm)]

theorem setSlot_slot (m n : Nat) (b : Option Booking) (s : State) :
    (setSlot m b s).slot n = if ((m == 1) == (n == 1)) = true then b else s.slot n := by
  by_cases h : ((m == 1) == (n == 1)) = true
  · rw [if_pos h, ← slot_same h, slot_setSlot]
  · rw [if_neg h]
    by_cases hm : m = 1 <;> by_cases hn : n = 1 <;> simp_all [setSlot, State.slot]

theorem unbook_slot (k n : Nat) (s : State) : (unbook k s).slot n =
    if (s.sec k).bookedIn n then (s.slot n).bind (Booking.without k) else s.slot n := by
  unfold unbook Section.bookedIn
  cases hb : (s.sec k).booking with
  | none => rfl
  | some m =>
    dsimp only
    rw [modifySec_slot, Option.any_some]
    cases hslot : s.slot m with
    | none =>
      dsimp only
      split
      · next h => rw [modifySec_slot, ← slot_same h, hslot]; rfl
      · rfl
    | some b =>
      dsimp only
      rw [setSlot_slot]
      split
      · next h =>
        rw [← slot_same h, hslot]
        exact if_congr List.isEmpty_iff rfl rfl
      · rfl

theorem endUnknown_slot {k : Nat} (n : Nat) {s : State} (hk : s.hasSection k = true) : (endUnknown k s).slot n =
    if (s.sec k).bookedIn n then (s.slot n).bind (Booking.without k) else s.slot n := by
  have hsettled : (settleSection k .unknown s).sec k = { s.sec k with state := .unknown, timer := none, carrier := none } :=
    modifySec_sec_self hk _
  have hleft : (endUnknown k s).slot n = (unbook k (settleSection k .unknown s)).slot n := rebuildDue_slot _ n
  have hsame : (settleSection k .unknown s).slot n = s.slot n := rfl
  rw [hleft, unbook_slot, hsettled, hsame]
  rfl

theorem endUnknown_alerted {code : AlertCode} {subject : Option Nat} {s : State} (h : alerted code subject s) (k : Nat) :
    alerted code subject (endUnknown k s) := by
  have hframe : (exchangeLeft k s).frame = s.frame := by simp [exchangeLeft]
  have hleft : alerted code subject (exchangeLeft k s) := by
    unfold alerted at *
    rw [hframe]
    exact h
  exact alerted_rebuildDue (alerted_raise_of hleft ..)

theorem enqueue_rx (kind : Kind) (dest : Nat) (payload : List Byte) (s : State) :
    (enqueue kind dest payload s).line.rx = s.line.rx := by
  have hrest := enqueue_besideQueue kind dest payload s
  have hrx : (enqueue kind dest payload s).line.besideQueue.rx = s.line.besideQueue.rx := by rw [hrest]
  exact hrx

theorem rebuildDue_rx (s : State) : (rebuildDue s).line.rx = s.line.rx := by
  by_cases hsix : s.dueRebuilt.creel.firstSix = s.creel.firstSix
  · rw [rebuildDue_quiet hsix]
    rfl
  · rw [rebuildDue_announces hsix, announceDue_eq]
    exact enqueue_rx _ _ _ s.dueRebuilt

theorem endUnknown_rx (k : Nat) (s : State) : (endUnknown k s).line.rx = s.line.rx := by
  have hline : (exchangeLeft k s).line = s.line := by simp [exchangeLeft]
  exact (rebuildDue_rx _).trans (congrArg Line.rx hline)

/-! ### The exchanges that a station began (R111) -/

/-- The station began the exchange of section record `x`. -/
def Section.begunBy (carrier : Nat) (x : Section) : Bool := x.state == .exchanging && x.carrier == some carrier

theorem begunBy_iff (carrier : Nat) (x : Section) :
    x.begunBy carrier = true ↔ x.state = .exchanging ∧ x.carrier = some carrier := by simp [Section.begunBy]

/-- The section record of an exchange that has ended without a load. -/
def Section.abandoned (x : Section) : Section :=
  { x with state := .unknown, timer := none, carrier := none, booking := none, minutes := none, due := false }

theorem abandonOf_begun {carrier k : Nat} {s : State} (h : (s.sec k).begunBy carrier = true) : abandonOf carrier k s = endUnknown k s :=
  if_pos ((begunBy_iff ..).1 h)

theorem abandonOf_other {carrier k : Nat} {s : State} (h : ¬ (s.sec k).begunBy carrier = true) : abandonOf carrier k s = s :=
  if_neg fun hyes => h ((begunBy_iff ..).2 hyes)

/-- Slot `n` after the sections of `l` that the station began have ended, one after the other. -/
def slotAfter (sec : Nat → Section) (carrier n : Nat) (l : List Nat) (b : Option Booking) : Option Booking :=
  l.foldl (fun b k => if ((sec k).begunBy carrier && (sec k).bookedIn n) = true then b.bind (Booking.without k) else b) b

theorem slotAfter_congr {sec sec' : Nat → Section} (carrier n : Nat) {l : List Nat} (h : ∀ k ∈ l, sec k = sec' k) (b : Option Booking) :
    slotAfter sec carrier n l b = slotAfter sec' carrier n l b :=
  List.foldl_ext _ _ b fun _ k hk => by rw [h k hk]

theorem settleSection_hasSection (k m : Nat) (st : SectionState) (s : State) : (settleSection k st s).hasSection m = s.hasSection m :=
  modifySec_hasSection ..

theorem hasSection_of_sections {s t : State} (h : t.creel.sections = s.creel.sections) (k : Nat) : t.hasSection k = s.hasSection k := by
  rw [State.hasSection, h, State.hasSection]

theorem setSlot_hasSection (n : Nat) (b : Option Booking) (s : State) (m : Nat) : (setSlot n b s).hasSection m = s.hasSection m :=
  hasSection_of_sections (by unfold setSlot; split <;> rfl) m

theorem unbook_hasSection (k m : Nat) (s : State) : (unbook k s).hasSection m = s.hasSection m := by
  unfold unbook
  cases (s.sec k).booking with
  | none => rfl
  | some n =>
    dsimp only
    split
    · exact (setSlot_hasSection ..).trans (modifySec_hasSection ..)
    · exact modifySec_hasSection ..

theorem endUnknown_hasSection (k m : Nat) (s : State) : (endUnknown k s).hasSection m = s.hasSection m := by
  have hrebuilt : ∀ u : State, (rebuildDue u).hasSection m = u.hasSection m := fun u =>
    hasSection_of_sections (by rw [rebuildDue_creel]; rfl) m
  have hleft : (exchangeLeft k s).hasSection m = s.hasSection m := (unbook_hasSection ..).trans (settleSection_hasSection ..)
  exact (hrebuilt _).trans ((modifySec_hasSection ..).trans hleft)

/-- What the end of a station's exchanges leaves. -/
structure Abandoned (carrier : Nat) (l : List Nat) (s t : State) : Prop where
  blocks : onlyIn [.creel, .line, .frame] s t
  rx : t.line.rx = s.line.rx
  sec : ∀ m, t.sec m = if m ∈ l ∧ (s.sec m).begunBy carrier = true then (s.sec m).abandoned else s.sec m
  slot : ∀ n, t.slot n = slotAfter s.sec carrier n l (s.slot n)
  alert : ∀ k ∈ l, (s.sec k).begunBy carrier = true → alerted .exchangeUnknown (some k) t
  kept : ∀ code subject, alerted code subject s → alerted code subject t
  same : (∀ k ∈ l, ¬ (s.sec k).begunBy carrier = true) → t = s

theorem each_abandonOf (carrier : Nat) (l : List Nat) (hnodup : l.Nodup) {s : State} (hl : ∀ k ∈ l, s.hasSection k = true) :
    Abandoned carrier l s (each l (abandonOf carrier) s) := by
  induction l generalizing s with
  | nil =>
    exact ⟨⟨rfl, fun b _ => by cases b <;> rfl⟩, rfl, fun m => by simp [each], fun _ => rfl, by simp, fun _ _ h => h, fun _ => rfl⟩
  | cons k l ih =>
    obtain ⟨hk, hnodup'⟩ := List.nodup_cons.1 hnodup
    have hin := hl k List.mem_cons_self
    by_cases hbegun : (s.sec k).begunBy carrier = true
    · obtain ⟨hblocks, hself, hother, -, halert, -⟩ := endUnknown_endedWithoutLoad hin
      have hsecs : ∀ m ∈ l, (endUnknown k s).sec m = s.sec m := fun m hm => hother m fun h => hk (h ▸ hm)
      have hrest := ih hnodup' (s := endUnknown k s)
        (fun m hm => (endUnknown_hasSection ..).trans (hl m (List.mem_cons_of_mem _ hm)))
      have hstep : each (k :: l) (abandonOf carrier) s = each l (abandonOf carrier) (endUnknown k s) := by
        rw [each, List.foldl_cons, abandonOf_begun hbegun]
        rfl
      rw [hstep]
      refine ⟨onlyIn_trans hblocks hrest.blocks, hrest.rx.trans (endUnknown_rx k s), fun m => (hrest.sec m).trans ?_,
        fun n => (hrest.slot n).trans ?_, fun m hm hyes => ?_, fun code subject h => hrest.kept code subject (endUnknown_alerted h k),
        fun hnone => absurd hbegun (hnone k List.mem_cons_self)⟩
      · by_cases hm : m = k
        · subst hm
          rw [if_neg fun h => hk h.1, if_pos ⟨List.mem_cons_self, hbegun⟩, hself]
          rfl
        · rw [hother m hm]
          simp [hm]
      · rw [slotAfter_congr carrier n hsecs, endUnknown_slot n hin]
        simp only [slotAfter, List.foldl_cons, hbegun, Bool.true_and]
      · obtain rfl | hm := List.mem_cons.1 hm
        · exact hrest.kept _ _ halert
        · exact hrest.alert m hm (by rw [hsecs m hm]; exact hyes)
    · have hrest := ih hnodup' (s := s) (fun m hm => hl m (List.mem_cons_of_mem _ hm))
      have hstep : each (k :: l) (abandonOf carrier) s = each l (abandonOf carrier) s := by
        rw [each, List.foldl_cons, abandonOf_other hbegun]
        rfl
      rw [hstep]
      refine ⟨hrest.blocks, hrest.rx, fun m => (hrest.sec m).trans ?_, fun n => (hrest.slot n).trans ?_, fun m hm hyes => ?_,
        hrest.kept, fun hnone => hrest.same fun m hm => hnone m (List.mem_cons_of_mem _ hm)⟩
      · by_cases hm : m = k
        · subst hm
          rw [if_neg fun h => hbegun h.2, if_neg fun h => hbegun h.2]
        · simp [hm]
      · simp [slotAfter, hbegun]
      · obtain rfl | hm := List.mem_cons.1 hm
        · exact absurd hyes hbegun
        · exact hrest.alert m hm hyes

/-! ### A slot after the exchanges have ended -/

theorem slotAfter_none (sec : Nat → Section) (carrier n : Nat) (l : List Nat) : slotAfter sec carrier n l none = none := by
  unfold slotAfter
  induction l with
  | nil => rfl
  | cons k l ih =>
    rw [List.foldl_cons, Option.bind_none, ite_self]
    exact ih

/-- What is left of a list of sections once those of `l` that have ended have left it. -/
def leftOf (ended : Nat → Bool) (l sections : List Nat) : List Nat := sections.filter (fun j => !(l.contains j && ended j))

theorem leftOf_cons {ended : Nat → Bool} {k : Nat} (hk : ended k = true) (l sections : List Nat) :
    leftOf ended (k :: l) sections = leftOf ended l (sections.filter (· != k)) := by
  unfold leftOf
  rw [List.filter_filter]
  refine List.filter_congr fun j _ => ?_
  by_cases hj : j = k
  · subst hj
    simp [hk]
  · simp [hj]

theorem leftOf_none {ended : Nat → Bool} {l : List Nat} (h : l.any ended = false) (sections : List Nat) :
    leftOf ended l sections = sections := by
  refine List.filter_eq_self.2 fun j _ => ?_
  by_cases hj : j ∈ l
  · have hended : ended j = false := by simpa using List.any_eq_false.1 h j hj
    simp [hended]
  · simp [hj]

/-- Slot `n` has lost the sections whose exchange has ended, and is free where that left it empty. -/
theorem slotAfter_some (sec : Nat → Section) (carrier n : Nat) (l : List Nat) (b : Booking) :
    let ended := fun k => (sec k).begunBy carrier && (sec k).bookedIn n
    slotAfter sec carrier n l (some b) = if l.any ended = true then
      (if leftOf ended l b.sections = [] then none else some { b with sections := leftOf ended l b.sections }) else some b := by
  intro ended
  induction l generalizing b with
  | nil => rfl
  | cons k l ih =>
    have hstep : slotAfter sec carrier n (k :: l) (some b) =
        slotAfter sec carrier n l (if ended k = true then b.without k else some b) := rfl
    rw [hstep]
    cases hk : ended k with
    | false =>
      have hany : (k :: l).any ended = l.any ended := by simp [hk]
      have hleft : leftOf ended (k :: l) b.sections = leftOf ended l b.sections :=
        List.filter_congr fun j _ => by
          by_cases hj : j = k
          · subst hj; simp [hk]
          · simp [hj]
      rw [hany, hleft]
      exact ih b
    | true =>
      have hany : (k :: l).any ended = true := by simp [hk]
      rw [if_pos rfl, if_pos hany, leftOf_cons hk]
      by_cases hrest : b.sections.filter (· != k) = []
      · rw [show b.without k = none from if_pos hrest, slotAfter_none, hrest]
        exact (if_pos rfl).symm
      · rw [show b.without k = some { b with sections := b.sections.filter (· != k) } from if_neg hrest, ih]
        cases hl : l.any ended with
        | true => rfl
        | false =>
          rw [leftOf_none hl, if_neg hrest]
          rfl

/-- What a slot is after the exchanges have ended: free, or the booking with a list that keeps every section that did not end. -/
theorem slotAfter_cases {sec : Nat → Section} {carrier n : Nat} {l : List Nat} {b : Booking} {after : Option Booking}
    (h : slotAfter sec carrier n l (some b) = after) :
    (∀ b', after = some b' → b'.carrier = b.carrier ∧ b'.sections ⊆ b.sections) ∧
    ∀ k ∈ b.sections, ¬ (sec k).begunBy carrier = true → ∃ b', after = some b' ∧ k ∈ b'.sections := by
  rw [slotAfter_some] at h
  have hkeeps : ∀ k ∈ b.sections, ¬ (sec k).begunBy carrier = true →
      k ∈ leftOf (fun k => (sec k).begunBy carrier && (sec k).bookedIn n) l b.sections := fun k hk hno =>
    List.mem_filter.2 ⟨hk, by simp [hno]⟩
  have hsub : leftOf (fun k => (sec k).begunBy carrier && (sec k).bookedIn n) l b.sections ⊆ b.sections :=
    List.filter_subset_self _
  split at h
  · split at h
    · next hempty =>
      subst h
      exact ⟨nofun, fun k hk hno => absurd (hkeeps k hk hno) (by rw [hempty]; exact List.not_mem_nil)⟩
    · subst h
      exact ⟨fun b' hb => by cases hb; exact ⟨rfl, hsub⟩, fun k hk hno => ⟨_, rfl, hkeeps k hk hno⟩⟩
  · subst h
    exact ⟨fun b' hb => by cases hb; exact ⟨rfl, fun _ h => h⟩, fun k hk _ => ⟨_, rfl, hk⟩⟩

/-! ### The slot of a carrier -/

theorem slotOf_some {s : State} {carrier n : Nat} (h : s.slotOf carrier = some n) :
    (n = 1 ∨ n = 2) ∧ (∃ b, s.slot n = some b ∧ b.carrier = carrier) ∧
    (n = 2 → ∀ b, s.slot 1 = some b → b.carrier ≠ carrier) := by
  unfold State.slotOf at h
  split at h
  · next h1 =>
    cases h
    exact ⟨.inl rfl, Option.map_eq_some_iff.1 h1, nofun⟩
  · next h1 =>
    split at h
    · next h2 =>
      cases h
      exact ⟨.inr rfl, Option.map_eq_some_iff.1 h2, fun _ b hb hcarrier => h1 (Option.map_eq_some_iff.2 ⟨b, hb, hcarrier⟩)⟩
    · cases h

theorem slotOf_none {s : State} {carrier : Nat} (h : s.slotOf carrier = none) {n : Nat} (hn : n = 1 ∨ n = 2) {b : Booking}
    (hb : s.slot n = some b) : b.carrier ≠ carrier := by
  intro hcarrier
  unfold State.slotOf at h
  split at h
  · cases h
  · next h1 =>
    split at h
    · cases h
    · next h2 =>
      rcases hn with rfl | rfl
      · exact h1 (Option.map_eq_some_iff.2 ⟨b, hb, hcarrier⟩)
      · exact h2 (Option.map_eq_some_iff.2 ⟨b, hb, hcarrier⟩)

theorem slotOf_of {s : State} {carrier n : Nat} (hn : n = 1 ∨ n = 2) {b : Booking} (hb : s.slot n = some b)
    (hcarrier : b.carrier = carrier) (hfirst : n = 2 → ∀ b, s.slot 1 = some b → b.carrier ≠ carrier) : s.slotOf carrier = some n := by
  unfold State.slotOf
  rcases hn with rfl | rfl
  · exact if_pos (Option.map_eq_some_iff.2 ⟨b, hb, hcarrier⟩)
  · refine (if_neg fun h1 => ?_).trans (if_pos (Option.map_eq_some_iff.2 ⟨b, hb, hcarrier⟩))
    obtain ⟨b1, hb1, hc1⟩ := Option.map_eq_some_iff.1 h1
    exact hfirst rfl b1 hb1 hc1

theorem not_other_slot {m n : Nat} (hm : m = 1 ∨ m = 2) (hn : n = 1 ∨ n = 2) (h : n ≠ m) : n = 3 - m := by omega

/-! ### BOOKING_DONE (R106) -/

theorem takeBookingDone_some {t : Telegram} {n : Nat} {s : State} (h : s.slotOf t.source = some n) : takeBookingDone t s = freeSlot n s := by
  unfold takeBookingDone
  rw [h]

theorem takeBookingDone_none {t : Telegram} {s : State} (h : s.slotOf t.source = none) : takeBookingDone t s = s := by
  unfold takeBookingDone
  rw [h]

/-! ### STATION_RESTART at the creel unit (R111) -/

/-- The state in which the station's exchanges have ended. -/
def exchangesEnded (source : Nat) (s : State) : State := each s.numbers (abandonOf source) s

theorem carrierRestarted_some {source n : Nat} {s : State} (h : (exchangesEnded source s).slotOf source = some n) :
    carrierRestarted source s = freeSlot n (exchangesEnded source s) := by
  unfold exchangesEnded at h
  unfold carrierRestarted exchangesEnded
  dsimp only
  rw [h]

theorem carrierRestarted_none {source : Nat} {s : State} (h : (exchangesEnded source s).slotOf source = none) :
    carrierRestarted source s = exchangesEnded source s := by
  unfold exchangesEnded at h
  unfold carrierRestarted exchangesEnded
  dsimp only
  rw [h]

theorem exchangesEnded_abandoned (source : Nat) (s : State) : Abandoned source s.numbers s (exchangesEnded source s) :=
  each_abandonOf source s.numbers List.nodup_range' fun _ hk => hasSection_iff.2 (mem_numbers.1 hk)

/-- What a restart leaves: the station's exchanges ended, and then the slot it holds freed. -/
theorem carrierRestarted_cases (source : Nat) (s : State) :
    let v := exchangesEnded source s
    let t := carrierRestarted source s
    (∃ m b, v.slotOf source = some m ∧ v.slot m = some b ∧ b.carrier = source ∧ (m = 1 ∨ m = 2) ∧ onlyIn [.creel] v t ∧
      t.slot m = none ∧ t.slot (3 - m) = v.slot (3 - m) ∧ t.creel.besideBookings = v.creel.besideBookings ∧
      ∀ k, t.sec k = if k ∈ b.sections then { v.sec k with booking := none } else v.sec k) ∨
    v.slotOf source = none ∧ t = v := by
  intro v t
  cases hslot : v.slotOf source with
  | none => exact .inr ⟨rfl, carrierRestarted_none hslot⟩
  | some m =>
    obtain ⟨hm, ⟨b, hb, hcarrier⟩, -⟩ := slotOf_some hslot
    obtain ⟨hblocks, hfreed, hother, hrest, hsec⟩ := freeSlot_effect hm hb
    rw [show t = freeSlot m v from carrierRestarted_some hslot]
    exact .inl ⟨m, b, rfl, hb, hcarrier, hm, hblocks, hfreed, hother, hrest, hsec⟩

/-- The slots once the station's exchanges have ended. -/
theorem exchangesEnded_slot (source n : Nat) (s : State) :
    (s.slot n = none → (exchangesEnded source s).slot n = none) ∧
    ∀ b, s.slot n = some b →
      (∀ b', (exchangesEnded source s).slot n = some b' → b'.carrier = b.carrier ∧ b'.sections ⊆ b.sections) ∧
      ∀ k ∈ b.sections, ¬ (s.sec k).begunBy source = true → ∃ b', (exchangesEnded source s).slot n = some b' ∧ k ∈ b'.sections := by
  have hslot := (exchangesEnded_abandoned source s).slot n
  refine ⟨fun hnone => ?_, fun b hb => ?_⟩
  · rw [hslot, hnone, slotAfter_none]
  · rw [hb] at hslot
    exact slotAfter_cases hslot.symm

/-- A booking that is left once the station's exchanges have ended is what is left of one that stood before. -/
theorem exchangesEnded_slot_some {source n : Nat} {s : State} {b' : Booking} (h : (exchangesEnded source s).slot n = some b') :
    ∃ b, s.slot n = some b ∧ b'.carrier = b.carrier ∧ b'.sections ⊆ b.sections := by
  obtain ⟨hnone, hsome⟩ := exchangesEnded_slot source n s
  cases hb : s.slot n with
  | none => rw [hnone hb] at h; cases h
  | some b => exact ⟨b, rfl, (hsome b hb).1 b' h⟩

theorem carrierRestarted_freed {source n : Nat} {s : State} (h : s.slotOf source = some n) : (carrierRestarted source s).slot n = none := by
  obtain ⟨hn, ⟨b, hb, hcarrier⟩, hfirst⟩ := slotOf_some h
  obtain ⟨m, -, hslot, -, -, hm, -, hfreed, hother, -⟩ | ⟨hnone, ht⟩ := carrierRestarted_cases source s
  · by_cases hmn : n = m
    · rw [hmn]; exact hfreed
    · have hslots : (exchangesEnded source s).slot n = none := by
        cases hv : (exchangesEnded source s).slot n with
        | none => rfl
        | some b' =>
          obtain ⟨b0, hb0, hc0, -⟩ := exchangesEnded_slot_some hv
          obtain rfl : b = b0 := Option.some.inj (hb.symm.trans hb0)
          have hown := slotOf_of hn hv (hc0.trans hcarrier) (fun h2 b1 hb1 => by
            obtain ⟨b2, hb2, hc2, -⟩ := exchangesEnded_slot_some hb1
            rw [hc2]
            exact hfirst h2 b2 hb2)
          exact absurd (Option.some.inj (hown.symm.trans hslot)) hmn
      rw [not_other_slot hm hn hmn] at hslots ⊢
      exact hother.trans hslots
  · rw [ht]
    cases hv : (exchangesEnded source s).slot n with
    | none => rfl
    | some b' =>
      obtain ⟨b0, hb0, hc0, -⟩ := exchangesEnded_slot_some hv
      obtain rfl : b = b0 := Option.some.inj (hb.symm.trans hb0)
      exact absurd (hc0.trans hcarrier) (slotOf_none hnone hn hv)

/-- A section whose exchange the station began has ended without a load. -/
theorem carrierRestarted_began {source k : Nat} {s : State} (hk : k ∈ s.numbers) (h : (s.sec k).begunBy source = true) :
    (carrierRestarted source s).sec k = (s.sec k).abandoned ∧ alerted .exchangeUnknown (some k) (carrierRestarted source s) := by
  have habandoned := exchangesEnded_abandoned source s
  have hsec := habandoned.sec k
  rw [if_pos ⟨hk, h⟩] at hsec
  have halert := habandoned.alert k hk h
  obtain ⟨m, b, -, -, -, -, hblocks, -, -, -, hfree⟩ | ⟨-, ht⟩ := carrierRestarted_cases source s
  · refine ⟨(hfree k).trans ?_, ?_⟩
    · rw [hsec]
      split <;> rfl
    · have hframe : (carrierRestarted source s).frame = (exchangesEnded source s).frame := hblocks.2 .frame (by simp)
      unfold alerted at *
      rw [hframe]
      exact halert
  · rw [ht]
    exact ⟨hsec, halert⟩

/-- A section of the station's own booking, its exchange begun by another, is unbooked. -/
theorem carrierRestarted_unbooked {source n k : Nat} {s : State} {b : Booking} (hno : ¬ (s.sec k).begunBy source = true)
    (hn : s.slotOf source = some n) (hb : s.slot n = some b) (hk : k ∈ b.sections) :
    (carrierRestarted source s).sec k = { s.sec k with booking := none } := by
  have hsec := (exchangesEnded_abandoned source s).sec k
  rw [if_neg fun h => hno h.2] at hsec
  obtain ⟨hvalid, ⟨b0, hb0, hcarrier⟩, hfirst⟩ := slotOf_some hn
  obtain rfl : b = b0 := Option.some.inj (hb.symm.trans hb0)
  obtain ⟨b', hb', hmem⟩ := ((exchangesEnded_slot source n s).2 b hb).2 k hk hno
  obtain ⟨b1, hb1, hc1, -⟩ := exchangesEnded_slot_some hb'
  obtain rfl : b = b1 := Option.some.inj (hb.symm.trans hb1)
  have hown := slotOf_of hvalid hb' (hc1.trans hcarrier) (fun h2 b1 hb1 => by
    obtain ⟨b2, hb2, hc2, -⟩ := exchangesEnded_slot_some hb1
    rw [hc2]
    exact hfirst h2 b2 hb2)
  obtain ⟨m, b2, hslot, hb2, -, -, -, -, -, -, hfree⟩ | ⟨hnone, -⟩ := carrierRestarted_cases source s
  · obtain rfl : n = m := Option.some.inj (hown.symm.trans hslot)
    obtain rfl : b' = b2 := Option.some.inj (hb'.symm.trans hb2)
    rw [hfree, if_pos hmem, hsec]
  · rw [hnone] at hown
    cases hown

/-- A section that no booking of the station lists, and whose exchange it did not begin, is left alone. -/
theorem carrierRestarted_sec_other {source k : Nat} {s : State} (hno : ¬ (s.sec k).begunBy source = true)
    (hunlisted : ¬ ∃ n b, (n = 1 ∨ n = 2) ∧ s.slot n = some b ∧ b.carrier = source ∧ k ∈ b.sections) :
    (carrierRestarted source s).sec k = s.sec k := by
  have hsec := (exchangesEnded_abandoned source s).sec k
  rw [if_neg fun h => hno h.2] at hsec
  obtain ⟨m, b', -, hb', hcarrier, hm, -, -, -, -, hfree⟩ | ⟨-, ht⟩ := carrierRestarted_cases source s
  · obtain ⟨b, hb, hc, hsub⟩ := exchangesEnded_slot_some hb'
    rw [hfree, if_neg fun hk => hunlisted ⟨m, b, hm, hb, hc.symm.trans hcarrier, hsub hk⟩, hsec]
  · rw [ht, hsec]

/-- The slot of another carrier loses the sections whose exchange has ended, and no more. -/
theorem carrierRestarted_otherSlot {source n : Nat} {s : State} (hn : n = 1 ∨ n = 2) {b : Booking} (hb : s.slot n = some b)
    (hcarrier : b.carrier ≠ source) : (carrierRestarted source s).slot n = (exchangesEnded source s).slot n := by
  obtain ⟨m, b', -, hb', hc', hm, -, -, hother, -⟩ | ⟨-, ht⟩ := carrierRestarted_cases source s
  · have hne : n ≠ m := fun h => by
      subst h
      obtain ⟨b0, hb0, hc0, -⟩ := exchangesEnded_slot_some hb'
      obtain rfl : b = b0 := Option.some.inj (hb.symm.trans hb0)
      exact hcarrier (hc0.symm.trans hc')
    rw [not_other_slot hm hn hne]
    exact hother
  · rw [ht]

/-- From a station that began no exchange nothing ends; one that holds no slot either changes nothing. -/
theorem carrierRestarted_quiet {source : Nat} {s : State} (h : ∀ k, ¬ (s.sec k).begunBy source = true) :
    exchangesEnded source s = s := (exchangesEnded_abandoned source s).same fun k _ => h k

theorem any_numbers (s : State) (p : Section → Bool) : s.numbers.any (fun k => p (s.sec k)) = s.creel.sections.any p := by
  refine Bool.eq_iff_iff.2 ?_
  rw [List.any_eq_true, List.any_eq_true]
  constructor
  · rintro ⟨k, hk, hp⟩
    obtain ⟨hlow, hhigh⟩ := mem_numbers.1 hk
    obtain ⟨j, rfl⟩ : ∃ j, k = j + 1 := ⟨k - 1, by omega⟩
    have hj : j < s.creel.sections.length := by omega
    have hget : s.sec (j + 1) = s.creel.sections[j] := List.getD_eq_getElem _ _ hj
    exact ⟨_, List.getElem_mem hj, hget ▸ hp⟩
  · rintro ⟨x, hx, hp⟩
    obtain ⟨j, hj, rfl⟩ := List.getElem_of_mem hx
    have hget : s.sec (j + 1) = s.creel.sections[j] := List.getD_eq_getElem _ _ hj
    exact ⟨j + 1, mem_numbers.2 ⟨by omega, by omega⟩, by rw [hget]; exact hp⟩

theorem leftOf_numbers (s : State) {p : Section → Bool} (hp : p Section.blank = false) (sections : List Nat) :
    leftOf (fun k => p (s.sec k)) s.numbers sections = sections.filter (fun k => !p (s.sec k)) := by
  refine List.filter_congr fun k _ => ?_
  by_cases hk : k ∈ s.numbers
  · simp [hk]
  · have hblank : s.sec k = Section.blank := sec_blank fun h => hk (mem_numbers.2 (hasSection_iff.1 h))
    simp [hk, hblank, hp]

theorem carrierRestarted_onlyIn (source : Nat) (s : State) : onlyIn [.creel, .line, .frame] s (carrierRestarted source s) := by
  have hended := (exchangesEnded_abandoned source s).blocks
  obtain ⟨-, -, -, -, -, -, hblocks, -⟩ | ⟨-, ht⟩ := carrierRestarted_cases source s
  · exact onlyIn_seq hended hblocks (by simp) (by simp)
  · rw [ht]
    exact hended

theorem carrierRestarted_rx (source : Nat) (s : State) : (carrierRestarted source s).line.rx = s.line.rx := by
  have hrx := (exchangesEnded_abandoned source s).rx
  obtain ⟨-, -, -, -, -, -, hblocks, -⟩ | ⟨-, ht⟩ := carrierRestarted_cases source s
  · have hline : (carrierRestarted source s).line = (exchangesEnded source s).line := hblocks.2 .line (by simp)
    rw [hline]
    exact hrx
  · rw [ht]
    exact hrx

/-- Settles O35. -/
theorem carrierGoneFreesItsSlot : Obligations.CarrierGoneFreesItsSlot := by
  intro s r rest hw hrx u
  refine ⟨fun hk => ?_, fun hk hby => ?_, fun hk hby => ?_⟩
  · have hrow : exec .bookingDone s = .next (takeBookingDone r.tel u) := by
      have hexec : exec .bookingDone s = .next (handOver .bookingDone takeBookingDone s) := inRunning_works hw _
      rw [hexec, handOver_takes hrx hk]
      rfl
    rw [hrow]
    refine ⟨fun n b hslot hb => ?_, fun hnone => congrArg Host.Outcome.next (takeBookingDone_none (s := u) hnone)⟩
    obtain ⟨hblocks, hfreed, hother, -, hsec⟩ := freeSlot_effect (slotOf_some hslot).1 (s := u) hb
    rw [takeBookingDone_some (s := u) hslot]
    exact ⟨_, rfl, onlyIn_seq (setRx_onlyIn rest s) hblocks (by simp) (by simp), hblocks.2 .line (by simp), hfreed, hother, hsec⟩
  · intro rx began listed
    have hexec : exec .stationRestartCreel s = .next
        (takeRestart Received.byCreel (fun r => { r with byCreel := true }) carrierRestarted s) := inRunning_works hw _
    have hrx' : (if ({ r with byCreel := true } : Received).done then rest else { r with byCreel := true } :: rest) = rx :=
      if_congr (by simp [Received.done]) rfl rfl
    rw [hexec, takeRestart_takes hrx hk hby, hrx']
    have hbegan : ∀ k, began k ↔ (s.sec k).begunBy r.tel.source = true := fun k => (begunBy_iff ..).symm
    refine ⟨_, rfl, onlyIn_seq (setRx_onlyIn rx s) (carrierRestarted_onlyIn ..) (by simp) (by simp), carrierRestarted_rx ..,
      fun n hn => carrierRestarted_freed (s := s.setRx rx) hn, fun k hk hk' => ⟨fun hyes => ?_, fun n b hno hn hb hmem => ?_,
        fun hno hunlisted => ?_⟩, fun n b hn hb hother => ?_, fun hnone => ?_, fun hnone hslots => ?_⟩
    · exact carrierRestarted_began (s := s.setRx rx) (mem_numbers.2 ⟨hk, hk'⟩) ((hbegan k).1 hyes)
    · exact carrierRestarted_unbooked (s := s.setRx rx) (fun h => hno ((hbegan k).2 h)) hn hb hmem
    · exact carrierRestarted_sec_other (s := s.setRx rx) (fun h => hno ((hbegan k).2 h)) hunlisted
    · intro ended left
      have hslot := (exchangesEnded_abandoned r.tel.source (s.setRx rx)).slot n
      have hb' : (s.setRx rx).slot n = some b := hb
      rw [carrierRestarted_otherSlot (s := s.setRx rx) hn hb hother, hslot, hb', slotAfter_some,
        any_numbers (s.setRx rx) (fun x => x.begunBy r.tel.source && x.bookedIn n),
        leftOf_numbers (s.setRx rx) (p := fun x => x.begunBy r.tel.source && x.bookedIn n) rfl]
      rfl
    · have hquiet := carrierRestarted_quiet (s := s.setRx rx) (source := r.tel.source) fun k h => hnone k ((hbegan k).2 h)
      obtain ⟨m, b, -, -, -, -, hblocks, -, -, hrest, -⟩ | ⟨-, ht⟩ := carrierRestarted_cases r.tel.source (s.setRx rx)
      · rw [hquiet] at hblocks hrest
        exact ⟨hblocks.2 .frame (by simp), hblocks.2 .line (by simp), creel_of_besideBookings hrest⟩
      · rw [ht, hquiet]
        exact ⟨rfl, rfl, rfl⟩
    · have hquiet := carrierRestarted_quiet (s := s.setRx rx) (source := r.tel.source) fun k h => hnone k ((hbegan k).2 h)
      obtain ⟨m, b, hslot, -⟩ | ⟨-, ht⟩ := carrierRestarted_cases r.tel.source (s.setRx rx)
      · rw [hquiet] at hslot
        exact absurd hslot (hslots m)
      · exact ht.trans hquiet
  · have hexec : exec .stationRestartCreel s = .next
        (takeRestart Received.byCreel (fun r => { r with byCreel := true }) carrierRestarted s) := inRunning_works hw _
    rw [hexec, takeRestart_other hrx hby]

end Sys2Proof.Machine
end

section
/-! PROOFS. The begin of an exchange (R107). -/

namespace Sys2Proof.Machine

/-! ### A record at the begin of its section's exchange -/

/-- QUEUED, WAITING, ORDERED or EMPTY: a record that the begin of an exchange takes. -/
def SpState.exchangeable (st : SpState) : Prop := st = .queued ∨ st = .waiting ∨ st = .ordered ∨ st = .empty

theorem exchangeRecord_keeps {i : Nat} {s : State} (h : ¬ (s.sp i).state.exchangeable) : exchangeRecord i s = s := by
  unfold exchangeRecord
  cases hst : (s.sp i).state with
  | queued | waiting | ordered | empty => exact absurd (by rw [hst]; simp [SpState.exchangeable]) h
  | _ => rfl

theorem exchangeRecord_sp_ne {i j : Nat} (h : i ≠ j) (s : State) : (exchangeRecord i s).sp j = s.sp j := by
  have hwithdrawn : (withdrawOrder i s).sp j = s.sp j := sp_of_mon (by simp) j
  unfold exchangeRecord
  cases (s.sp i).state with
  | queued | waiting => exact bookEnter_sp_ne h _ _
  | ordered => exact (bookEnter_sp_ne h _ _).trans hwithdrawn
  | empty => exact enter_sp_ne h _ _
  | _ => rfl

theorem exchangeRecord_closing (i : Nat) {s : State} (hc : s.shift.closing = none) : (exchangeRecord i s).shift.closing = none := by
  have hwithdrawn : (withdrawOrder i s).shift.closing = none := by simpa using hc
  unfold exchangeRecord
  cases (s.sp i).state with
  | queued | waiting => exact bookEnter_closing hc i .exchange
  | ordered => exact bookEnter_closing hwithdrawn i .exchange
  | empty => dsimp only; rw [enter_shift_idle hc]; exact hc
  | _ => exact hc

/-- What a record taken by the begin of an exchange becomes. -/
theorem exchangeRecord_taken {i : Nat} {s : State} (hc : s.shift.closing = none) (hbooked : (s.sp i).bookedTo.isSome = true)
    (h : (s.sp i).state.exchangeable) :
    let t := exchangeRecord i s
    (t.sp i).state = .exchange ∧ (t.sp i).cause = some .roving ∧ (t.sp i).attempts = 0 ∧ (t.sp i).piecedAt = none ∧
    (t.sp i).downSince = (s.sp i).downSince ∧ ((s.sp i).state ≠ .empty → (t.sp i).bookedTo = some s.del.count) := by
  intro t
  have hi : s.hasSpindle i = true := hasSpindle_of_state (by rcases h with h | h | h | h <;> rw [h] <;> decide)
  have hdown : (s.sp i).state.isDown = true := by rcases h with h | h | h | h <;> rw [h] <;> rfl
  have htaken : ∀ u : State, u.mon = s.mon → u.shift = s.shift → u.del = s.del →
      ((bookEnter i .exchange u).sp i).state = .exchange ∧ ((bookEnter i .exchange u).sp i).cause = some .roving ∧
      ((bookEnter i .exchange u).sp i).attempts = 0 ∧ ((bookEnter i .exchange u).sp i).piecedAt = none ∧
      ((bookEnter i .exchange u).sp i).downSince = (s.sp i).downSince ∧
      ((s.sp i).state ≠ .empty → ((bookEnter i .exchange u).sp i).bookedTo = some s.del.count) := fun u hmon hshift hdel => by
    have hsp := sp_of_mon hmon i
    obtain ⟨hstate, hcause, hattempts, hpieced, -, hsince, -, hto⟩ := bookEnter_taken (s := u) (by rw [has_of_mon hmon]; exact hi)
      (by rw [hshift]; exact hc) (.inl rfl) (by rw [hsp]; exact hdown)
    rw [hsp] at hsince hto
    rw [hdel] at hto
    exact ⟨hstate, hcause, hattempts, hpieced, hsince, fun _ => hto hbooked⟩
  rw [show t = exchangeRecord i s from rfl]
  unfold exchangeRecord
  rcases h with h | h | h | h
  · rw [h] at htaken ⊢
    exact htaken s rfl rfl rfl
  · rw [h] at htaken ⊢
    exact htaken s rfl rfl rfl
  · rw [h] at htaken ⊢
    exact htaken (withdrawOrder i s) (by simp) (by simp) (by simp)
  · have hself : (enter i .exchange s).sp i = _ := enter_sp_self hi .exchange
    rw [touch_idle hc] at hself
    rw [h]
    dsimp only
    rw [hself]
    exact ⟨moved_state .., moved_cause .., (moved_attempts ..).trans (by simp), (moved_piecedAt ..).trans (by simp),
      (moved_down hdown rfl _ _).2, fun hne => absurd rfl hne⟩

/-! ### The records of the section -/

/-- The records of section `k` taken, with what follows in the piecing engine (R107). -/
def exchangeSection (k : Nat) (s : State) : State := piecingEvent (each (indicesOf k) exchangeRecord) s

theorem tabled_each_exchangeRecord (l : List Nat) {s : State} (hs : s.tabled) : (each l exchangeRecord s).tabled :=
  each_keepsProp State.tabled l exchangeRecord (fun i _ h => tabled_exchangeRecord h i) hs

theorem exchangeSection_outside {k i : Nat} {s : State} (hs : s.tabled)
    (h : ((each (indicesOf k) exchangeRecord s).sp i).state ≠ .waiting) (h' : ((each (indicesOf k) exchangeRecord s).sp i).state ≠ .queued) :
    (exchangeSection k s).sp i = (each (indicesOf k) exchangeRecord s).sp i :=
  piecingEvent_sp _ (tabled_each_exchangeRecord _ hs) i h h'

/-- A record of the section, once the records before it have been taken. -/
theorem each_exchangeRecord_mem {k i : Nat} {s : State} (hc : s.shift.closing = none) (hi : i ∈ indicesOf k) : ∃ u : State,
    u.sp i = s.sp i ∧ u.shift.closing = none ∧ u.del = s.del ∧
    (each (indicesOf k) exchangeRecord s).sp i = (exchangeRecord i u).sp i := by
  obtain ⟨before, hsame, hself⟩ := each_sp_mem (fun j u h => exchangeRecord_sp_ne h u) hi (nodup_indicesOf k) s
  exact ⟨_, hsame, each_closing (fun j _ hu => exchangeRecord_closing j hu) before hc,
    each_keeps State.del before exchangeRecord (fun j u => by simp) s, hself⟩

theorem exchangeSection_taken {k i : Nat} {s : State} (hs : s.tabled) (hc : s.shift.closing = none) (hi : i ∈ indicesOf k)
    (h : (s.sp i).state.exchangeable) :
    let t := exchangeSection k s
    (t.sp i).state = .exchange ∧ (t.sp i).cause = some .roving ∧ (t.sp i).attempts = 0 ∧ (t.sp i).piecedAt = none ∧
    (t.sp i).downSince = (s.sp i).downSince ∧ ((s.sp i).state ≠ .empty → (t.sp i).bookedTo = some s.del.count) := by
  intro t
  obtain ⟨u, hsame, huc, hdel, hself⟩ := each_exchangeRecord_mem hc hi
  have hin : s.hasSpindle i = true := hasSpindle_of_state (by rcases h with h | h | h | h <;> rw [h] <;> decide)
  have hbooked := bookedTo_of_isDown hs hin (by rcases h with h | h | h | h <;> rw [h] <;> rfl)
  have htaken := exchangeRecord_taken (i := i) huc (by rw [hsame]; exact hbooked) (by rw [hsame]; exact h)
  dsimp only at htaken
  rw [hsame, hdel, ← hself] at htaken
  have hstate := htaken.1
  rw [show t.sp i = _ from exchangeSection_outside hs (by rw [hstate]; decide) (by rw [hstate]; decide)]
  exact htaken

theorem exchangeSection_keeps {k i : Nat} {s : State} (hs : s.tabled) (hc : s.shift.closing = none) (hi : i ∈ indicesOf k)
    (h : ¬ (s.sp i).state.exchangeable) : (exchangeSection k s).sp i = s.sp i := by
  obtain ⟨u, hsame, -, -, hself⟩ := each_exchangeRecord_mem hc hi
  rw [exchangeRecord_keeps (by rw [hsame]; exact h), hsame] at hself
  rw [exchangeSection_outside hs, hself]
  · rw [hself]; exact fun hst => h (.inr (.inl hst))
  · rw [hself]; exact fun hst => h (.inl hst)

theorem exchangeSection_creel (k : Nat) (s : State) : (exchangeSection k s).creel = s.creel :=
  piecingEvent_creel _ (fun v => each_keeps State.creel _ _ (fun i u => by simp) v) s

/-! ### EXCHANGE_BEGIN -/

/-- The register, the timer and the slot's lapse time set by an accepted begin. -/
def exchangeRegistered (k n carrier : Nat) (s : State) : State :=
  pushLapse n (s.del.seconds + s.cfg.exchangeTime + s.cfg.bookingGrace) (modifySec k (fun x => { x with
    state := .exchanging, timer := some (s.del.seconds + s.cfg.exchangeTime), carrier := some carrier }) s)

theorem pushLapse_some {n lapse : Nat} {b : Booking} {s : State} (h : s.slot n = some b) :
    pushLapse n lapse s = setSlot n (some { b with lapse := max b.lapse lapse }) s := by
  unfold pushLapse
  rw [h]

theorem exchangeRegistered_effect {k n carrier : Nat} {b : Booking} {s : State} (hk : s.hasSection k = true) (hb : s.slot n = some b) :
    let t := exchangeRegistered k n carrier s
    t.sec k = { s.sec k with
      state := .exchanging, timer := some (s.del.seconds + s.cfg.exchangeTime), carrier := some carrier } ∧
    (∀ m, m ≠ k → t.sec m = s.sec m) ∧
    t.slot n = some { b with lapse := max b.lapse (s.del.seconds + s.cfg.exchangeTime + s.cfg.bookingGrace) } ∧
    onlyIn [.creel] s t := by
  intro t
  have hslot : (modifySec k (fun x => { x with
      state := .exchanging, timer := some (s.del.seconds + s.cfg.exchangeTime), carrier := some carrier }) s).slot n = some b := hb
  have ht : t = setSlot n (some { b with lapse := max b.lapse (s.del.seconds + s.cfg.exchangeTime + s.cfg.bookingGrace) })
      (modifySec k (fun x => { x with
        state := .exchanging, timer := some (s.del.seconds + s.cfg.exchangeTime), carrier := some carrier }) s) := pushLapse_some hslot
  have hblocks : onlyIn [.creel] s t := by
    have hframes : t.del = s.del ∧ t.mon = s.mon ∧ t.pie = s.pie ∧ t.doff = s.doff ∧ t.shift = s.shift ∧ t.line = s.line ∧
        t.frame = s.frame ∧ t.port = s.port ∧ t.draws = s.draws ∧ t.pending = s.pending := by simp [t, exchangeRegistered]
    exact ⟨by simp [hframes], fun c hc => by cases c <;> simp_all [Block.same]⟩
  refine ⟨?_, fun m hm => ?_, ?_, hblocks⟩
  · rw [ht, setSlot_sec, modifySec_sec_self hk]
  · rw [ht, setSlot_sec, modifySec_sec_ne hm]
  · rw [ht, slot_setSlot]

theorem exchangeSection_onlyIn (k : Nat) (s : State) :
    onlyIn [.mon, .pie, .shift, .line, .frame, .draws] s (exchangeSection k s) := by
  have hevent : ∀ f : State → State, (∀ u, (f u).del = u.del ∧ (f u).doff = u.doff ∧ (f u).port = u.port ∧
      (f u).pending = u.pending ∧ (f u).creel = u.creel) → onlyIn [.mon, .pie, .shift, .line, .frame, .draws] s (piecingEvent f s) :=
    fun f hf => ⟨by simp [piecingEvent, hf], fun b hb => by cases b <;> simp_all [Block.same, piecingEvent]⟩
  refine hevent (each (indicesOf k) exchangeRecord) fun u => ⟨?_, ?_, ?_, ?_, ?_⟩
  · exact each_keeps State.del _ _ (fun i v => by simp) u
  · exact each_keeps State.doff _ _ (fun i v => by simp) u
  · exact each_keeps State.port _ _ (fun i v => by simp) u
  · exact each_keeps State.pending _ _ (fun i v => by simp) u
  · exact each_keeps State.creel _ _ (fun i v => by simp) u

theorem leaveNormal_effect (k : Nat) (s : State) :
    let t := leaveNormal k s
    onlyIn [.creel, .line, .frame] s t ∧ (∀ n, t.slot n = s.slot n) ∧
    ∀ m, t.sec m = if m = k then { s.sec m with minutes := none, due := false } else s.sec m := by
  intro t
  have hunpredicted : onlyIn [.creel] s (modifySec k (fun x => { x with minutes := none, due := false }) s) :=
    ⟨rfl, fun b hb => by cases b <;> simp_all [Block.same]⟩
  exact ⟨onlyIn_seq hunpredicted (rebuildDue_onlyIn _) (by simp) (by simp), fun n => rebuildDue_slot _ n,
    fun m => (rebuildDue_sec _ m).trans (modifySec_sec rfl k m s)⟩

/-- An accepted begin: the section under exchange, its ends out of piecing, and its prediction gone. -/
theorem beginExchange_effect {k n carrier : Nat} {b : Booking} {s : State} (hs : s.tabled) (hc : s.shift.closing = none)
    (hk : s.hasSection k = true) (hb : s.slot n = some b) :
    let t := beginExchange k n carrier s
    onlyIn [.mon, .pie, .creel, .shift, .line, .frame, .draws] s t ∧
    t.sec k = { s.sec k with
      state := .exchanging, timer := some (s.del.seconds + s.cfg.exchangeTime), carrier := some carrier, minutes := none, due := false } ∧
    (∀ m, m ≠ k → t.sec m = s.sec m) ∧
    t.slot n = some { b with lapse := max b.lapse (s.del.seconds + s.cfg.exchangeTime + s.cfg.bookingGrace) } ∧
    ∀ i ∈ indicesOf k,
      ((s.sp i).state.exchangeable → (t.sp i).state = .exchange ∧ (t.sp i).cause = some .roving ∧ (t.sp i).attempts = 0 ∧
        (t.sp i).piecedAt = none ∧ (t.sp i).downSince = (s.sp i).downSince ∧
        ((s.sp i).state ≠ .empty → (t.sp i).bookedTo = some s.del.count)) ∧
      (¬ (s.sp i).state.exchangeable → t.sp i = s.sp i) := by
  intro t
  obtain ⟨hself, hother, hslot, hblocks⟩ := exchangeRegistered_effect (carrier := carrier) hk hb
  have htabled : (exchangeRegistered k n carrier s).tabled := tabled_pushLapse (tabled_modifySec hs _ _) _ _
  have ht : t = leaveNormal k (exchangeSection k (exchangeRegistered k n carrier s)) := rfl
  generalize exchangeRegistered k n carrier s = u at *
  obtain ⟨hleft, hslots, hsecs⟩ := leaveNormal_effect k (exchangeSection k u)
  rw [← ht] at hleft hslots hsecs
  have hcreel := exchangeSection_creel k u
  have hmon : u.mon = s.mon := hblocks.2 .mon (by simp)
  have hdel : u.del = s.del := hblocks.2 .del (by simp)
  have hshift : u.shift = s.shift := hblocks.2 .shift (by simp)
  have htmon : t.mon = (exchangeSection k u).mon := hleft.2 .mon (by simp)
  refine ⟨onlyIn_seq hblocks (onlyIn_seq (cs := [.mon, .pie, .creel, .shift, .line, .frame, .draws]) (exchangeSection_onlyIn k u) hleft
    (by simp) (by simp)) (by simp) (by simp), ?_, fun m hm => ?_, ?_, fun i hi => ⟨fun h => ?_, fun h => ?_⟩⟩
  · rw [hsecs, if_pos rfl, sec_of_creel hcreel, hself]
  · rw [hsecs, if_neg hm, sec_of_creel hcreel, hother m hm]
  · rw [hslots, slot_of_creel hcreel, hslot]
  · have htaken := exchangeSection_taken htabled (by rw [hshift]; exact hc) hi (by rw [sp_of_mon hmon]; exact h)
    dsimp only at htaken
    rw [sp_of_mon hmon, hdel] at htaken
    rw [sp_of_mon htmon]
    exact htaken
  · rw [sp_of_mon htmon, exchangeSection_keeps htabled (by rw [hshift]; exact hc) hi (by rw [sp_of_mon hmon]; exact h), sp_of_mon hmon]

theorem beginnable_iff {s : State} {k carrier n : Nat} : s.beginnable k carrier = some n ↔
    ∃ b, s.hasSection k = true ∧ (s.sec k).state = .normal ∧ (s.sec k).booking = some n ∧ s.slot n = some b ∧ b.carrier = carrier := by
  unfold State.beginnable
  by_cases hk : s.hasSection k = true ∧ (s.sec k).state = .normal
  · rw [if_pos hk]
    obtain hb | ⟨m, hb⟩ := Option.eq_none_or_eq_some (s.sec k).booking
    · simp [hb]
    · rw [hb]
      dsimp only
      split
      next hcarrier =>
        obtain ⟨b, hslot, hby⟩ := Option.map_eq_some_iff.1 hcarrier
        refine ⟨fun h => ?_, fun ⟨b, _, _, h, _⟩ => h⟩
        cases h
        exact ⟨b, hk.1, hk.2, rfl, hslot, hby⟩
      next hcarrier =>
        refine ⟨fun h => by simp at h, fun ⟨b, _, _, h, hslot, hby⟩ => ?_⟩
        cases h
        exact absurd (Option.map_eq_some_iff.2 ⟨b, hslot, hby⟩) hcarrier
  · rw [if_neg hk]
    exact ⟨fun h => by simp at h, fun ⟨b, h, hstate, _⟩ => absurd ⟨h, hstate⟩ hk⟩

theorem takeExchangeBegin_some {t : Telegram} {n : Nat} {s : State} (h : s.beginnable (t.num 0 1) t.source = some n) :
    takeExchangeBegin t s = beginExchange (t.num 0 1) n t.source s := by
  unfold takeExchangeBegin
  rw [h]

theorem takeExchangeBegin_none {t : Telegram} {s : State} (h : s.beginnable (t.num 0 1) t.source = none) :
    takeExchangeBegin t s = strayCarrier s := by
  unfold takeExchangeBegin
  rw [h]

/-- Settles O33. -/
theorem exchangeBeginTakesTheSection : Obligations.ExchangeBeginTakesTheSection := by
  intro s r rest hw hs hc hrx hkind k carrier begun
  have hrow : exec .exchangeBegin s = .next (takeExchangeBegin r.tel (s.setRx rest)) := by
    have hexec : exec .exchangeBegin s = .next (handOver .exchangeBegin takeExchangeBegin s) := inRunning_works hw _
    rw [hexec, handOver_takes hrx hkind]
  rw [hrow]
  refine ⟨fun n b hbegun => ?_, fun hnone => ?_⟩
  · obtain ⟨hk, hnormal, hbooking, hslot, hby⟩ := hbegun
    have htabled : (s.setRx rest).tabled := SameTables.tabled (s := s) ⟨rfl, rfl, rfl, rfl, fun _ => rfl, fun _ => rfl, rfl⟩ hs
    rw [takeExchangeBegin_some ((beginnable_iff (s := s.setRx rest)).2 ⟨b, hk, hnormal, hbooking, hslot, hby⟩)]
    obtain ⟨hblocks, hself, hother, hkept, hrecords⟩ :=
      beginExchange_effect (s := s.setRx rest) (k := k) (carrier := carrier) htabled hc hk hslot
    refine ⟨_, rfl, onlyIn_seq (setRx_onlyIn rest s) hblocks (by simp) (by simp), hself, hother, hkept, fun i hlo hhi => ?_⟩
    have hi : i ∈ indicesOf k := (mem_indicesOf (hasSection_iff.1 hk).1).2 ⟨hlo, hhi⟩
    obtain ⟨htaken, hkeeps⟩ := hrecords i hi
    exact ⟨htaken, fun hq hwait ho he => hkeeps fun h => by
      obtain h | h | h | h := h
      · exact hq h
      · exact hwait h
      · exact ho h
      · exact he h⟩
  · have hbeginnable : (s.setRx rest).beginnable (r.tel.num 0 1) r.tel.source = none := by
      obtain h | ⟨n, h⟩ := Option.eq_none_or_eq_some ((s.setRx rest).beginnable (r.tel.num 0 1) r.tel.source)
      · exact h
      · obtain ⟨b, hb⟩ := beginnable_iff.1 h
        exact absurd hb (hnone n b)
    rw [takeExchangeBegin_none hbeginnable]
    rfl

end Sys2Proof.Machine
end

section
/-! PROOFS. Fresh breaks of an ended exchange, and the margin check of a whole section (R92, R109). -/

namespace Sys2Proof.Machine

/-! ### Breaks counted in the last segment (R145) -/

/-- The shift in which `n` more breaks have been counted. -/
def Shift.broken (n : Nat) (sh : Shift) : Shift :=
  { sh with segments := modifyLast (fun g => { g with breaks := g.breaksAfter n }) sh.segments }

theorem modifyLast_comp {α : Type} (f f' : α → α) (l : List α) : modifyLast f (modifyLast f' l) = modifyLast (fun x => f (f' x)) l := by
  obtain rfl | ⟨first, g, rfl⟩ := List.eq_nil_or_concat' l
  · rfl
  · simp only [modifyLast_append]

theorem modifyLast_id {α : Type} (l : List α) : modifyLast (fun x => x) l = l := by
  obtain rfl | ⟨first, g, rfl⟩ := List.eq_nil_or_concat' l
  · rfl
  · rw [modifyLast_append]

theorem Segment.breaksAfter_succ (g : Segment) (n : Nat) : min 65535 (g.breaksAfter n + 1) = g.breaksAfter (n + 1) := by
  unfold Segment.breaksAfter
  split
  · next h => subst h; simp
  · simp only [Nat.succ_ne_zero, if_false]
    omega

theorem Shift.broken_zero (sh : Shift) : sh.broken 0 = sh :=
  congrArg (fun l => { sh with segments := l }) (modifyLast_id sh.segments)

/-- Losses booked before or after the breaks are counted come to the same. -/
theorem Shift.book_broken (c : Option Cause) (d n : Nat) (sh : Shift) : (sh.broken n).book c d = (sh.book c d).broken n := by
  cases c with
  | none => rfl
  | some c =>
    simp only [Shift.book_some, Shift.broken, modifyLast_comp, Segment.book_eq, Segment.breaksAfter]

theorem countEvent_broken {n : Nat} {s : State} {sh : Shift} (h : s.shift.opened = sh.broken n) :
    (countEvent .brk s).shift.opened = sh.broken (n + 1) := by
  show { s.shift.opened with segments := modifyLast (Segment.countOne .brk) s.shift.opened.segments } = _
  rw [h]
  simp only [Shift.broken, modifyLast_comp, Segment.countOne_eq, if_true, reduceCtorEq, if_false]
  congr 2
  funext g
  exact congrArg (fun n => { g with breaks := n }) (g.breaksAfter_succ n)

theorem Shift.book_nothing (c : Cause) (sh : Shift) : sh.book (some c) 0 = sh := by
  rw [Shift.book_some, show Segment.book c 0 = fun g => g from funext (Segment.book_zero c), modifyLast_id]

/-! ### One fresh break (R109) -/

/-- The record `r'` that a fresh break at a second and a count has made of `r`. -/
structure FreshMade (now count : Nat) (r r' : Spindle) : Prop where
  piecing : r'.state.inPiecing
  attempts : r'.attempts = 0
  unpieced : r'.piecedAt = none
  downSince : r'.downSince = some now
  bookedTo : r'.bookedTo = some count
  shiftBreaks : r'.shiftBreaks = r.shiftBreaks
  lost : r.bookedTo = some count → r.lostSinceBase = 0 → r'.lostSinceBase = 0

theorem FreshMade.kept {now count : Nat} {r r' r'' : Spindle} (h : FreshMade now count r r') (h' : PlaceKept r' r'') :
    FreshMade now count r r'' :=
  ⟨h'.stays h.piecing, h'.attempts.trans h.attempts, h'.unpieced h.unpieced, h'.downSince.trans h.downSince,
    h'.bookedTo.trans h.bookedTo, h'.shiftBreaks.trans h.shiftBreaks, fun hto hzero => h'.lost.trans (h.lost hto hzero)⟩

/-- The record whose age restarts. -/
def Spindle.restarted (now : Nat) (r : Spindle) : Spindle := { r with downSince := some now, doffStart := false }

/-- The state in which a fresh break is booked and counted, before its placement. -/
def State.freshCounted (i : Nat) (s : State) : State :=
  countEvent .brk (modifySp i (Spindle.restarted s.del.seconds) (book i s))

theorem freshBreak_eq (i : Nat) (s : State) : freshBreak i s = place .reload i (s.freshCounted i) := by
  have hnow : (book i s).del = s.del := by simp
  unfold freshBreak State.freshCounted Spindle.restarted State.now
  dsimp only
  rw [hnow]

theorem lose_lost_zero {r : Spindle} (c : Option Cause) (h : r.lostSinceBase = 0) : (r.lose c 0).lostSinceBase = 0 := by
  cases c <;> simp [Spindle.lose, addCapped, h]

theorem freshBreak_made {i : Nat} {s : State} (hs : s.tabled) (hc : s.shift.closing = none)
    (hdown : (s.sp i).state.isDown = true) :
    let t := freshBreak i s
    t.tabled ∧ t.shift.closing = none ∧ FreshMade s.del.seconds s.del.count (s.sp i) (t.sp i) ∧
    (∀ j, j ≠ i → t.sp j = s.sp j) ∧ t.shift = (countEvent .brk (book i s)).shift := by
  intro t
  have hi : s.hasSpindle i = true := hasSpindle_of_state fun h => by rw [h] at hdown; exact absurd hdown (by decide)
  obtain ⟨b, hb⟩ := Option.isSome_iff_exists.1 (bookedTo_of_isDown hs hi hdown)
  have hbooked := book_self hi hc
  rw [hb] at hbooked
  dsimp only at hbooked
  have hi' : (book i s).hasSpindle i = true := by simpa using hi
  have hw : (s.freshCounted i).sp i = ((book i s).sp i).restarted s.del.seconds := modifySp_sp_self (s := book i s) hi' _
  have hwother : ∀ j, j ≠ i → (s.freshCounted i).sp j = s.sp j := fun j hj =>
    (modifySp_sp_ne (s := book i s) hj.symm _).trans (book_sp_ne hj.symm s)
  have hwshift : (s.freshCounted i).shift = (countEvent .brk (book i s)).shift := rfl
  have hwi : (s.freshCounted i).hasSpindle i = true := by simpa [State.freshCounted] using hi
  have hwc : (s.freshCounted i).shift.closing = none := by rw [hwshift]; exact book_closing i hc
  have ht : t = joinQueue i (setSp i (((s.freshCounted i).sp i).placed .reload) (s.freshCounted i)) :=
    (freshBreak_eq i s).trans (place_joins hwc fun h => by cases h.1)
  generalize s.freshCounted i = w at *
  have hplaced : (setSp i ((w.sp i).placed .reload) w).sp i = (w.sp i).placed .reload :=
    sp_setSp_self i _ w (range_of_has hwi).1 (range_of_has hwi).2
  have hpi : (setSp i ((w.sp i).placed .reload) w).hasSpindle i = true := by simpa using hwi
  have hlost := joinQueue_self hpi hwc
  obtain ⟨hstate, -, hattempts, hbreaks, -, -, hpieced, hsince, -⟩ := joinQueue_effect hpi hwc
  rw [← ht] at hlost hstate hattempts hbreaks hpieced hsince
  rw [hplaced, hw, hbooked] at hlost hattempts hbreaks hpieced hsince
  obtain ⟨hsince, hto⟩ := hsince (by simpa [Spindle.placed, Spindle.restarted] using hdown)
  refine ⟨tabled_freshBreak hs i hi hdown, ?_, ?_, fun j hj => ?_, ?_⟩
  · rw [ht, joinQueue_shift_idle (s := setSp i ((w.sp i).placed .reload) w) hwc]
    exact hwc
  · refine ⟨hstate.elim .inl (fun h => .inr (.inl h)), hattempts, hpieced rfl, hsince, hto, ?_, fun hcount hzero => ?_⟩
    · rw [hbreaks]
      simp [Spindle.placed, Spindle.restarted]
    · rw [hb] at hcount
      cases hcount
      rw [hlost]
      simp only [State.count, Nat.sub_self]
      split <;> rw [moved_lost] <;> exact lose_lost_zero _ hzero
  · rw [ht, joinQueue_ne hj.symm, sp_setSp_ne i j _ w hj.symm]
    exact hwother j hj
  · rw [ht, joinQueue_shift_idle (s := setSp i ((w.sp i).placed .reload) w) hwc]
    exact hwshift

/-! ### Fresh breaks over the records of a section -/

/-- Which of the records of `l` are made fresh breaks. -/
def State.freshOf (which : SpState → Bool) (l : List Nat) (s : State) : List Nat := l.filter fun i => which (s.sp i).state

/-- What making fresh breaks of the records of `l` does. -/
structure Freshened (which : SpState → Bool) (l : List Nat) (s t : State) : Prop where
  tabled : t.tabled
  closing : t.shift.closing = none
  del : t.del = s.del
  creel : t.creel = s.creel
  port : t.port = s.port
  made : ∀ j ∈ l, which (s.sp j).state = true → FreshMade s.del.seconds s.del.count (s.sp j) (t.sp j)
  kept : ∀ j, (j ∈ l → which (s.sp j).state = false) → PlaceKept (s.sp j) (t.sp j)
  still : ∀ j, (j ∈ l → which (s.sp j).state = false) → (s.sp j).state ≠ .waiting → (s.sp j).state ≠ .queued → t.sp j = s.sp j
  shift : t.shift = { (each (s.freshOf which l) book s).shift with
    opened := (each (s.freshOf which l) book s).shift.opened.broken (s.freshOf which l).length }

theorem each_append (l l' : List Nat) (f : Nat → State → State) (s : State) : each (l ++ l') f s = each l' f (each l f s) :=
  List.foldl_append ..

theorem each_book_closing (l : List Nat) {s : State} (hc : s.shift.closing = none) : (each l book s).shift.closing = none :=
  each_keepsProp (fun u => u.shift.closing = none) l book (fun i _ hu => book_closing i hu) hc

theorem each_book_del (l : List Nat) (s : State) : (each l book s).del = s.del :=
  each_keeps State.del l book (fun i u => (book_frame i u).1) s

/-- Two states that differ by counted breaks still do after one more record has been booked and counted. -/
theorem book_shift_broken {i n : Nat} {r : Spindle} {t u : State} (hc : t.shift.closing = none) (hu : u.shift.closing = none)
    (hdel : t.del = u.del) (ht : t.sp i = r) (hur : u.sp i = r) (hr : r.bookedTo.isSome = true)
    (h : t.shift = { u.shift with opened := u.shift.opened.broken n }) :
    (countEvent .brk (book i t)).shift = { (book i u).shift with opened := (book i u).shift.opened.broken (n + 1) } := by
  obtain ⟨b, hb⟩ := Option.isSome_iff_exists.1 hr
  have hbt := book_shift_idle hc (ht ▸ hb)
  have hbu := book_shift_idle hu (hur ▸ hb)
  have hopened : (book i t).shift.opened = (book i u).shift.opened.broken n := by
    rw [hbt, hbu, ht, hur, hdel, h]
    exact Shift.book_broken ..
  have hcounted := countEvent_broken hopened
  have hrest : (countEvent .brk (book i t)).shift =
      { (book i t).shift with opened := (countEvent .brk (book i t)).shift.opened } := rfl
  rw [hrest, hcounted, hbt, hbu, h]

theorem freshIf_freshened {which : SpState → Bool} (hwhich : ∀ st, which st = true → st = .exchange ∨ st = .empty) (l : List Nat)
    (hnodup : l.Nodup) {s : State} (hs : s.tabled) (hc : s.shift.closing = none) : Freshened which l s (each l (freshIf which) s) := by
  have hdown : ∀ st, which st = true → st.isDown = true := fun st h => by rcases hwhich st h with rfl | rfl <;> rfl
  induction l using List.reverseRecOn with
  | nil => exact ⟨hs, hc, rfl, rfl, rfl, by simp, fun _ _ => .refl _, fun _ _ _ _ => rfl, by
      rw [show (s.freshOf which []).length = 0 from rfl, Shift.broken_zero]
      rfl⟩
  | append_singleton l i ih =>
    obtain ⟨hl, -, hcross⟩ := List.nodup_append.1 hnodup
    have hil : i ∉ l := fun h => hcross i h i (List.mem_singleton_self i) rfl
    have hbefore := ih hl
    have hlast : each (l ++ [i]) (freshIf which) s = freshIf which i (each l (freshIf which) s) := each_append ..
    rw [hlast]
    generalize each l (freshIf which) s = t at hbefore
    by_cases hsel : which (s.sp i).state = true
    · have hstate := hwhich _ hsel
      have hsame : t.sp i = s.sp i := hbefore.still i (fun h => absurd h hil) (by rcases hstate with h | h <;> rw [h] <;> decide)
        (by rcases hstate with h | h <;> rw [h] <;> decide)
      obtain ⟨hmade, hmadec, hfresh, hothers, hmadeshift⟩ := freshBreak_made hbefore.tabled hbefore.closing (i := i)
        (by rw [hsame]; exact hdown _ hsel)
      obtain ⟨b, hb⟩ := Option.isSome_iff_exists.1 (bookedTo_of_isDown hbefore.tabled (i := i)
        (hasSpindle_of_state (by rw [hsame]; rcases hstate with h | h <;> rw [h] <;> decide)) (by rw [hsame]; exact hdown _ hsel))
      have ht : freshIf which i t = piecingEvent (freshBreak i) t := if_pos (by rw [hsame]; exact hsel)
      have hplaces := (keepsPlaces_piecingEvent hmade hmadec).2
      have hstill := piecingEvent_sp (freshBreak i) hmade
      rw [ht]
      have hof : s.freshOf which (l ++ [i]) = s.freshOf which l ++ [i] := by simp [State.freshOf, hsel]
      refine ⟨tabled_piecingEvent _ hmade, piecingEvent_closing hmadec, ?_, ?_, ?_, fun j hj hjsel => ?_, fun j hj => ?_,
        fun j hj hjw hjq => ?_, ?_⟩
      · rw [← hbefore.del, ← ht]; simp
      · rw [← hbefore.creel, ← ht]; simp
      · rw [← hbefore.port, ← ht]; simp
      · by_cases hji : j = i
        · subst hji
          rw [hbefore.del, hsame] at hfresh
          exact hfresh.kept (hplaces j)
        · have hjl : j ∈ l := (List.mem_append.1 hj).resolve_right (by simpa using hji)
          exact (hbefore.made j hjl hjsel).kept ((PlaceKept.of_eq (hothers j hji)).trans (hplaces j))
      · have hji : j ≠ i := fun h => by
          subst h
          exact absurd (hj (by simp)) (by simp [hsel])
        exact (hbefore.kept j fun h => hj (List.mem_append_left _ h)).trans ((PlaceKept.of_eq (hothers j hji)).trans (hplaces j))
      · have hji : j ≠ i := fun h => by
          subst h
          exact absurd (hj (by simp)) (by simp [hsel])
        have hjt := hbefore.still j (fun h => hj (List.mem_append_left _ h)) hjw hjq
        have hjf := (hothers j hji).trans hjt
        exact (hstill j (by rw [hjf]; exact hjw) (by rw [hjf]; exact hjq)).trans hjf
      · rw [piecingEvent_shift_idle hmadec, hmadeshift, hof, each_append, List.length_append]
        have hunotMem : i ∉ s.freshOf which l := fun h => hil (List.mem_filter.1 h).1
        refine book_shift_broken hbefore.closing (each_book_closing _ hc) (hbefore.del.trans (each_book_del ..).symm) hsame
          (each_sp_notMem (fun _ u h => book_sp_ne h u) hunotMem s) ?_ hbefore.shift
        rw [← hsame, hb]
        rfl
    · have hsel' : which (s.sp i).state = false := Bool.eq_false_iff.2 hsel
      have hof : s.freshOf which (l ++ [i]) = s.freshOf which l := by simp [State.freshOf, hsel']
      have hsame : which (t.sp i).state = false := by
        have hkept := hbefore.kept i fun h => absurd h hil
        by_cases hplace : (s.sp i).state.inPiecing
        · refine Bool.eq_false_iff.2 fun h => ?_
          rcases hwhich _ h with h | h <;> rcases hkept.stays hplace with h' | h' | h' <;> rw [h] at h' <;> cases h'
        · rw [hkept.outside hplace]
          exact hsel'
      have ht : freshIf which i t = t := if_neg (by rw [hsame]; decide)
      rw [ht]
      have hin : ∀ j, (j ∈ l ++ [i] → which (s.sp j).state = false) → j ∈ l → which (s.sp j).state = false :=
        fun j hj h => hj (List.mem_append_left _ h)
      refine ⟨hbefore.tabled, hbefore.closing, hbefore.del, hbefore.creel, hbefore.port, fun j hj hjsel => ?_,
        fun j hj => hbefore.kept j (hin j hj), fun j hj => hbefore.still j (hin j hj), hof ▸ hbefore.shift⟩
      refine hbefore.made j ((List.mem_append.1 hj).resolve_right fun h => ?_) hjsel
      rw [List.mem_singleton.1 h, hsel'] at hjsel
      cases hjsel

end Sys2Proof.Machine
end

section
/-! PROOFS. The margin check over a whole section, and an ended exchange (R92, R93, R108, R109, R113). -/

namespace Sys2Proof.Machine

/-! ### The margin check over a list of records -/

/-- Record `i` is taken by the margin check: WAITING or QUEUED with its roving at the margin. -/
def State.marginTakes (s : State) (i : Nat) : Prop :=
  ((s.sp i).state = .waiting ∨ (s.sp i).state = .queued) ∧ ∃ left, s.remaining i = some left ∧ s.atMargin left = true

theorem marginOne_spared {i : Nat} {s : State} (h : ¬ s.marginTakes i) : marginOne i s = s :=
  marginOne_keeps fun hstate left hleft => Bool.eq_false_iff.2 fun hm => h ⟨hstate, left, hleft, hm⟩

theorem marginTakes_congr {i : Nat} {s t : State} (hsp : t.sp i = s.sp i) (hsec : t.sec (stripOf i) = s.sec (stripOf i))
    (hdel : t.del = s.del) (hport : t.port = s.port) : t.marginTakes i ↔ s.marginTakes i := by
  unfold State.marginTakes State.atMargin
  rw [hsp, remaining_congr hsp hsec hdel hport, cfg_of_port hport]

/-- What the margin check of the records of `l` does. -/
structure Margined (l : List Nat) (s t : State) : Prop where
  tabled : t.tabled
  closing : t.shift.closing = none
  del : t.del = s.del
  creel : t.creel = s.creel
  port : t.port = s.port
  taken : ∀ j ∈ l, s.marginTakes j → (t.sp j).state = .empty ∧ (t.sp j).cause = some .roving ∧
    ((s.sp j).bookedTo = some s.del.count → (s.sp j).lostSinceBase = 0 → (t.sp j).lostSinceBase = 0)
  kept : ∀ j, (j ∈ l → ¬ s.marginTakes j) → t.sp j = s.sp j
  shift : ∃ d, t.shift = { s.shift with opened := s.shift.opened.book (some .brk) d } ∧
    ((∀ i ∈ l, s.marginTakes i → (s.sp i).bookedTo = some s.del.count) → d = 0)

theorem Shift.book_add (c : Cause) (d d' : Nat) (sh : Shift) : (sh.book (some c) d).book (some c) d' = sh.book (some c) (d + d') := by
  simp only [Shift.book_some, modifyLast_comp]
  congr 2
  funext g
  cases c <;> simp [Segment.book, Nat.add_assoc]

theorem marginOne_margined {i : Nat} {s : State} (hs : s.tabled) (hc : s.shift.closing = none) : Margined [i] s (marginOne i s) := by
  by_cases hyes : s.marginTakes i
  · obtain ⟨hstate, left, hleft, hmargin⟩ := hyes
    have hdown : (s.sp i).state.isDown = true := by rcases hstate with h | h <;> rw [h] <;> rfl
    have hi : s.hasSpindle i = true := hasSpindle_of_state (by rcases hstate with h | h <;> rw [h] <;> decide)
    obtain ⟨b, hb⟩ := Option.isSome_iff_exists.1 (bookedTo_of_isDown hs hi hdown)
    have hcause : (s.sp i).cause = some .brk := by
      obtain ⟨-, hsound, -⟩ := hs
      rw [(hsound _ (sp_mem hi)).1]
      rcases hstate with h | h <;> rw [h] <;> rfl
    have ht := marginOne_taken hstate hleft hmargin
    have hsp : ∀ j, (marginOne i s).sp j = (bookEnter i .empty s).sp j := fun j => by rw [ht]; exact sp_of_mon (by simp) j
    obtain ⟨hempty, hroving, -⟩ := bookEnter_taken hi hc (.inr rfl) hdown
    refine ⟨tabled_marginOne hs i, marginOne_closing i hc, by simp, by simp, by simp, fun j hj hjm => ?_, fun j hj => ?_,
      s.del.count - b, ?_, fun hall => ?_⟩
    · rw [List.mem_singleton.1 hj, hsp]
      refine ⟨hempty, hroving, fun hcount hzero => ?_⟩
      rw [hb] at hcount
      cases hcount
      rw [bookEnter_self hi hc, moved_lost, book_self hi hc, hb]
      simp only [State.count, Nat.sub_self]
      exact lose_lost_zero _ hzero
    · have hji : i ≠ j := fun h => hj (by simp [h]) (h ▸ ⟨hstate, left, hleft, hmargin⟩)
      exact (hsp j).trans (bookEnter_sp_ne hji _ _)
    · rw [ht, emptyAlert_shift, bookEnter_shift_idle hc, book_shift_idle hc hb, hcause]
    · have hcount := hall i (List.mem_singleton_self i) ⟨hstate, left, hleft, hmargin⟩
      rw [hb] at hcount
      cases hcount
      exact Nat.sub_self _
  · rw [marginOne_spared hyes]
    exact ⟨hs, hc, rfl, rfl, rfl, fun j hj h => absurd (List.mem_singleton.1 hj ▸ h) hyes, fun _ _ => rfl, 0, by
      rw [Shift.book_nothing], fun _ => rfl⟩

theorem each_marginOne_margined (l : List Nat) (hnodup : l.Nodup) {s : State} (hs : s.tabled) (hc : s.shift.closing = none) :
    Margined l s (each l marginOne s) := by
  induction l generalizing s with
  | nil => exact ⟨hs, hc, rfl, rfl, rfl, by simp, fun _ _ => rfl, 0, by rw [Shift.book_nothing]; rfl, fun _ => rfl⟩
  | cons i l ih =>
    obtain ⟨hi, hl⟩ := List.nodup_cons.1 hnodup
    have hfirst := marginOne_margined (i := i) hs hc
    have hrest := ih hl hfirst.tabled hfirst.closing
    have hlast : each (i :: l) marginOne s = each l marginOne (marginOne i s) := rfl
    rw [hlast]
    generalize marginOne i s = u at *
    generalize each l marginOne u = t at *
    have hsame : ∀ j, j ≠ i → u.sp j = s.sp j := fun j hj => hfirst.kept j fun h => absurd (List.mem_singleton.1 h) hj
    have htakes : ∀ j, j ≠ i → (u.marginTakes j ↔ s.marginTakes j) := fun j hj =>
      marginTakes_congr (hsame j hj) (sec_of_creel hfirst.creel _) hfirst.del hfirst.port
    have hne : ∀ j ∈ l, j ≠ i := fun j hj h => hi (h ▸ hj)
    refine ⟨hrest.tabled, hrest.closing, hrest.del.trans hfirst.del, hrest.creel.trans hfirst.creel, hrest.port.trans hfirst.port,
      fun j hj hm => ?_, fun j hj => ?_, ?_⟩
    · by_cases hji : j = i
      · subst hji
        rw [hrest.kept j fun h => absurd h hi]
        exact hfirst.taken j (List.mem_singleton_self j) hm
      · have hjl : j ∈ l := (List.mem_cons.1 hj).resolve_left hji
        have htaken := hrest.taken j hjl ((htakes j hji).2 hm)
        rw [hsame j hji, hfirst.del] at htaken
        exact htaken
    · refine (hrest.kept j fun h hm => ?_).trans (hfirst.kept j fun h => hj (List.mem_singleton.1 h ▸ List.mem_cons_self))
      exact hj (List.mem_cons_of_mem _ h) ((htakes j (hne j h)).1 hm)
    · obtain ⟨d, hd, hzero⟩ := hfirst.shift
      obtain ⟨d', hd', hzero'⟩ := hrest.shift
      refine ⟨d + d', by rw [hd', hd, ← Shift.book_add], fun hall => ?_⟩
      rw [hzero fun j hj hm => List.mem_singleton.1 hj ▸ hall i List.mem_cons_self (List.mem_singleton.1 hj ▸ hm),
        hzero' fun j hj hm => by
          rw [hsame j (hne j hj), hfirst.del]
          exact hall j (List.mem_cons_of_mem _ hj) ((htakes j (hne j hj)).1 hm)]

/-! ### A single-section recompute of a NORMAL section (R93) -/

/-- What a single-section recompute does to the records, the other sections and the shift counter. -/
structure Remargined (k : Nat) (s t : State) : Prop where
  tabled : t.tabled
  closing : t.shift.closing = none
  slot : ∀ n, t.slot n = s.slot n
  sec : ∀ m, m ≠ k → t.sec m = s.sec m
  self : t.sec k = { s.sec k with minutes := (t.sec k).minutes, due := (t.sec k).due }
  taken : ∀ j ∈ indicesOf k, s.marginTakes j → (t.sp j).state = .empty ∧ (t.sp j).cause = some .roving ∧
    ((s.sp j).bookedTo = some s.del.count → (s.sp j).lostSinceBase = 0 → (t.sp j).lostSinceBase = 0)
  kept : ∀ j, (j ∈ indicesOf k → ¬ s.marginTakes j) → PlaceKept (s.sp j) (t.sp j)
  still : ∀ j, (s.sp j).state ≠ .waiting → (s.sp j).state ≠ .queued → t.sp j = s.sp j
  shift : ∃ d, t.shift = { s.shift with opened := s.shift.opened.book (some .brk) d } ∧
    ((∀ i ∈ indicesOf k, s.marginTakes i → (s.sp i).bookedTo = some s.del.count) → d = 0)

theorem recomputeOne_remargined {k : Nat} {s : State} (hs : s.tabled) (hc : s.shift.closing = none) (hk : s.hasSection k = true)
    (hnormal : (s.sec k).state = .normal) : Remargined k s (recomputeOne k s) := by
  have hmargined := each_marginOne_margined (indicesOf k) (nodup_indicesOf k) hs hc
  have hsection : marginSection k s = piecingEvent (each (indicesOf k) marginOne) s := rfl
  have hsectionCreel := marginSection_creel k s
  have hplaces := (keepsPlaces_piecingEvent (f := each (indicesOf k) marginOne) hmargined.tabled hmargined.closing).2
  have hstill := piecingEvent_sp (each (indicesOf k) marginOne) hmargined.tabled
  have hshift := piecingEvent_shift_idle (f := each (indicesOf k) marginOne) hmargined.closing
  rw [← hsection] at hplaces hstill hshift
  obtain ⟨hmon, hblockShift, -⟩ := recomputeSection_blocks hnormal
  have hsecs : ∀ m, m ≠ k → (recomputeSection k s).sec m = s.sec m := fun m hm => by
    rw [recomputeSection_normal hnormal, modifySec_sec_ne hm]
    exact sec_of_creel hsectionCreel m
  have hself : ∃ minutes due, (recomputeSection k s).sec k = { s.sec k with minutes := minutes, due := due } := by
    rw [recomputeSection_normal hnormal, modifySec_sec_self ((hasSection_of_sections (by rw [hsectionCreel]) k).trans hk)]
    exact ⟨_, _, by rw [sec_of_creel hsectionCreel k]⟩
  have hslot : ∀ n, (recomputeSection k s).slot n = s.slot n := fun n => by
    rw [recomputeSection_normal hnormal, modifySec_slot]
    exact slot_of_creel hsectionCreel n
  have htabled := tabled_recomputeOne hs k
  have hsp : ∀ j, (recomputeOne k s).sp j = (marginSection k s).sp j := fun j => by
    rw [recomputeOne]
    exact (sp_of_mon (by simp) j).trans (sp_of_mon hmon j)
  have htshift : (recomputeOne k s).shift = (each (indicesOf k) marginOne s).shift := by
    rw [recomputeOne, (rebuildDue_frame _).2.2.2.2.1, hblockShift, hshift]
  have hrebuiltSec : ∀ m, (recomputeOne k s).sec m = (recomputeSection k s).sec m := rebuildDue_sec _
  have hrebuiltSlot : ∀ n, (recomputeOne k s).slot n = (recomputeSection k s).slot n := rebuildDue_slot _
  generalize recomputeOne k s = t at *
  generalize recomputeSection k s = v at *
  generalize marginSection k s = w at *
  generalize each (indicesOf k) marginOne s = u at *
  refine ⟨htabled, by rw [htshift]; exact hmargined.closing, fun n => (hrebuiltSlot n).trans (hslot n),
    fun m hm => (hrebuiltSec m).trans (hsecs m hm), ?_, fun j hj hm => ?_, fun j hj => ?_, fun j hw hq => ?_, ?_⟩
  · obtain ⟨minutes, due, hv⟩ := hself
    rw [hrebuiltSec, hv]
  · obtain ⟨hempty, hcause, hlost⟩ := hmargined.taken j hj hm
    rw [hsp, hstill j (by rw [hempty]; decide) (by rw [hempty]; decide)]
    exact ⟨hempty, hcause, hlost⟩
  · rw [hsp]
    exact (PlaceKept.of_eq (hmargined.kept j hj)).trans (hplaces j)
  · have hju := hmargined.kept j fun _ hm => hm.1.elim hw hq
    rw [hsp, hstill j (by rw [hju]; exact hw) (by rw [hju]; exact hq), hju]
  · obtain ⟨d, hd, hzero⟩ := hmargined.shift
    exact ⟨d, htshift.trans hd, hzero⟩

end Sys2Proof.Machine
end

section
/-! PROOFS. An exchange that ends in a NORMAL section: loaded, or confirmed without a load (R87, R108, R109, R113). -/

namespace Sys2Proof.Machine

theorem hasSpindle_of_section {s : State} {k i : Nat} (hs : s.tabled) (hk : s.hasSection k = true) (hi : i ∈ indicesOf k) :
    s.hasSpindle i = true := by
  obtain ⟨hpos, hle⟩ := hasSection_iff.1 hk
  rw [mem_indicesOf hpos] at hi
  obtain ⟨hsized, -⟩ := hs
  unfold State.sized at hsized
  have hlength : i ≤ s.mon.spindles.length := by
    cases hcfg : s.port.config with
    | none =>
      rw [hcfg] at hsized
      obtain ⟨-, -, hsections⟩ := hsized
      simp [hsections] at hle
      omega
    | some c =>
      rw [hcfg] at hsized
      obtain ⟨hspindles, -, hsections⟩ := hsized
      omega
  simp only [State.hasSpindle, Bool.and_eq_true, decide_eq_true_eq]
  omega

/-! ### The section settled, its ends fresh, its minutes recorded anew -/

/-- Section `k` NORMAL, out of the exchange register and out of its booking. -/
def exchangeSettled (k : Nat) (s : State) : State := unbook k (settleSection k .normal s)

theorem exchangeSettled_onlyIn (k : Nat) (s : State) : onlyIn [.creel] s (exchangeSettled k s) :=
  ⟨by simp [exchangeSettled], fun b hb => by cases b <;> simp_all [Block.same, exchangeSettled]⟩

theorem exchangeSettled_effect {k : Nat} {s : State} (hs : s.tabled) (hk : s.hasSection k = true) :
    let t := exchangeSettled k s
    t.tabled ∧ t.hasSection k = true ∧ onlyIn [.creel] s t ∧ leftBooking k s t ∧
    t.sec k = { s.sec k with state := .normal, timer := none, carrier := none, booking := none } ∧
    ∀ m, m ≠ k → t.sec m = s.sec m := by
  intro t
  have hsettled : (settleSection k .normal s).sec k = { s.sec k with state := .normal, timer := none, carrier := none } :=
    modifySec_sec_self hk _
  refine ⟨tabled_unbook (tabled_settleSection hs k _) k, ?_, exchangeSettled_onlyIn k s, ?_, ?_, fun m hm => ?_⟩
  · exact (unbook_hasSection k k _).trans ((settleSection_hasSection k k _ s).trans hk)
  · exact leftBooking_of (s' := settleSection k .normal s) (unbook_leftBooking k _) (by rw [hsettled]) (fun _ => rfl) rfl (fun _ => rfl)
  · exact (unbook_sec k k _).trans (by rw [if_pos rfl, hsettled])
  · exact (unbook_sec k m _).trans ((if_neg hm).trans (modifySec_sec_ne hm _ s))

/-- The state in which the prediction of section `k` is gone. -/
def unpredicted (k : Nat) (s : State) : State := modifySec k (fun x => { x with minutes := none, due := false }) s

/-- The end of an exchange, once the load or nothing has gone before it. -/
def exchangeEnded (which : SpState → Bool) (k : Nat) (s : State) : State :=
  enterNormal k (each (indicesOf k) (freshIf which) (exchangeSettled k s))

/-- The state after the fresh breaks of an ended exchange. -/
def exchangeFresh (which : SpState → Bool) (k : Nat) (s : State) : State :=
  unpredicted k (each (indicesOf k) (freshIf which) (exchangeSettled k s))

/-- An ended exchange, stage by stage: what its fresh breaks leave, and what the recompute makes of that. -/
structure EndedBy (which : SpState → Bool) (k : Nat) (s w t : State) : Prop where
  tabled : w.tabled
  del : w.del = s.del
  port : w.port = s.port
  base : (w.sec k).base = (s.sec k).base
  made : ∀ j ∈ indicesOf k, which (s.sp j).state = true → FreshMade s.del.seconds s.del.count (s.sp j) (w.sp j)
  kept : ∀ j, (j ∈ indicesOf k → which (s.sp j).state = false) → PlaceKept (s.sp j) (w.sp j)
  still : ∀ j, (j ∈ indicesOf k → which (s.sp j).state = false) → (s.sp j).state ≠ .waiting → (s.sp j).state ≠ .queued →
    w.sp j = s.sp j
  shift : w.shift = { (each (s.freshOf which (indicesOf k)) book s).shift with
    opened := (each (s.freshOf which (indicesOf k)) book s).shift.opened.broken (s.freshOf which (indicesOf k)).length }
  margin : Remargined k w t
  state : (t.sec k).state = .normal
  timer : (t.sec k).timer = none
  carrier : (t.sec k).carrier = none
  base' : (t.sec k).base = (s.sec k).base
  booking : leftBooking k s t
  other : ∀ m, m ≠ k → t.sec m = s.sec m

/-- A booking reads and changes the records and the shift counter alone. -/
theorem book_congr {s t : State} (i : Nat) (hc : s.shift.closing = none) (hmon : t.mon = s.mon) (hshift : t.shift = s.shift)
    (hdel : t.del = s.del) : (book i t).mon = (book i s).mon ∧ (book i t).shift = (book i s).shift := by
  have hsp := sp_of_mon hmon i
  cases hb : (s.sp i).bookedTo with
  | none =>
    rw [book_none hb, book_none (by rw [hsp]; exact hb)]
    exact ⟨hmon, hshift⟩
  | some b =>
    rw [book_eq hc hb, book_eq (by rw [hshift]; exact hc) (by rw [hsp]; exact hb), hsp]
    refine ⟨?_, ?_⟩
    · simp only [setSp, State.count, hdel, hmon]
    · simp only [State.count, hdel, hshift]

theorem each_book_congr {s t : State} (l : List Nat) (hc : s.shift.closing = none) (hmon : t.mon = s.mon) (hshift : t.shift = s.shift)
    (hdel : t.del = s.del) : (each l book t).shift = (each l book s).shift := by
  induction l generalizing s t with
  | nil => exact hshift
  | cons i l ih =>
    obtain ⟨hmon', hshift'⟩ := book_congr i hc hmon hshift hdel
    have hdels : (book i t).del = (book i s).del := by simp [hdel]
    exact ih (book_closing i hc) hmon' hshift' hdels

theorem exchangeEnded_by {which : SpState → Bool} (hwhich : ∀ st, which st = true → st = .exchange ∨ st = .empty) {k : Nat} {s : State}
    (hs : s.tabled) (hc : s.shift.closing = none) (hk : s.hasSection k = true) :
    EndedBy which k s (exchangeFresh which k s) (exchangeEnded which k s) := by
  obtain ⟨hvt, hvk, hvblocks, hleft, hvself, hvother⟩ := exchangeSettled_effect hs hk
  have hvmon : (exchangeSettled k s).mon = s.mon := hvblocks.2 .mon (by simp)
  have hvshift : (exchangeSettled k s).shift = s.shift := hvblocks.2 .shift (by simp)
  have hvdel : (exchangeSettled k s).del = s.del := hvblocks.2 .del (by simp)
  have hvport : (exchangeSettled k s).port = s.port := hvblocks.2 .port (by simp)
  have hfreshened := freshIf_freshened hwhich (indicesOf k) (nodup_indicesOf k) hvt (by rw [hvshift]; exact hc)
  have hend : exchangeEnded which k s = recomputeOne k (exchangeFresh which k s) := rfl
  have hw : exchangeFresh which k s = unpredicted k (each (indicesOf k) (freshIf which) (exchangeSettled k s)) := rfl
  generalize exchangeFresh which k s = w at *
  generalize each (indicesOf k) (freshIf which) (exchangeSettled k s) = u at *
  have hu : ∀ m, u.sec m = (exchangeSettled k s).sec m := sec_of_creel hfreshened.creel
  have hwsec : ∀ m, w.sec m = if m = k then { u.sec m with minutes := none, due := false } else u.sec m := fun m => by
    rw [hw]; exact modifySec_sec rfl k m u
  have hwmon : w.mon = u.mon := by rw [hw]; rfl
  have hwshift : w.shift = u.shift := by rw [hw]; rfl
  have hwk : w.hasSection k = true := by
    rw [hw, unpredicted, modifySec_hasSection]
    exact (hasSection_of_sections (by rw [hfreshened.creel]) k).trans hvk
  have hwt : w.tabled := by rw [hw]; exact tabled_modifySec hfreshened.tabled _ _
  have hwself : w.sec k = { s.sec k with
      state := .normal, timer := none, carrier := none, booking := none, minutes := none, due := false } := by
    rw [hwsec, if_pos rfl, hu, hvself]
  have hwc : w.shift.closing = none := by rw [hwshift]; exact hfreshened.closing
  have hmargin := recomputeOne_remargined hwt hwc hwk (by rw [hwself])
  rw [hend]
  have hself := hmargin.self
  rw [hwself] at hself
  have hwsp : ∀ j, w.sp j = u.sp j := sp_of_mon hwmon
  have hvsp : ∀ j, (exchangeSettled k s).sp j = s.sp j := sp_of_mon hvmon
  have hof : (exchangeSettled k s).freshOf which (indicesOf k) = s.freshOf which (indicesOf k) := by
    unfold State.freshOf
    simp only [hvsp]
  refine ⟨hwt, by rw [hw]; exact hfreshened.del.trans hvdel, by rw [hw]; exact hfreshened.port.trans hvport, by rw [hwself],
    fun j hj hsel => ?_, fun j hj => ?_, fun j hj hjw hjq => ?_, ?_, hmargin, by rw [hself], by rw [hself], by rw [hself],
    by rw [hself], ?_, fun m hm => ?_⟩
  · have hmade := hfreshened.made j hj (by rw [hvsp]; exact hsel)
    rw [hvsp, hvdel] at hmade
    rw [hwsp]
    exact hmade
  · have hkept := hfreshened.kept j fun h => by rw [hvsp]; exact hj h
    rw [hvsp] at hkept
    rw [hwsp]
    exact hkept
  · have hstill := hfreshened.still j (fun h => by rw [hvsp]; exact hj h) (by rw [hvsp]; exact hjw) (by rw [hvsp]; exact hjq)
    rw [hwsp, hstill, hvsp]
  · rw [hwshift, hfreshened.shift, hof, each_book_congr _ hc hvmon hvshift hvdel]
  · refine leftBooking_of hleft rfl (fun _ => rfl) (by rw [hself, hvself]) fun n => ?_
    rw [hmargin.slot, hw, unpredicted, modifySec_slot]
    exact slot_of_creel hfreshened.creel n
  · rw [hmargin.sec m hm, hwsec, if_neg hm, hu, hvother m hm]

/-! ### What the stages make of a fresh end -/

theorem FreshMade.freshBroken {i : Nat} {r : Spindle} {s t : State} (ht : t.tabled)
    (h : FreshMade s.del.seconds s.del.count r (t.sp i)) (hr : r.shiftBreaks = (s.sp i).shiftBreaks) : freshBroken i s t := by
  have hin : t.hasSpindle i = true := hasSpindle_of_state (by rcases h.piecing with h | h | h <;> rw [h] <;> decide)
  obtain ⟨-, hsound, -⟩ := ht
  have hcause : (t.sp i).cause = some .brk := by
    rw [(hsound _ (sp_mem hin)).1]
    rcases h.piecing with h | h | h <;> rw [h] <;> rfl
  refine ⟨?_, hcause, h.attempts, h.unpieced, h.downSince, h.bookedTo, h.shiftBreaks.trans hr⟩
  rcases h.piecing with h | h | h
  · exact .inl h
  · exact .inr (.inl h)
  · exact .inr (.inr h)

/-- The shift counter after the stages, by its last segment. -/
theorem EndedBy.shift_last {which : SpState → Bool} {k d : Nat} {s w t : State} (h : EndedBy which k s w t)
    (hd : t.shift = { w.shift with opened := w.shift.opened.book (some .brk) d }) {first : List Segment} {g : Segment}
    (hlast : (each (s.freshOf which (indicesOf k)) book s).shift.opened.segments = first ++ [g]) :
    t.shift = { (each (s.freshOf which (indicesOf k)) book s).shift with
      opened := { (each (s.freshOf which (indicesOf k)) book s).shift.opened with
        segments := first ++ [{ g with breaks := g.breaksAfter (s.freshOf which (indicesOf k)).length, brk := g.brk + d
                                       openLosses := g.openLosses + d }] } } := by
  rw [hd, h.shift, Shift.book_some]
  simp only [Shift.broken, hlast, modifyLast_append, Segment.book]

/-! ### A return without a load (R113) -/

theorem endNotLoaded_eq (k : Nat) (s : State) : endNotLoaded k s = exchangeEnded (fun st => st == .exchange) k s := rfl

theorem endNotLoaded_ended {k : Nat} {s : State} (hs : s.tabled) (hc : s.shift.closing = none) (hk : s.hasSection k = true) :
    endedNotLoaded k s (endNotLoaded k s) := by
  have hstages := exchangeEnded_by (which := fun st => st == .exchange) (fun st h => .inl (by simpa using h)) hs hc hk
  rw [← endNotLoaded_eq] at hstages
  generalize exchangeFresh (fun st => st == .exchange) k s = w at hstages
  generalize endNotLoaded k s = t at hstages
  refine ⟨hstages.state, hstages.timer, hstages.carrier, hstages.base', hstages.booking, hstages.other, ?_, fun i hlo hhi => ?_⟩
  · intro first g hlast
    obtain ⟨d, hd, hzero⟩ := hstages.margin.shift
    refine ⟨g.brk + d, g.openLosses + d, hstages.shift_last hd hlast, Nat.le_add_right _ _, by omega, fun hnone => ?_⟩
    refine (congrArg (g.brk + ·) (hzero fun i hi htakes => ?_)).trans (Nat.add_zero _)
    by_cases hsel : (s.sp i).state = .exchange
    · have hmade := hstages.made i hi (by simpa using hsel)
      rw [hstages.del]
      exact hmade.bookedTo
    · have hspared : i ∈ indicesOf k → ((s.sp i).state == .exchange) = false := fun _ => by simpa using hsel
      obtain ⟨hwaits, left, hleft, hmargin⟩ := htakes
      have hstate : (s.sp i).state = .waiting ∨ (s.sp i).state = .queued := by
        by_contra hno
        obtain ⟨hw', hq'⟩ := not_or.1 hno
        rw [hstages.still i hspared hw' hq'] at hwaits
        exact hno hwaits
      have hstrip : stripOf i = k := stripOf_mem (hasSection_iff.1 hk).1 hi
      have hsame : w.remaining i = s.remaining i := by
        rw [State.remaining, State.remaining, hstrip, hstages.base]
        exact congrArg (fun f => (s.sec k).base.map f)
          (funext fun b => remainingFrom_kept b (hstages.kept i hspared) hstages.del hstages.port)
      have hfar := hnone i hi left hstate (hsame ▸ hleft)
      rw [State.atMargin, cfg_of_port hstages.port] at hmargin
      rw [State.atMargin, hmargin] at hfar
      cases hfar
  · have hi : i ∈ indicesOf k := (mem_indicesOf (hasSection_iff.1 hk).1).2 ⟨hlo, hhi⟩
    refine ⟨fun hx => ?_, fun he => ?_⟩
    · have hmade := hstages.made i hi (by simpa using hx)
      by_cases htakes : w.marginTakes i
      · obtain ⟨hempty, hcause, -⟩ := hstages.margin.taken i hi htakes
        exact .inr ⟨hempty, hcause⟩
      · exact .inl ((hmade.kept (hstages.margin.kept i fun _ => htakes)).freshBroken hstages.margin.tabled rfl)
    · have hkept := hstages.still i (fun _ => by rw [he]; rfl) (by rw [he]; decide) (by rw [he]; decide)
      rw [hstages.margin.still i (by rw [hkept, he]; decide) (by rw [hkept, he]; decide), hkept]

end Sys2Proof.Machine
end

section
/-! PROOFS. A load of a section, and the commands that end an exchange (R87, R108 to R113). -/

namespace Sys2Proof.Machine

/-! ### The load rebase (R87) -/

theorem rebase_sec {k : Nat} {s : State} (hk : s.hasSection k = true) (loaded : Nat) (rem : List Nat) :
    (rebase k loaded rem s).sec k = { s.sec k with base := some { mark := s.count, loaded := loaded, rem := rem } } ∧
    (∀ m, m ≠ k → (rebase k loaded rem s).sec m = s.sec m) ∧ (∀ n, (rebase k loaded rem s).slot n = s.slot n) := by
  have hcreel : (rebase k loaded rem s).creel =
      (modifySec k (fun x => { x with base := some { mark := s.count, loaded := loaded, rem := rem } }) s).creel :=
    each_keeps State.creel _ _ (fun i v => by simp) _
  refine ⟨?_, fun m hm => ?_, fun n => ?_⟩
  · rw [sec_of_creel hcreel, modifySec_sec_self hk]
  · rw [sec_of_creel hcreel, modifySec_sec_ne hm]
  · rw [slot_of_creel hcreel, modifySec_slot]

theorem rebase_sp {k loaded : Nat} {rem : List Nat} {s : State} {j : Nat} (hj : s.hasSpindle j = true) :
    (rebase k loaded rem s).sp j = if j ∈ indicesOf k then { s.sp j with lostSinceBase := 0 } else s.sp j := by
  have hsame : ∀ j, (modifySec k (fun x => { x with base := some { mark := s.count, loaded := loaded, rem := rem } }) s).sp j = s.sp j :=
    sp_of_mon rfl
  have heach := each_modifySp_sp (nodup_indicesOf k) (fun _ r => { r with lostSinceBase := 0 })
    (s := modifySec k (fun x => { x with base := some { mark := s.count, loaded := loaded, rem := rem } }) s) (j := j) (fun _ => hj)
  rw [hsame] at heach
  exact heach

/-- A record booked up to the present count among others. -/
theorem each_book_sp {l : List Nat} (hnodup : l.Nodup) {s : State} (hc : s.shift.closing = none) {j : Nat} (hj : s.hasSpindle j = true)
    (hmem : j ∈ l) : (each l book s).sp j = (book j s).sp j := by
  obtain ⟨before, hkept, hown⟩ := each_sp_mem (f := book) (fun i u h => book_sp_ne h u) hmem hnodup s
  have hbc := each_book_closing before hc
  have hdel := each_book_del before s
  have hhas : (each before book s).hasSpindle j = true :=
    (each_keeps (fun u => u.hasSpindle j) before book (fun i u => has_book i j u) s).trans hj
  rw [hown]
  generalize each before book s = u at *
  rw [book_self hj hc, book_self hhas hbc, hkept, State.count, State.count, hdel]

/-- The roving of a full bobbin under the active article. -/
def State.fullRoving (s : State) : Nat := (s.del.active.map Article.roving).getD 0

/-- What a load rebase does. -/
structure LoadRebased (k : Nat) (s u : State) : Prop where
  tabled : u.tabled
  del : u.del = s.del
  port : u.port = s.port
  inTable : u.hasSection k = true
  self : u.sec k = { s.sec k with
    base := some { mark := s.del.count, loaded := s.fullRoving, rem := List.replicate 24 (s.fullRoving * 1000) } }
  other : ∀ m, m ≠ k → u.sec m = s.sec m
  slot : ∀ n, u.slot n = s.slot n
  shift : u.shift = (each (indicesOf k) book s).shift
  record : ∀ j ∈ indicesOf k, u.sp j = { (book j s).sp j with lostSinceBase := 0 }

theorem loadRebase_rebased {k : Nat} {s : State} (hs : s.tabled) (hc : s.shift.closing = none) (hk : s.hasSection k = true) :
    LoadRebased k s (loadRebase k s) := by
  have htabled := tabled_loadRebase hs k
  have hcreel : (each (indicesOf k) book s).creel = s.creel := each_keeps State.creel _ _ (fun i v => by simp) s
  have hdel : (each (indicesOf k) book s).del = s.del := each_book_del _ s
  have hport : (each (indicesOf k) book s).port = s.port := each_keeps State.port _ _ (fun i v => by simp) s
  have hsp : ∀ j ∈ indicesOf k, (each (indicesOf k) book s).sp j = (book j s).sp j := fun j hj =>
    each_book_sp (nodup_indicesOf k) hc (hasSpindle_of_section hs hk hj) hj
  have hhas : ∀ j, (each (indicesOf k) book s).hasSpindle j = s.hasSpindle j := fun j =>
    each_keeps (fun u => u.hasSpindle j) _ book (fun i u => has_book i j u) s
  have hu : loadRebase k s = rebase k ((each (indicesOf k) book s).del.active.map Article.roving |>.getD 0)
      (List.replicate 24 (((each (indicesOf k) book s).del.active.map Article.roving |>.getD 0) * 1000)) (each (indicesOf k) book s) := rfl
  generalize loadRebase k s = u at *
  generalize hv : each (indicesOf k) book s = v at *
  rw [hdel] at hu
  have hvk : v.hasSection k = true := (hasSection_of_sections (by rw [hcreel]) k).trans hk
  obtain ⟨hself, hother, hslot⟩ := rebase_sec hvk s.fullRoving (List.replicate 24 (s.fullRoving * 1000))
  have hframe := rebase_frame k s.fullRoving (List.replicate 24 (s.fullRoving * 1000)) v
  obtain ⟨hudel, -, -, hushift, -, -, huport, -⟩ := hframe
  rw [show rebase k s.fullRoving (List.replicate 24 (s.fullRoving * 1000)) v = u from hu.symm] at hself hother hslot hudel hushift huport
  refine ⟨htabled, hudel.trans hdel, huport.trans hport, ?_, ?_, fun m hm => (hother m hm).trans (sec_of_creel hcreel m),
    fun n => (hslot n).trans (slot_of_creel hcreel n), by rw [hv]; exact hushift, fun j hj => ?_⟩
  · have hlength := sections_length_of_port hs htabled (huport.trans hport)
    rw [hasSection_iff] at hk ⊢
    rw [hlength]
    exact hk
  · rw [hself, sec_of_creel hcreel, State.count, hdel]
  · rw [hu, show (s.del.active.map Article.roving).getD 0 = s.fullRoving from rfl,
      rebase_sp ((hhas j).trans (hasSpindle_of_section hs hk hj)), if_pos hj, hsp j hj]

/-! ### A load (R108) -/

/-- Records booked up to the present count under a cause hand nothing more to the shift counter. -/
theorem each_book_shift_again (l : List Nat) (hnodup : l.Nodup) {s : State} (hc : s.shift.closing = none)
    (h : ∀ i ∈ l, (s.sp i).bookedTo = some s.del.count ∧ (s.sp i).cause.isSome = true) : (each l book s).shift = s.shift := by
  induction l generalizing s with
  | nil => rfl
  | cons i l ih =>
    obtain ⟨hi, hl⟩ := List.nodup_cons.1 hnodup
    obtain ⟨hto, hcause⟩ := h i List.mem_cons_self
    obtain ⟨c, hcause⟩ := Option.isSome_iff_exists.1 hcause
    have hfirst : (book i s).shift = s.shift := by
      rw [book_shift_idle hc hto, hcause, Nat.sub_self, Shift.book_nothing]
    have hsame : ∀ j ∈ l, (book i s).sp j = s.sp j := fun j hj => book_sp_ne (fun hij : i = j => hi (hij ▸ hj)) s
    have hdel : (book i s).del = s.del := by simp
    refine (ih hl (by rw [hfirst]; exact hc) fun j hj => ?_).trans hfirst
    rw [hsame j hj, hdel]
    exact h j (List.mem_cons_of_mem _ hj)

theorem SpState.exchange_or_empty {st : SpState} : (st == .exchange || st == .empty) = true ↔ st = .exchange ∨ st = .empty := by simp

theorem LoadRebased.fields {k j : Nat} {s u : State} (h : LoadRebased k s u) (hj : j ∈ indicesOf k) (hs : s.tabled)
    (hc : s.shift.closing = none) (hk : s.hasSection k = true) :
    (u.sp j).state = (s.sp j).state ∧ (u.sp j).attempts = (s.sp j).attempts ∧ (u.sp j).shiftBreaks = (s.sp j).shiftBreaks ∧
    (u.sp j).lostSinceBase = 0 ∧ ((u.sp j).bookedTo.isSome = true → (u.sp j).bookedTo = some s.del.count) := by
  obtain ⟨hstate, hattempts, hbreaks, -, -, -, -, -, hto⟩ := book_fields (hasSpindle_of_section hs hk hj) hc
  rw [h.record j hj]
  refine ⟨hstate, hattempts, hbreaks, rfl, fun hsome => hto ?_⟩
  cases hb : (s.sp j).bookedTo with
  | none =>
    dsimp only at hsome
    rw [book_none hb, hb] at hsome
    cases hsome
  | some b => rfl

theorem endLoaded_eq (k : Nat) (s : State) :
    endLoaded k s = exchangeEnded (fun st => st == .exchange || st == .empty) k (loadRebase k s) := rfl

/-- A record at which nothing has been drawn since the base was set has the whole base left. -/
theorem remaining_atBase {i : Nat} {b : Base} {s : State} (hsec : (s.sec (stripOf i)).base = some b)
    (hmark : b.mark = s.del.count) :
    s.remaining i = some (b.rem.getD ((i - 1) % 24) 0) := by
  have hfrom : s.remainingFrom b i = b.rem.getD ((i - 1) % 24) 0 := by
    have hup : ∀ openFrom : Option Nat, upPulses s.count b.mark (s.sp i).lostSinceBase openFrom = 0 := fun openFrom => by
      rw [hmark]
      cases openFrom <;> simp [upPulses, State.count]
    unfold State.remainingFrom
    dsimp only
    rw [hup]
    simp [usedMm, remainingMm, Config.perStrip]
  rw [State.remaining, hsec]
  exact congrArg some hfrom

theorem endLoaded_ended {k : Nat} {s : State} (hs : s.tabled) (hc : s.shift.closing = none) (hk : s.hasSection k = true) :
    endedLoaded k s (endLoaded k s) := by
  have hrebased := loadRebase_rebased hs hc hk
  have huc : (loadRebase k s).shift.closing = none := by
    rw [hrebased.shift]
    exact each_book_closing _ hc
  have hstages := exchangeEnded_by (fun st => SpState.exchange_or_empty.1) hrebased.tabled huc hrebased.inTable
  rw [← endLoaded_eq] at hstages
  have hfields := fun j hj => hrebased.fields (j := j) hj hs hc hk
  generalize loadRebase k s = u at *
  generalize exchangeFresh (fun st => st == .exchange || st == .empty) k u = w at hstages
  generalize endLoaded k s = t at hstages
  have hbooked : ∀ j ∈ indicesOf k, u.hasSpindle j = true → (u.sp j).state ≠ .up → (u.sp j).bookedTo = some s.del.count :=
    fun j hj hin hup => (hfields j hj).2.2.2.2 (bookedTo_of_sound (hrebased.tabled.2.1 _ (sp_mem hin)) hup)
  have hwbooked : ∀ j ∈ indicesOf k, (w.sp j).state.inPiecing → (w.sp j).bookedTo = some s.del.count := fun j hj hpiecing => by
    by_cases hsel : ((u.sp j).state == .exchange || (u.sp j).state == .empty) = true
    · rw [(hstages.made j hj hsel).bookedTo, hrebased.del]
    · have hkept := hstages.kept j fun _ => Bool.eq_false_iff.2 hsel
      have hstate : (u.sp j).state.inPiecing := by
        by_contra hno
        rw [hkept.outside hno] at hpiecing
        exact hno hpiecing
      rw [hkept.bookedTo]
      exact hbooked j hj (hasSpindle_of_state (by rcases hstate with h | h | h <;> rw [h] <;> decide))
        (by rcases hstate with h | h | h <;> rw [h] <;> decide)
  have hwlost : ∀ j ∈ indicesOf k, (w.sp j).lostSinceBase = 0 := fun j hj => by
    obtain ⟨-, -, -, hlost, -⟩ := hfields j hj
    by_cases hsel : ((u.sp j).state == .exchange || (u.sp j).state == .empty) = true
    · have hstate := SpState.exchange_or_empty.1 hsel
      refine (hstages.made j hj hsel).lost ?_ hlost
      rw [hrebased.del]
      exact hbooked j hj (hasSpindle_of_state (by rcases hstate with h | h <;> rw [h] <;> decide))
        (by rcases hstate with h | h <;> rw [h] <;> decide)
    · exact (hstages.kept j fun _ => Bool.eq_false_iff.2 hsel).lost.trans hlost
  have htakesPiecing : ∀ {j}, w.marginTakes j → (w.sp j).state.inPiecing := fun h => by
    rcases h.1 with h | h
    · exact .inr (.inl h)
    · exact .inl h
  refine ⟨hstages.state, hstages.timer, hstages.carrier, by rw [hstages.base', hrebased.self]; rfl,
    leftBooking_of hstages.booking (by rw [hrebased.self]) hrebased.slot rfl fun _ => rfl,
    fun m hm => (hstages.other m hm).trans (hrebased.other m hm), ?_, fun i hlo hhi => ?_⟩
  · intro first g hlast
    obtain ⟨d, hd, hzero⟩ := hstages.margin.shift
    have hd0 : d = 0 := hzero fun i hi htakes => by
      rw [hstages.del, hrebased.del]
      exact hwbooked i hi (htakesPiecing htakes)
    have hagain : (each (u.freshOf (fun st => st == .exchange || st == .empty) (indicesOf k)) book u).shift = u.shift := by
      refine each_book_shift_again _ ((nodup_indicesOf k).filter _) huc fun i hi => ?_
      obtain ⟨hi, hsel⟩ := List.mem_filter.1 hi
      have hstate := SpState.exchange_or_empty.1 hsel
      have hin : u.hasSpindle i = true := hasSpindle_of_state (by rcases hstate with h | h <;> rw [h] <;> decide)
      rw [hrebased.del, (hrebased.tabled.2.1 _ (sp_mem hin)).1]
      exact ⟨hbooked i hi hin (by rcases hstate with h | h <;> rw [h] <;> decide), by rcases hstate with h | h <;> rw [h] <;> rfl⟩
    have hcount : (u.freshOf (fun st => st == .exchange || st == .empty) (indicesOf k)).length =
        (indicesOf k).countP (fun i => (s.sp i).state == .exchange || (s.sp i).state == .empty) := by
      rw [State.freshOf, ← List.countP_eq_length_filter]
      exact List.countP_congr fun j hj => by rw [(hfields j hj).1]
    rw [hstages.shift_last hd (by rw [hagain, hrebased.shift]; exact hlast), hagain, hrebased.shift, hcount, hd0]
    rfl
  · have hi : i ∈ indicesOf k := (mem_indicesOf (hasSection_iff.1 hk).1).2 ⟨hlo, hhi⟩
    obtain ⟨hstate, hattempts, hbreaks, -, -⟩ := hfields i hi
    refine ⟨?_, fun hx hroving => ?_, fun hx he hwait hq => ?_⟩
    · by_cases htakes : w.marginTakes i
      · refine (hstages.margin.taken i hi htakes).2.2 ?_ (hwlost i hi)
        rw [hstages.del, hrebased.del]
        exact hwbooked i hi (htakesPiecing htakes)
      · exact (hstages.margin.kept i fun _ => htakes).lost.trans (hwlost i hi)
    · have hmade := hstages.made i hi (SpState.exchange_or_empty.2 (by rw [hstate]; exact hx))
      have hspared : ¬ w.marginTakes i := fun ⟨_, left, hleft, hmargin⟩ => by
        have hstrip : stripOf i = k := stripOf_mem (hasSection_iff.1 hk).1 hi
        rw [remaining_atBase (by rw [hstrip, hstages.base, hrebased.self]) (by rw [hstages.del, hrebased.del])] at hleft
        cases hleft
        rw [State.atMargin, cfg_of_port (hstages.port.trans hrebased.port)] at hmargin
        have hrem : (List.replicate 24 (s.fullRoving * 1000)).getD ((i - 1) % 24) 0 = s.fullRoving * 1000 := by
          rw [List.getD_eq_getElem _ _ (by simpa using Nat.mod_lt _ (by decide)), List.getElem_replicate]
        rw [hrem, decide_eq_true_eq] at hmargin
        have hfull : s.cfg.emptyMargin < s.fullRoving := hroving
        omega
      have hfinal := hmade.kept (hstages.margin.kept i fun _ => hspared)
      rw [hrebased.del] at hfinal
      exact hfinal.freshBroken hstages.margin.tabled hbreaks
    · have hkept := hstages.still i (fun _ => Bool.eq_false_iff.2 fun h => (SpState.exchange_or_empty.1 h).elim
        (fun h => hx (hstate ▸ h)) (fun h => he (hstate ▸ h))) (by rw [hstate]; exact hwait) (by rw [hstate]; exact hq)
      rw [hstages.margin.still i (by rw [hkept, hstate]; exact hwait) (by rw [hkept, hstate]; exact hq), hkept]
      exact ⟨hstate, hattempts⟩

/-! ### EXCHANGE_END and CREEL_CONFIRM (R108, R110, R112, R113) -/

theorem endLoaded_onlyIn (k : Nat) (s : State) : onlyIn [.mon, .pie, .creel, .shift, .line, .frame, .draws] s (endLoaded k s) :=
  ⟨by simp, fun b hb => by cases b <;> simp_all [Block.same]⟩

theorem endNotLoaded_onlyIn (k : Nat) (s : State) :
    onlyIn [.mon, .pie, .creel, .shift, .line, .frame, .draws] s (endNotLoaded k s) :=
  ⟨by simp, fun b hb => by cases b <;> simp_all [Block.same]⟩

theorem endable_iff (s : State) (k carrier : Nat) : s.endable k carrier = true ↔
    s.hasSection k = true ∧ (s.sec k).state = .exchanging ∧ (s.sec k).carrier = some carrier := by
  simp [State.endable, and_assoc]

/-- The receive buffer says nothing of a load. -/
theorem endedLoaded_of_setRx {k : Nat} {rest : List Received} {s t : State} (hc : s.shift.closing = none)
    (h : endedLoaded k (s.setRx rest) t) : endedLoaded k s t := by
  obtain ⟨hstate, htimer, hcarrier, hbase, hleft, hother, hcounted, hrecords⟩ := h
  refine ⟨hstate, htimer, hcarrier, hbase, hleft, hother, ?_, hrecords⟩
  intro first g hlast
  have hshift : (each (indicesOf k) book (s.setRx rest)).shift = (each (indicesOf k) book s).shift :=
    each_book_congr (t := s.setRx rest) _ hc rfl rfl rfl
  have hcounted := hcounted first g
  rw [hshift] at hcounted
  exact hcounted hlast

/-- Settles O34. -/
theorem exchangeEndLoadsOrAborts : Obligations.ExchangeEndLoadsOrAborts := by
  intro s r rest hw hs hc hrx hkind k accepted u
  have hrow : exec .exchangeEnd s = .next (takeExchangeEnd r.tel u) := by
    have hexec : exec .exchangeEnd s = .next (handOver .exchangeEnd takeExchangeEnd s) := inRunning_works hw _
    rw [hexec, handOver_takes hrx hkind]
    rfl
  have hu : u.tabled := SameTables.tabled (s := s) ⟨rfl, rfl, rfl, rfl, fun _ => rfl, fun _ => rfl, rfl⟩ hs
  have hendable : u.endable k r.tel.source = true ↔ accepted := endable_iff u k r.tel.source
  rw [hrow]
  unfold takeExchangeEnd
  refine ⟨fun hacc hout => ?_, fun hacc hout => ?_, fun hnot => ?_⟩
  · rw [if_pos (hendable.2 hacc), hout]
    exact ⟨_, rfl, onlyIn_seq (setRx_onlyIn rest s) (endLoaded_onlyIn k u) (by simp) (by simp), endedLoaded_of_setRx (rest := rest) hc (endLoaded_ended (s := u) hu hc hacc.1)⟩
  · rw [if_pos (hendable.2 hacc), hout]
    exact ⟨_, rfl, endUnknown_endedWithoutLoad (s := u) hacc.1⟩
  · by_cases hacc : accepted
    · have hout : 1 < r.tel.num 1 1 := hnot.resolve_left fun h => h hacc
      obtain ⟨n, hn⟩ : ∃ n, r.tel.num 1 1 = n + 2 := ⟨r.tel.num 1 1 - 2, by omega⟩
      rw [if_pos (hendable.2 hacc), hn]
      rfl
    · rw [if_neg fun h => hacc (hendable.1 h)]
      rfl

theorem endedLoaded_setPort {k : Nat} {s t : State} (h : endedLoaded k s t) (p : Port) : endedLoaded k s { t with port := p } := h

theorem endedNotLoaded_setPort {k : Nat} {s t : State} (h : endedNotLoaded k s t) (p : Port) :
    endedNotLoaded k s { t with port := p } := h

/-- Settles O36. -/
theorem creelConfirmRefusesOrEnds : Obligations.CreelConfirmRefusesOrEnds := by
  intro s tag k outcome hopen hw hs hc refused ends
  have heffect : perform (.creelConfirm k outcome) tag s =
      if !(s.hasSection k) then Effect.refuse .noSuch s
      else if 1 < outcome then Effect.refuse .outOfRange s
      else if (s.sec k).state = .normal then Effect.refuse .notPending s
      else if outcome = 0 then Effect.done (endLoaded k s)
      else if (s.sec k).base.isNone then Effect.refuse .outOfRange s
      else Effect.done (endNotLoaded k s) := whileRunning_works (running_of_works hw) _
  refine ⟨fun hk => ?_, fun hk hout => ?_, fun hk hout hnormal => ?_, fun hk hnormal hout hbase => ?_, fun hk hnormal hout => ?_,
    fun hk hnormal hout hbase => ?_⟩
  · rw [if_pos (by rw [hk]; rfl)] at heffect
    exact hostRow_refused hopen heffect rfl
  · rw [if_neg (by simp [hk]), if_pos hout] at heffect
    exact hostRow_refused hopen heffect rfl
  · rw [if_neg (by simp [hk]), if_neg (Nat.not_lt.2 hout), if_pos hnormal] at heffect
    exact hostRow_refused hopen heffect rfl
  · rw [if_neg (by simp [hk]), if_neg (by omega), if_neg hnormal, if_neg (by omega), if_pos (by rw [hbase]; rfl)] at heffect
    exact hostRow_refused hopen heffect rfl
  · rw [if_neg (by simp [hk]), if_neg (by omega), if_neg hnormal, if_pos hout] at heffect
    have hport : (endLoaded k s).port = s.port := by simp
    refine ⟨_, hostRow_done (k := 27) hopen heffect rfl, onlyIn_setPort (onlyIn_mono (endLoaded_onlyIn k s) (by simp)) (by simp) _,
      congrArg (Port.completed 27 tag .done []) hport, endedLoaded_setPort (endLoaded_ended hs hc hk) _⟩
  · rw [if_neg (by simp [hk]), if_neg (by omega), if_neg hnormal, if_neg (by omega), if_neg (by simpa using hbase)] at heffect
    have hport : (endNotLoaded k s).port = s.port := by simp
    refine ⟨_, hostRow_done (k := 27) hopen heffect rfl, onlyIn_setPort (onlyIn_mono (endNotLoaded_onlyIn k s) (by simp)) (by simp) _,
      congrArg (Port.completed 27 tag .done []) hport, endedNotLoaded_setPort (endNotLoaded_ended hs hc hk) _⟩

end Sys2Proof.Machine
end

section
/-! PROOFS. The engagements suspended, and the confirm end (R82, R120). -/

namespace Sys2Proof.Machine

/-! ### An ordered record back in piecing (R82) -/

/-- Record `i`, which was ORDERED, has returned to piecing or to EXCHANGE. -/
structure ReturnedToPiecing (i : Nat) (s t : State) : Prop where
  was : (s.sp i).state = .ordered
  exchanging : (s.sec (stripOf i)).state = .exchanging → (t.sp i).state = .exchange
  piecing : (s.sec (stripOf i)).state ≠ .exchanging →
    (t.sp i).attempts = (s.sp i).attempts ∧ ((t.sp i).state = .queued ∨ (t.sp i).state = .waiting)

/-- With no close in progress: of every record, that it has returned to piecing or is as it was. -/
structure ReturnedOrKept (s t : State) : Prop where
  tabled : t.tabled
  closing : t.shift.closing = none
  sec : ∀ k, t.sec k = s.sec k
  record : ∀ j, t.sp j = s.sp j ∨ ReturnedToPiecing j s t

theorem ReturnedToPiecing.not_ordered {i : Nat} {s t : State} (h : ReturnedToPiecing i s t) : (t.sp i).state ≠ .ordered := by
  by_cases hx : (s.sec (stripOf i)).state = .exchanging
  · rw [h.exchanging hx]
    decide
  · rcases (h.piecing hx).2 with h | h <;> rw [h] <;> decide

theorem ReturnedToPiecing.of_eq {i : Nat} {s s' t t' : State} (h : ReturnedToPiecing i s' t) (hsp : s'.sp i = s.sp i)
    (hsec : s'.sec (stripOf i) = s.sec (stripOf i)) (hsp' : t'.sp i = t.sp i) : ReturnedToPiecing i s t' := by
  obtain ⟨hwas, hx, hp⟩ := h
  rw [hsp] at hwas
  rw [hsec] at hx
  rw [hsec, hsp] at hp
  exact ⟨hwas, by rw [hsp']; exact hx, by rw [hsp']; exact hp⟩

theorem ReturnedOrKept.of_mon {s t : State} (hc : s.shift.closing = none) (ht : t.tabled) (hmon : t.mon = s.mon)
    (hshift : t.shift = s.shift) (hcreel : t.creel = s.creel) : ReturnedOrKept s t :=
  ⟨ht, by rw [hshift]; exact hc, sec_of_creel hcreel, fun j => .inl (sp_of_mon hmon j)⟩

theorem ReturnedOrKept.later {s t u : State} (h : ReturnedOrKept t u) {j : Nat} (h' : ReturnedToPiecing j s t) :
    ReturnedToPiecing j s u := by
  obtain hsame | hagain := h.record j
  · exact h'.of_eq rfl rfl hsame
  · exact absurd hagain.was h'.not_ordered

theorem ReturnedOrKept.trans {s t u : State} (h : ReturnedOrKept s t) (h' : ReturnedOrKept t u) : ReturnedOrKept s u := by
  refine ⟨h'.tabled, h'.closing, fun k => (h'.sec k).trans (h.sec k), fun j => ?_⟩
  obtain hsame | hback := h.record j
  · obtain hsame' | hback' := h'.record j
    · exact .inl (hsame'.trans hsame)
    · exact .inr (hback'.of_eq hsame (h.sec _) rfl)
  · exact .inr (h'.later hback)

theorem returnToPiecing_other {i : Nat} {s : State} (h : (s.sp i).state ≠ .ordered) : returnToPiecing i s = s := if_neg h

theorem returnToPiecing_sp_ne {i j : Nat} (h : i ≠ j) (s : State) : (returnToPiecing i s).sp j = s.sp j := by
  unfold returnToPiecing
  split
  · split
    · exact bookEnter_sp_ne h _ _
    · exact joinQueue_ne h _
  · rfl

theorem returnToPiecing_returned {i : Nat} {s : State} (hs : s.tabled) (hc : s.shift.closing = none) :
    ReturnedOrKept s (returnToPiecing i s) ∧ ((s.sp i).state = .ordered → ReturnedToPiecing i s (returnToPiecing i s)) := by
  by_cases ho : (s.sp i).state = .ordered
  · obtain ⟨hexchange, helse⟩ := returnToPiecing_effect hs hc ho
    have hself : ReturnedToPiecing i s (returnToPiecing i s) :=
      ⟨ho, fun hx => (hexchange hx).1, fun hx => ⟨(helse hx).2.1, (helse hx).1⟩⟩
    refine ⟨⟨tabled_returnToPiecing hs i, ?_, sec_of_creel (by simp), fun j => ?_⟩, fun _ => hself⟩
    · by_cases hx : (s.sec (stripOf i)).state = .exchanging
      · obtain ⟨-, -, -, -, hshift⟩ := hexchange hx
        rw [hshift]
        exact book_closing i hc
      · obtain ⟨-, -, -, hshift⟩ := helse hx
        rw [hshift]
        exact hc
    · by_cases hj : i = j
      · subst hj
        exact .inr hself
      · exact .inl (returnToPiecing_sp_ne hj s)
  · rw [returnToPiecing_other ho]
    exact ⟨.of_mon hc hs rfl rfl rfl, fun h => absurd h ho⟩

/-! ### One engagement suspended (R82) -/

/-- What an engagement that acts hands over as it is suspended. -/
def suspendSends (x : Side) (s : State) : State :=
  match (s.eng x).state with
  | .awaiting | .working => sendRelease x s
  | .orderOut => sendRelease x (sendCancel x s)
  | .idle | .calling | .suspended => s

/-- The state in which the ordered record of an engagement has gone back. -/
def suspendReturns (x : Side) (s : State) : State :=
  if (s.eng x).state = .orderOut then returnOrdered x (suspendSends x s) else suspendSends x s

/-- The engagement SUSPENDED. -/
def Engagement.halted (e : Engagement) : Engagement := { e.cleared with state := .suspended, nextCall := none }

theorem sendCancel_none {x : Side} {s : State} (h : (s.eng x).robot = none ∨ (s.eng x).order = none) : sendCancel x s = s := by
  unfold sendCancel
  obtain h | h := h
  · rw [h]
  · rw [h]
    cases (s.eng x).robot <;> rfl

theorem sendCancel_eng (x y : Side) (s : State) : (sendCancel x s).eng y = s.eng y := eng_of_pie (by simp) y

theorem suspendSends_frame (x : Side) (s : State) :
    (suspendSends x s).mon = s.mon ∧ (suspendSends x s).pie = s.pie ∧ (suspendSends x s).shift = s.shift ∧
    (suspendSends x s).port = s.port ∧ (suspendSends x s).creel = s.creel ∧ (suspendSends x s).del = s.del := by
  unfold suspendSends
  cases (s.eng x).state <;> simp

theorem tabled_suspendSends {s : State} (hs : s.tabled) (x : Side) : (suspendSends x s).tabled := by
  unfold suspendSends
  cases (s.eng x).state with
  | awaiting => exact tabled_sendRelease hs x
  | working => exact tabled_sendRelease hs x
  | orderOut => exact tabled_sendRelease (tabled_sendCancel hs x) x
  | idle | calling | suspended => exact hs

theorem suspendSends_hands (x : Side) (s : State) : hands (suspensionOf x s) s (suspendSends x s) := by
  unfold suspensionOf suspendSends
  cases hstate : (s.eng x).state with
  | idle | calling | suspended => exact hands_of_line rfl
  | awaiting | working =>
    cases hrobot : (s.eng x).robot with
    | none =>
      rw [sendRelease_none hrobot]
      exact hands_of_line rfl
    | some robot => exact sendRelease_hands hrobot
  | orderOut =>
    cases hrobot : (s.eng x).robot with
    | none =>
      dsimp only
      rw [sendCancel_none (.inl hrobot), sendRelease_none hrobot]
      exact hands_of_line rfl
    | some robot =>
      dsimp only
      cases ho : (s.eng x).order with
      | none =>
        rw [sendCancel_none (.inr ho)]
        exact sendRelease_hands hrobot
      | some o =>
        have hport : (sendCancel x s).port = s.port := by simp
        have hrelease := sendRelease_hands (s := sendCancel x s) ((congrArg Engagement.robot (sendCancel_eng x x s)).trans hrobot)
        rw [releaseOf_congr (cfg_of_port hport)] at hrelease
        exact hands_trans (sendCancel_hands hrobot ho) hport hrelease

theorem suspendOne_eq (x : Side) (s : State) : suspendOne x s = setEng x (s.eng x).halted (suspendReturns x s) := by
  have heng : (suspendReturns x s).eng x = s.eng x := by
    have hsends : (suspendSends x s).eng x = s.eng x := eng_of_pie (suspendSends_frame x s).2.1 x
    unfold suspendReturns
    split
    · exact (eng_of_engines (by simp) x).trans hsends
    · exact hsends
  rw [Engagement.halted, ← heng]
  unfold suspendOne suspendReturns suspendSends
  cases (s.eng x).state <;> rfl

theorem suspendOne_eng (x : Side) (s : State) :
    (suspendOne x s).eng x = (s.eng x).halted ∧ ∀ y, y ≠ x → (suspendOne x s).eng y = s.eng y := by
  have heng : ∀ y, (suspendReturns x s).eng y = s.eng y := fun y => by
    have hsends : (suspendSends x s).eng y = s.eng y := eng_of_pie (suspendSends_frame x s).2.1 y
    unfold suspendReturns
    split
    · exact (eng_of_engines (by simp) y).trans hsends
    · exact hsends
  rw [suspendOne_eq]
  exact ⟨eng_setEng .., fun y hy => (eng_setEng_ne hy _ _).trans (heng y)⟩

theorem suspendOne_hands (x : Side) (s : State) : hands (suspensionOf x s) s (suspendOne x s) := by
  have hline : (suspendReturns x s).line = (suspendSends x s).line := by
    unfold suspendReturns
    split
    · simp
    · rfl
  have hline' : (suspendOne x s).line = (suspendSends x s).line := by
    rw [suspendOne_eq]
    exact (by simp : (setEng x (s.eng x).halted (suspendReturns x s)).line = (suspendReturns x s).line).trans hline
  exact hands_congr (suspendSends_hands x s) rfl rfl hline'

/-- What one suspension does to the records. -/
theorem suspendOne_returned {x : Side} {s : State} (hs : s.tabled) (hc : s.shift.closing = none) :
    ReturnedOrKept s (suspendOne x s) ∧
    ∀ o, (s.eng x).state = .orderOut → (s.eng x).order = some o → (s.sp o.index).state = .ordered →
      ReturnedToPiecing o.index s (suspendOne x s) := by
  obtain ⟨hmon, hpie, hshift, -, hcreel, -⟩ := suspendSends_frame x s
  have htabled := tabled_suspendSends hs x
  have hsent : ReturnedOrKept s (suspendSends x s) := .of_mon hc htabled hmon hshift hcreel
  have heng : (suspendSends x s).eng x = s.eng x := eng_of_pie hpie x
  have hsp : ∀ j, (suspendOne x s).sp j = (suspendReturns x s).sp j := fun j => by
    rw [suspendOne_eq]
    exact sp_of_mon (by simp) j
  have hfinal : ∀ u, ReturnedOrKept s u → u = suspendReturns x s → ReturnedOrKept s (suspendOne x s) := fun u hu huv => by
    subst huv
    refine ⟨tabled_suspendOne hs x, ?_, fun k => ?_, fun j => ?_⟩
    · rw [suspendOne_eq]
      simpa using hu.closing
    · rw [suspendOne_eq]
      exact (sec_of_creel (by simp) k).trans (hu.sec k)
    · obtain hsame | hback := hu.record j
      · exact .inl ((hsp j).trans hsame)
      · exact .inr (hback.of_eq rfl rfl (hsp j))
  unfold suspendReturns at hfinal hsp
  by_cases hstate : (s.eng x).state = .orderOut
  · rw [if_pos hstate] at hfinal
    simp only [if_pos hstate] at hsp
    cases horder : (s.eng x).order with
    | none =>
      have hkept : returnOrdered x (suspendSends x s) = suspendSends x s := by
        unfold returnOrdered
        rw [heng, horder]
      refine ⟨hfinal _ hsent hkept.symm, fun o _ ho => by cases ho⟩
    | some o =>
      have hreturn := returnOrdered_some (x := x) (s := suspendSends x s) (by rw [heng, horder])
      obtain ⟨hall, hone⟩ := returnToPiecing_returned (i := o.index) htabled hsent.closing
      refine ⟨hfinal _ (hsent.trans hall) hreturn.symm, fun o' _ ho' hordered => ?_⟩
      cases ho'
      have hback := hone (by rw [sp_of_mon hmon]; exact hordered)
      rw [← hreturn] at hback
      exact hback.of_eq (sp_of_mon hmon _) (sec_of_creel hcreel _) (hsp _)
  · rw [if_neg hstate] at hfinal
    exact ⟨hfinal _ hsent rfl, fun o hyes => absurd hyes hstate⟩

/-! ### The engagements suspended, A before B -/

theorem suspensionOf_congr {s t : State} (x : Side) (heng : t.eng x = s.eng x) (hcfg : t.cfg = s.cfg) : suspensionOf x t = suspensionOf x s := by
  unfold suspensionOf
  rw [heng]
  cases (s.eng x).state <;> cases (s.eng x).robot <;> simp only [releaseOf_congr hcfg]

theorem suspendEngagements_cases (s : State) :
    s.cfg.joined = 1 ∧ s.joined = true ∧ suspendEngagements s = suspendOne .a s ∨
    s.cfg.joined ≠ 1 ∧ s.joined = false ∧ suspendEngagements s = suspendOne .b (suspendOne .a s) := by
  unfold suspendEngagements State.engagements
  by_cases hj : s.cfg.joined = 1
  · have hjoined : s.joined = true := (joined_iff s).2 hj
    exact .inl ⟨hj, hjoined, by rw [hjoined]; rfl⟩
  · have hjoined : s.joined = false := Bool.eq_false_iff.2 fun h => hj ((joined_iff s).1 h)
    exact .inr ⟨hj, hjoined, by rw [hjoined]; rfl⟩

theorem suspendEngagements_hands (s : State) : hands (suspensions s) s (suspendEngagements s) := by
  unfold suspensions
  obtain ⟨hj, -, ht⟩ | ⟨hj, -, ht⟩ := suspendEngagements_cases s
  · rw [if_pos hj, ht]
    exact suspendOne_hands .a s
  · rw [if_neg hj, ht]
    have hport : (suspendOne .a s).port = s.port := by simp
    have hsecond := suspendOne_hands .b (suspendOne .a s)
    rw [suspensionOf_congr .b ((suspendOne_eng .a s).2 .b (by decide)) (cfg_of_port hport)] at hsecond
    exact hands_trans (suspendOne_hands .a s) hport hsecond

theorem suspendEngagements_eng {x : Side} {s : State} (hx : x = .a ∨ s.cfg.joined ≠ 1) :
    (suspendEngagements s).eng x = (s.eng x).halted := by
  obtain ⟨hj, -, ht⟩ | ⟨hj, -, ht⟩ := suspendEngagements_cases s
  · rw [ht, hx.resolve_right fun h => h hj]
    exact (suspendOne_eng .a s).1
  · rw [ht]
    cases x with
    | a => exact ((suspendOne_eng .b _).2 .a (by decide)).trans (suspendOne_eng .a s).1
    | b => rw [(suspendOne_eng .b _).1, (suspendOne_eng .a s).2 .b (by decide)]

theorem suspendEngagements_returned {x : Side} {s : State} (hx : x = .a ∨ s.cfg.joined ≠ 1) (hs : s.tabled)
    (hc : s.shift.closing = none) {o : Order} (hstate : (s.eng x).state = .orderOut) (ho : (s.eng x).order = some o)
    (hordered : (s.sp o.index).state = .ordered) : ReturnedToPiecing o.index s (suspendEngagements s) := by
  obtain ⟨hfirst, hfirstOwn⟩ := suspendOne_returned (x := .a) hs hc
  obtain ⟨hj, -, ht⟩ | ⟨hj, -, ht⟩ := suspendEngagements_cases s
  · obtain rfl := hx.resolve_right fun h => h hj
    rw [ht]
    exact hfirstOwn o hstate ho hordered
  · obtain ⟨hsecond, hsecondOwn⟩ := suspendOne_returned (x := .b) hfirst.tabled hfirst.closing
    rw [ht]
    cases x with
    | a => exact hsecond.later (hfirstOwn o hstate ho hordered)
    | b =>
      have heng := (suspendOne_eng .a s).2 .b (by decide)
      obtain hsame | hback := hfirst.record o.index
      · exact (hsecondOwn o (by rw [heng]; exact hstate) (by rw [heng]; exact ho) (by rw [hsame]; exact hordered)).of_eq hsame
          (hfirst.sec _) rfl
      · exact hsecond.later hback

/-! ### The confirm end (R120) -/

/-- The state in which the grant stands: DOFF in the place of COP_FULL, and RUNDOWN. -/
def State.grantStands (s : State) : State :=
  setDoffState .rundown (removeHold .copFull (addHold .doff { s with doff := { s.doff with confirmEnd := none, firstClaim := none } }))

theorem enterRundown_eq (s : State) :
    enterRundown s = stopTest (announceAgain (sendDoffState (suspendEngagements s.grantStands))) := rfl

theorem grantStands_onlyIn (s : State) : onlyIn [.doff, .frame] s s.grantStands :=
  ⟨rfl, fun b hb => by cases b <;> simp_all [Block.same, State.grantStands, setDoffState, removeHold, addHold]⟩

theorem suspendSends_onlyIn (x : Side) (s : State) : onlyIn [.line, .frame] s (suspendSends x s) := by
  unfold suspendSends
  refine ⟨by cases (s.eng x).state <;> simp, fun b hb => ?_⟩
  cases (s.eng x).state <;> cases b <;> simp_all [Block.same]

theorem suspendOne_onlyIn (x : Side) (s : State) : onlyIn [.mon, .pie, .shift, .line, .frame] s (suspendOne x s) := by
  have hsends := suspendSends_onlyIn x s
  have hreturns : onlyIn [.mon, .pie, .shift, .line, .frame] s (suspendReturns x s) := by
    unfold suspendReturns
    split
    · exact onlyIn_seq hsends (returnOrdered_onlyIn x _) (by simp) (by simp)
    · exact onlyIn_mono hsends (by simp)
  rw [suspendOne_eq]
  exact onlyIn_seq hreturns (setEng_onlyIn ..) (by simp) (by simp)

theorem suspendEngagements_onlyIn (s : State) : onlyIn [.mon, .pie, .shift, .line, .frame] s (suspendEngagements s) := by
  obtain ⟨-, -, ht⟩ | ⟨-, -, ht⟩ := suspendEngagements_cases s
  · rw [ht]
    exact suspendOne_onlyIn .a s
  · rw [ht]
    exact onlyIn_seq (suspendOne_onlyIn .a s) (suspendOne_onlyIn .b _) (by simp) (by simp)

/-- The frame stands: RUN inactive and two pulse-free seconds. -/
def State.stands (s : State) : Prop := s.frame.run = false ∧ 2 ≤ s.del.pulseFree

/-- The payload of the DOFF_STATE of a phase. -/
def statePayload (phase : Nat) (d : Doff) : List Byte := field 1 phase ++ field 1 d.urgency.code ++ field 2 (d.grantedWait.getD 0)

theorem announceState_effect (s : State) :
    let t := announceAgain (sendDoffState s)
    onlyIn [.doff, .line, .frame] s t ∧ t.frame.besideAlerts = s.frame.besideAlerts ∧ t.frame.run = s.frame.run ∧
    t.doff = { s.doff with nextAnn := some (s.del.seconds + 5) } ∧
    hands [(.doffState, 0, statePayload s.doff.state.phase.code s.doff)] s t := by
  intro t
  have ht : t = { enqueue .doffState 0 (statePayload s.doff.state.phase.code s.doff) s with
      doff := { s.doff with nextAnn := some (s.del.seconds + 5) } } := stateAgain_eq s
  rw [ht]
  exact ⟨enqueue_setDoff_onlyIn .., by simp, by simp, rfl, hands_enqueue ..⟩

theorem stopTest_effect {s : State} (hstate : s.doff.state = .rundown) :
    let t := stopTest s
    onlyIn [.doff, .line, .frame] s t ∧ t.frame.besideAlerts = s.frame.besideAlerts ∧
    (s.stands → t.doff = { s.doff with
      state := .doffing, doffTimer := some (s.del.seconds + s.cfg.doffTime), nextAnn := some (s.del.seconds + 5) } ∧
      hands [(.doffState, 0, statePayload 3 s.doff)] s t) ∧
    (¬ s.stands → t = s) := by
  intro t
  by_cases hstands : s.stands
  · have ht := stopTest_stops hstate hstands.1 hstands.2
    rw [show t = _ from ht]
    exact ⟨enqueue_setDoff_onlyIn .., by simp, fun _ => ⟨rfl, hands_enqueue ..⟩, fun hno => absurd hstands hno⟩
  · have ht : t = s := stopTest_keeps fun h => hstands h.2
    rw [ht]
    exact ⟨⟨rfl, fun b _ => by cases b <;> rfl⟩, rfl, fun hyes => absurd hyes hstands, fun _ => rfl⟩

theorem enterRundown_effect (s : State) :
    let t := enterRundown s
    let u := suspendEngagements s.grantStands
    onlyIn [.mon, .pie, .doff, .shift, .line, .frame] s t ∧
    (s.stands → t.doff = { s.doff with
      confirmEnd := none, firstClaim := none, nextAnn := some (s.del.seconds + 5), state := .doffing
      doffTimer := some (s.del.seconds + s.cfg.doffTime) }) ∧
    (¬ s.stands → t.doff = { s.doff with
      confirmEnd := none, firstClaim := none, nextAnn := some (s.del.seconds + 5), state := .rundown }) ∧
    t.frame.besideAlerts = s.grantStands.frame.besideAlerts ∧ t.mon = u.mon ∧ t.pie = u.pie ∧
    (s.stands → hands (suspensions s ++ [(.doffState, 0, statePayload 2 s.doff)] ++ [(.doffState, 0, statePayload 3 s.doff)]) s t) ∧
    (¬ s.stands → hands (suspensions s ++ [(.doffState, 0, statePayload 2 s.doff)]) s t) := by
  intro t u
  have hgranted := grantStands_onlyIn s
  have hgdoff : s.grantStands.doff = { s.doff with confirmEnd := none, firstClaim := none, state := .rundown } := rfl
  have hgrun : s.grantStands.frame.run = s.frame.run := rfl
  have hsuspended := suspendEngagements_onlyIn s.grantStands
  have hblocks : onlyIn [.mon, .pie, .doff, .shift, .line, .frame] s u := onlyIn_seq hgranted hsuspended (by simp) (by simp)
  have hudoff : u.doff = s.grantStands.doff := hsuspended.2 .doff (by simp)
  have hurun : u.frame.run = s.grantStands.frame.run := (suspendEngagements_inputs s.grantStands).1
  have hualerts : u.frame.besideAlerts = s.grantStands.frame.besideAlerts := suspendEngagements_besideAlerts _
  have hudel : u.del = s.del := hblocks.2 .del (by simp)
  have huport : u.port = s.port := hblocks.2 .port (by simp)
  have hhands : hands (suspensions s) s u :=
    hands_congr (s := s.grantStands) (suspendEngagements_hands s.grantStands) rfl rfl rfl
  obtain ⟨hwblocks, hwalerts, hwrun, hwdoff, hwhands⟩ := announceState_effect u
  have hphase : u.doff.state.phase.code = 2 := by rw [hudoff, hgdoff]; rfl
  have hpayload : statePayload 2 u.doff = statePayload 2 s.doff := by rw [hudoff, hgdoff]; rfl
  rw [hphase, hpayload] at hwhands
  have ht : t = stopTest (announceAgain (sendDoffState u)) := enterRundown_eq s
  clear_value u
  generalize announceAgain (sendDoffState u) = w at *
  have hwdel : w.del = u.del := hwblocks.2 .del (by simp)
  have hwport : w.port = u.port := hwblocks.2 .port (by simp)
  obtain ⟨htblocks, htalerts, hstop, hstay⟩ := stopTest_effect (s := w) (by rw [hwdoff, hudoff, hgdoff])
  rw [← ht] at htblocks htalerts hstop hstay
  have hstands : w.stands ↔ s.stands := by unfold State.stands; rw [hwrun, hurun, hgrun, hwdel, hudel]
  have hstate2 := hands_trans hhands huport hwhands
  refine ⟨onlyIn_seq (onlyIn_seq (cs := [.mon, .pie, .doff, .shift, .line, .frame]) hblocks hwblocks (by simp) (by simp)) htblocks
    (by simp) (by simp), fun hyes => ?_, fun hno => ?_, htalerts.trans (hwalerts.trans hualerts),
    (htblocks.2 .mon (by simp)).trans (hwblocks.2 .mon (by simp)), (htblocks.2 .pie (by simp)).trans (hwblocks.2 .pie (by simp)),
    fun hyes => ?_, fun hno => ?_⟩
  · rw [(hstop (hstands.2 hyes)).1, hwdoff, hudoff, hgdoff, hwdel, hudel, cfg_of_port hwport, cfg_of_port huport]
  · rw [hstay fun h => hno (hstands.1 h), hwdoff, hudoff, hgdoff, hudel]
  · have hhands3 := (hstop (hstands.2 hyes)).2
    have hpayload3 : statePayload 3 w.doff = statePayload 3 s.doff := by rw [hwdoff, hudoff, hgdoff]; rfl
    rw [hpayload3] at hhands3
    exact hands_trans hstate2 (hwport.trans huport) hhands3
  · rw [hstay fun h => hno (hstands.1 h)]
    exact hstate2

/-- Settles O39. -/
theorem confirmEndEntersRundown : Obligations.ConfirmEndEntersRundown := by
  intro s due hw hdue
  have hexec : exec .confirmEnd s = .next
      (if s.doff.state = .granted ∧ reached s.now s.doff.confirmEnd then enterRundown s else s) := inRunning_works hw _
  have hreached : reached s.now s.doff.confirmEnd = true ↔ due ≤ s.del.seconds := by rw [hdue]; exact reached_some
  refine ⟨fun hno => ?_, fun hdue' hgranted => ?_⟩
  · rw [hexec, if_neg]
    rintro ⟨hstate, hr⟩
    obtain hearly | hother := hno
    · exact absurd (hreached.1 hr) (by omega)
    · exact hother hstate
  · rw [if_pos ⟨hgranted, hreached.2 hdue'⟩] at hexec
    obtain ⟨hblocks, hstood, hmoves, halerts, hmon, hpie, hhands3, hhands2⟩ := enterRundown_effect s
    refine ⟨_, hexec, hblocks, ?_, ?_, ?_, ?_, fun x hx => ?_⟩
    · by_cases hyes : s.frame.run = false ∧ 2 ≤ s.del.pulseFree
      · rw [hstood hyes, if_pos hyes, if_pos hyes]
      · rw [hmoves hyes, if_neg hyes, if_neg hyes]
    · exact (holds_of_besideAlerts halerts (c := .doff) (by decide)).trans rfl
    · exact (holds_of_besideAlerts halerts (c := .copFull) (by decide)).trans rfl
    · intro state
      by_cases hyes : s.frame.run = false ∧ 2 ≤ s.del.pulseFree
      · rw [if_pos hyes]
        exact hhands3 hyes
      · rw [if_neg hyes, List.append_nil]
        exact hhands2 hyes
    · have heng : (enterRundown s).eng x = (s.eng x).halted := (eng_of_pie hpie x).trans (suspendEngagements_eng (s := s.grantStands) hx)
      rw [heng]
      refine ⟨rfl, rfl, rfl, rfl, rfl, fun o hstate ho hordered htabled hc => ?_⟩
      have hgt : s.grantStands.tabled := SameTables.tabled (s := s) ⟨rfl, rfl, rfl, rfl, fun _ => rfl, fun _ => rfl, rfl⟩ htabled
      have hback := suspendEngagements_returned (s := s.grantStands) hx hgt hc hstate ho hordered
      rw [sp_of_mon hmon]
      exact ⟨hback.exchanging, hback.piecing⟩

end Sys2Proof.Machine
end

section
/-! PROOFS. The engagements at a line restart, and what the queue summary of a side rests on (R60, R83). -/

namespace Sys2Proof.Machine

/-! ### A summary that another side's record does not reach -/

/-- The queue summary of side `x`'s engagement is the same. -/
structure SameServed (x : Side) (s t : State) : Prop where
  entries : t.servedEntries x = s.servedEntries x
  waiting : t.servedWaiting x = s.servedWaiting x
  name : t.sideName x = s.sideName x
  now : t.del.seconds = s.del.seconds
  record : ∀ i ∈ (s.servedEntries x).map QueueEntry.index ++ s.servedWaiting x, t.sp i = s.sp i

theorem SameSummary.sameServed {s t : State} (h : SameSummary s t) (x : Side) : SameServed x s t :=
  ⟨h.entries x, h.servedWaiting x, h.sideName x, h.now, fun i _ => sp_of_mon h.mon i⟩

theorem SameServed.trans {x : Side} {s t u : State} (h : SameServed x s t) (h' : SameServed x t u) : SameServed x s u :=
  ⟨h'.entries.trans h.entries, h'.waiting.trans h.waiting, h'.name.trans h.name, h'.now.trans h.now, fun i hi =>
    (h'.record i (by rw [h.entries, h.waiting]; exact hi)).trans (h.record i hi)⟩

theorem oldestAge_congr {s t : State} (l : List Nat) (hnow : t.del.seconds = s.del.seconds) (h : ∀ i ∈ l, t.sp i = s.sp i) :
    t.oldestAge l = s.oldestAge l := by
  unfold State.oldestAge
  refine List.foldl_ext _ _ _ fun a i hi => ?_
  rw [h i hi, State.now, State.now, hnow]

theorem SameServed.callOf {x : Side} {s t : State} (h : SameServed x s t) (lowest highest : Nat) :
    callOf x lowest highest t = callOf x lowest highest s := by
  unfold Machine.callOf
  rw [h.name, h.entries, h.waiting, oldestAge_congr _ h.now h.record]

theorem SameServed.callIndices {x : Side} {lowest highest : Nat} {s t : State} (h : SameServed x s t)
    (hs : callIndices x lowest highest s) : callIndices x lowest highest t := by
  unfold Machine.callIndices at *
  rw [h.entries]
  exact hs

/-! ### An ordered record returned, beside the other side -/

theorem returnToPiecing_side_ne {i : Nat} {y : Side} {s : State} (h : y ≠ s.sideOf i) : (returnToPiecing i s).side y = s.side y := by
  have hport : (book i s).port = s.port := by simp
  have hbooked : (bookEnter i .exchange s).side y = s.side y :=
    (enter_side_ne (s := book i s) (by rw [sideOf_of_port hport]; exact h) .exchange).trans (side_of_pie (by simp) y)
  unfold returnToPiecing joinQueue
  split
  · split
    · exact hbooked
    · split
      · exact enter_side_ne h _
      · exact enter_side_ne h _
  · rfl

/-- Side A's summary does not see what side B's engagement does to a record of its own side. -/
theorem endEngagement_sameServed {s : State} (hs : s.tabled) (hsplit : s.joined = false)
    (hside : ∀ o, (s.eng .b).order = some o → s.sideOf o.index = .b) : SameServed .a s (endEngagement .b s) := by
  have hserved : s.served .a = [.a] := by unfold State.served; rw [hsplit]; rfl
  have hentries : s.servedEntries .a = (s.side .a).queue := by unfold State.servedEntries; rw [hserved]; simp
  have hwaiting : s.servedWaiting .a = (s.side .a).waiting := by unfold State.servedWaiting; rw [hserved]; simp
  have hreturned : SameServed .a s (returnOrdered .b s) := by
    cases ho : (s.eng .b).order with
    | none =>
      have hkept : returnOrdered .b s = s := by
        unfold returnOrdered
        rw [ho]
      rw [hkept]
      exact (SameSummary.refl s).sameServed .a
    | some o =>
      have hport : (returnToPiecing o.index s).port = s.port := by simp
      have hjoined : (returnToPiecing o.index s).joined = false := by
        unfold State.joined at hsplit ⊢
        rw [cfg_of_port hport]
        exact hsplit
      have hserved' : (returnToPiecing o.index s).served .a = [.a] := by unfold State.served; rw [hjoined]; rfl
      have hsame := returnToPiecing_side_ne (i := o.index) (y := .a) (s := s) (by rw [hside o ho]; decide)
      rw [returnOrdered_some ho]
      refine ⟨?_, ?_, ?_, by simp, fun i hi => returnToPiecing_sp_ne (fun heq => ?_) s⟩
      · rw [hentries, State.servedEntries, hserved']
        simp [hsame]
      · rw [hwaiting, State.servedWaiting, hserved']
        simp [hsame]
      · rw [State.sideName, State.sideName, hjoined, hsplit]
      · obtain ⟨-, -, hqueued, -⟩ := hs
        obtain ⟨-, -, -, hq, hw⟩ := hqueued .a
        have hown := hside o ho
        rw [heq] at hown
        rw [hentries, hwaiting] at hi
        have hother : s.sideOf i = .a := (List.mem_append.1 hi).elim (fun h => ((hq i).1 h).2.1) (fun h => ((hw i).1 h).2.1)
        rw [hown] at hother
        cases hother
  have hcalled : SameSummary (returnOrdered .b s) (endEngagement .b s) := by
    obtain ⟨honly, -⟩ := callOrIdle_effect .b (setEng .b ((returnOrdered .b s).eng .b).cleared (returnOrdered .b s))
    exact (engagementOnly_setEng ..).summary.trans honly.summary
  exact hreturned.trans (hcalled.sameServed .a)

/-! ### One engagement at a line restart (R83) -/

/-- A state has handed over side `x`'s PIECE_CALL where its engagement is left calling, and nothing where it is not. -/
def Called (x : Side) (call : List Handed) (t : State) : Prop :=
  ((t.eng x).state ≠ .calling → call = []) ∧
  ((t.eng x).state = .calling → ∃ lowest highest, call = [callOf x lowest highest t] ∧ callIndices x lowest highest t)

theorem Called.length_le {x : Side} {call : List Handed} {t : State} (h : Called x call t) : call.length ≤ 1 := by
  by_cases hcalling : (t.eng x).state = .calling
  · obtain ⟨_, _, hcall, -⟩ := h.2 hcalling
    rw [hcall]
    rfl
  · rw [h.1 hcalling]
    exact Nat.zero_le _

theorem Called.of_served {x : Side} {call : List Handed} {s t : State} (h : Called x call s) (heng : t.eng x = s.eng x)
    (hsame : SameServed x s t) : Called x call t := by
  refine ⟨fun hno => h.1 (by rw [← heng]; exact hno), fun hyes => ?_⟩
  obtain ⟨lowest, highest, hcall, hindices⟩ := h.2 (by rw [← heng]; exact hyes)
  exact ⟨lowest, highest, by rw [hcall, hsame.callOf], hsame.callIndices hindices⟩

/-- What a line restart makes of one engagement. -/
structure EngagementRestarted (x : Side) (s t : State) : Prop where
  quiet : (s.eng x).state = .idle ∨ (s.eng x).state = .suspended → t = s
  calling : (s.eng x).state = .calling → t.eng x = (s.eng x).calls s.del.seconds
  engaged : (s.eng x).state = .awaiting ∨ (s.eng x).state = .working ∨ (s.eng x).state = .orderOut →
    t.eng x = if t.queuesEmpty x = true then (s.eng x).cleared.idles else (s.eng x).cleared.calls s.del.seconds
  other : ∀ y, y ≠ x → t.eng y = s.eng y
  bar : ∀ y, (t.side y).bar = (s.side y).bar
  blocks : onlyIn [.mon, .pie, .shift, .line, .frame, .draws] s t
  called : ∃ call, hands call s t ∧ Called x call t

theorem endEngagement_restarted {x : Side} {s : State}
    (h : (s.eng x).state = .awaiting ∨ (s.eng x).state = .working ∨ (s.eng x).state = .orderOut) :
    EngagementRestarted x s (endEngagement x s) := by
  obtain ⟨heng, hother, hbar, -, hblocks, hidle, hcalls⟩ := endEngagement_effect x s
  generalize endEngagement x s = t at *
  refine ⟨fun h' => ?_, fun h' => ?_, fun _ => heng, hother, hbar, hblocks, ?_⟩
  · rcases h with h | h | h <;> rw [h] at h' <;> exact absurd h' (by decide)
  · rcases h with h | h | h <;> rw [h] at h' <;> cases h'
  · cases hempty : t.queuesEmpty x with
    | true =>
      rw [if_pos hempty] at heng
      exact ⟨[], hands_of_line (hidle hempty), fun _ => rfl, fun hyes => by rw [heng] at hyes; cases hyes⟩
    | false =>
      rw [if_neg (by rw [hempty]; decide)] at heng
      obtain ⟨lowest, highest, hcall, hindices⟩ := hcalls hempty
      exact ⟨_, hcall, fun hno => absurd (by rw [heng]; rfl) hno, fun _ => ⟨lowest, highest, rfl, hindices⟩⟩

theorem restartEngagement_restarted (x : Side) (s : State) : EngagementRestarted x s (restartEngagement x s) := by
  have hquiet : (s.eng x).state = .idle ∨ (s.eng x).state = .suspended → EngagementRestarted x s s := fun h =>
    ⟨fun _ => rfl, fun h' => (by rcases h with h | h <;> rw [h] at h' <;> cases h'),
      fun h' => (by rcases h with h | h <;> rw [h] at h' <;> exact absurd h' (by decide)), fun _ _ => rfl, fun _ => rfl,
      ⟨rfl, fun b _ => by cases b <;> rfl⟩,
      [], hands_of_line rfl, fun _ => rfl, fun h' => (by rcases h with h | h <;> rw [h] at h' <;> cases h')⟩
  unfold restartEngagement
  cases hstate : (s.eng x).state with
  | idle => exact hquiet (.inl hstate)
  | suspended => exact hquiet (.inr hstate)
  | awaiting => exact endEngagement_restarted (.inl hstate)
  | working => exact endEngagement_restarted (.inr (.inl hstate))
  | orderOut => exact endEngagement_restarted (.inr (.inr hstate))
  | calling =>
    obtain ⟨honly, hblocks, lowest, highest, hcall, hindices⟩ := enterCalling_effect x s
    dsimp only
    refine ⟨fun h => ?_, fun _ => honly.eng, fun h => ?_, honly.other, honly.bar, onlyIn_mono hblocks (by simp), _, hcall,
      fun hno => absurd (by rw [honly.eng]; rfl) hno, fun _ => ⟨lowest, highest, rfl, hindices⟩⟩
    · rw [hstate] at h
      exact absurd h (by decide)
    · rw [hstate] at h
      exact absurd h (by decide)

theorem restartEngagement_sameServed {s : State} (hs : s.tabled) (hsplit : s.joined = false)
    (hside : ∀ o, (s.eng .b).order = some o → s.sideOf o.index = .b) : SameServed .a s (restartEngagement .b s) := by
  have hended := endEngagement_sameServed hs hsplit hside
  have hkept : SameServed .a s s := (SameSummary.refl s).sameServed .a
  unfold restartEngagement
  cases (s.eng .b).state with
  | idle | suspended => exact hkept
  | awaiting | working | orderOut => exact hended
  | calling => exact (enterCalling_effect .b s).1.summary.sameServed .a

/-! ### Both engagements, A before B -/

theorem restartPiecing_cases (s : State) :
    s.cfg.joined = 1 ∧ restartPiecing s = restartEngagement .a s ∨
    s.cfg.joined ≠ 1 ∧ s.joined = false ∧ restartPiecing s = restartEngagement .b (restartEngagement .a s) := by
  unfold restartPiecing State.engagements
  by_cases hj : s.cfg.joined = 1
  · exact .inl ⟨hj, by rw [(joined_iff s).2 hj]; rfl⟩
  · have hjoined : s.joined = false := Bool.eq_false_iff.2 fun h => hj ((joined_iff s).1 h)
    exact .inr ⟨hj, hjoined, by rw [hjoined]; rfl⟩

/-- What a line restart makes of the engagements that act, in every state. -/
structure PiecingRestarted (s t : State) : Prop where
  bar : ∀ y, (t.side y).bar = (s.side y).bar
  blocks : onlyIn [.mon, .pie, .shift, .line, .frame, .draws] s t
  quiet : ∀ x, (s.eng x).state = .idle ∨ (s.eng x).state = .suspended → t.eng x = s.eng x
  calling : ∀ x, x = .a ∨ s.cfg.joined ≠ 1 → (s.eng x).state = .calling → t.eng x = (s.eng x).calls s.del.seconds
  engaged : ∀ x, x = .a ∨ s.cfg.joined ≠ 1 →
    (s.eng x).state = .awaiting ∨ (s.eng x).state = .working ∨ (s.eng x).state = .orderOut →
    t.eng x = (s.eng x).cleared.idles ∨ t.eng x = (s.eng x).cleared.calls s.del.seconds
  called : ∃ callA callB : List Handed, hands (callA ++ callB) s t ∧ callA.length ≤ 1 ∧ callB.length ≤ 1 ∧
    (s.tabled → (s.cfg.joined ≠ 1 → ∀ o, (s.eng .b).order = some o → s.sideOf o.index = .b) →
      Called .a callA t ∧ (s.cfg.joined = 1 → callB = []) ∧ (s.cfg.joined ≠ 1 → Called .b callB t))

theorem EngagementRestarted.engaged_or {x : Side} {s t : State} (h : EngagementRestarted x s t)
    (hx : (s.eng x).state = .awaiting ∨ (s.eng x).state = .working ∨ (s.eng x).state = .orderOut) :
    t.eng x = (s.eng x).cleared.idles ∨ t.eng x = (s.eng x).cleared.calls s.del.seconds := by
  have heng := h.engaged hx
  by_cases hempty : t.queuesEmpty x = true
  · exact .inl (heng.trans (if_pos hempty))
  · exact .inr (heng.trans (if_neg hempty))

theorem restartPiecing_restarted (s : State) : PiecingRestarted s (restartPiecing s) := by
  have hfirst := restartEngagement_restarted .a s
  have htabled := fun hs : s.tabled => tabled_restartEngagement hs .a
  obtain ⟨hj, ht⟩ | ⟨hj, hsplit, ht⟩ := restartPiecing_cases s
  · rw [ht]
    generalize restartEngagement .a s = t at *
    obtain ⟨call, hhands, hcalled⟩ := hfirst.called
    have hxa : ∀ {x : Side}, x = .a ∨ s.cfg.joined ≠ 1 → x = .a := fun hx => hx.resolve_right fun h => h hj
    refine ⟨hfirst.bar, hfirst.blocks, fun x hx => ?_, fun x hx hstate => ?_, fun x hx hstate => ?_, call, [], ?_, hcalled.length_le,
      Nat.zero_le _, fun _ _ => ⟨hcalled, fun _ => rfl, fun h => absurd hj h⟩⟩
    · cases x with
      | a => rw [hfirst.quiet hx]
      | b => exact hfirst.other .b (by decide)
    · cases hxa hx
      exact hfirst.calling hstate
    · cases hxa hx
      exact hfirst.engaged_or hstate
    · rw [List.append_nil]
      exact hhands
  · rw [ht]
    have hsecond := restartEngagement_restarted .b (restartEngagement .a s)
    have hserved := restartEngagement_sameServed (s := restartEngagement .a s)
    generalize restartEngagement .a s = u at *
    generalize restartEngagement .b u = t at *
    have hbeng : u.eng .b = s.eng .b := hfirst.other .b (by decide)
    have haeng : t.eng .a = u.eng .a := hsecond.other .a (by decide)
    have hdel : u.del = s.del := hfirst.blocks.2 .del (by simp)
    have hport : u.port = s.port := hfirst.blocks.2 .port (by simp)
    obtain ⟨callA, hhandsA, hcalledA⟩ := hfirst.called
    obtain ⟨callB, hhandsB, hcalledB⟩ := hsecond.called
    refine ⟨fun y => (hsecond.bar y).trans (hfirst.bar y), onlyIn_seq hfirst.blocks hsecond.blocks (by simp) (by simp), fun x hx => ?_,
      fun x _ hstate => ?_, fun x _ hstate => ?_, callA, callB, hands_trans hhandsA hport hhandsB, hcalledA.length_le,
      hcalledB.length_le, fun hs hside => ⟨?_, fun h => absurd h hj, fun _ => hcalledB⟩⟩
    · cases x with
      | a => rw [haeng, hfirst.quiet hx]
      | b =>
        rw [← hbeng] at hx ⊢
        rw [hsecond.quiet hx]
    · cases x with
      | a => exact haeng.trans (hfirst.calling hstate)
      | b =>
        rw [← hbeng] at hstate ⊢
        rw [hsecond.calling hstate, hdel]
    · cases x with
      | a =>
        rw [haeng]
        exact hfirst.engaged_or hstate
      | b =>
        rw [← hbeng] at hstate ⊢
        rw [← hdel]
        exact hsecond.engaged_or hstate
    · refine hcalledA.of_served haeng (hserved (htabled hs) ?_ fun o ho => ?_)
      · unfold State.joined at hsplit ⊢
        rw [cfg_of_port hport]
        exact hsplit
      · rw [sideOf_of_port hport]
        exact hside hj o (by rw [← hbeng]; exact ho)

end Sys2Proof.Machine
end

section
/-! PROOFS. A line restart in RUNNING (R83, R97, R129, R171). -/

namespace Sys2Proof.Machine

/-! ### A queue with room counts nothing (R166) -/

theorem joined_withRoom (t : Telegram) {l : Line} (h : l.out.length < 8) :
    (joined t l).2 = false ∧ (joined t l).1.counters = l.counters ∧ (joined t l).1.out.length ≤ l.out.length + 1 := by
  by_cases hkey : ∃ q ∈ l.out, q.tel.sameKey t = true
  · rw [joined_replaced hkey]
    exact ⟨rfl, rfl, by simp⟩
  · have hnone : ∀ q ∈ l.out, q.tel.sameKey t = false := fun q hq => Bool.eq_false_iff.2 fun h => hkey ⟨q, hq, h⟩
    rw [joined_room hnone h]
    exact ⟨rfl, rfl, ((perm_insertOutgoing _ _).length_eq.trans (by simp)).le⟩

theorem enqueue_withRoom (kind : Kind) (dest : Nat) (payload : List Byte) {s : State} (h : s.line.out.length < 8) :
    (enqueue kind dest payload s).line.counters = s.line.counters ∧
    (enqueue kind dest payload s).line.out.length ≤ s.line.out.length + 1 := by
  unfold enqueue joinLine
  split
  · obtain ⟨hdropped, hcounters, hlength⟩ :=
      joined_withRoom { kind := kind, source := s.cfg.station, dest := dest, payload := payload } h
    dsimp only
    rw [if_neg (by rw [hdropped]; decide)]
    exact ⟨hcounters, hlength⟩
  · exact ⟨rfl, Nat.le_succ _⟩

theorem handAll_withRoom (l : List Handed) {s : State} (h : s.line.out.length + l.length ≤ 8) :
    (handAll l s).line.counters = s.line.counters := by
  induction l generalizing s with
  | nil => rfl
  | cons m l ih =>
    rw [List.length_cons] at h
    obtain ⟨hcounters, hlength⟩ := enqueue_withRoom m.1 m.2.1 m.2.2 (s := s) (by omega)
    exact (ih (s := enqueue m.1 m.2.1 m.2.2 s) (by omega)).trans hcounters

/-! ### The line restart, block by block -/

/-- The line as the restart finds it emptied. -/
def State.emptied (s : State) : State := { s with line := { s.line.cleared with restartedAt := s.del.seconds } }

theorem restarting_hands (s : State) : hands [(.stationRestart, 0, [])] s.emptied (restarting s) := by
  have hjoins := hands_enqueue .stationRestart 0 [] { s.emptied with doff := { s.doff with view := [] } }
  exact hands_congr (s := { s.emptied with doff := { s.doff with view := [] } }) hjoins rfl rfl rfl

theorem restarting_onlyIn (s : State) : onlyIn [.doff, .line, .frame] s (restarting s) :=
  ⟨by simp [restarting], fun b hb => by cases b <;> simp_all [Block.same, restarting]⟩

theorem restartCreel_onlyIn (s : State) : onlyIn [.creel, .line, .frame] s (restartCreel s) :=
  ⟨by simp, fun b hb => by cases b <;> simp_all [Block.same]⟩

theorem restartDoff_onlyIn (s : State) : onlyIn [.doff, .line, .frame] s (restartDoff s) :=
  ⟨by simp, fun b hb => by cases b <;> simp_all [Block.same]⟩

theorem dueAnnounced_length (s : State) : (dueAnnounced s).length ≤ 1 := by
  unfold dueAnnounced
  split <;> simp

theorem doffAnnounced_length (s : State) : (doffAnnounced s).length ≤ 1 := by
  unfold doffAnnounced
  cases s.doff.state <;> simp

theorem doffAnnounced_congr {s t : State} (hdoff : t.doff = { s.doff with view := [] }) (hdel : t.del = s.del) (hport : t.port = s.port) :
    doffAnnounced t = doffAnnounced s := by
  unfold doffAnnounced State.fill State.count
  rw [hdoff, hdel, cfg_of_port hport]

/-- What a line restart hands over, and what it leaves of the engagements. -/
theorem lineRestart_effect (s : State) :
    let t := lineRestart s
    onlyIn [.mon, .pie, .creel, .doff, .shift, .line, .frame, .draws] s t ∧
    ∃ u, PiecingRestarted (restarting s) u ∧ SameSummary u t ∧ t.pie = u.pie ∧
      ∀ calls, hands calls (restarting s) u →
        hands ([(.stationRestart, 0, [])] ++ calls ++ dueAnnounced s ++ doffAnnounced s) s.emptied t := by
  intro t
  have hpiecing := restartPiecing_restarted (restarting s)
  have ht : t = restartDoff (restartCreel (restartPiecing (restarting s))) := lineRestart_eq s
  obtain ⟨hdoff, hdel⟩ := restarted_doff s
  generalize restartPiecing (restarting s) = u at *
  have hstarted := restarting_onlyIn s
  have hcreel := restartCreel_onlyIn u
  have hlast := restartDoff_onlyIn (restartCreel u)
  have hduehands := restartCreel_hands u
  have hdoffhands := restartDoff_hands (restartCreel u)
  rw [← ht] at hlast hdoffhands
  generalize restartCreel u = v at *
  have hsport : (restarting s).port = s.port := hstarted.2 .port (by simp)
  have huport : u.port = (restarting s).port := hpiecing.blocks.2 .port (by simp)
  have hucreel : u.creel = s.creel := (hpiecing.blocks.2 .creel (by simp)).trans (hstarted.2 .creel (by simp))
  have hvport : v.port = u.port := hcreel.2 .port (by simp)
  have hdue : dueAnnounced u = dueAnnounced s := by unfold dueAnnounced; rw [hucreel]
  have hann : doffAnnounced v = doffAnnounced s := doffAnnounced_congr hdoff hdel (hvport.trans (huport.trans hsport))
  have htpie : t.pie = u.pie := (hlast.2 .pie (by simp)).trans (hcreel.2 .pie (by simp))
  refine ⟨onlyIn_seq (onlyIn_seq (cs := [.mon, .pie, .creel, .doff, .shift, .line, .frame, .draws]) hstarted hpiecing.blocks (by simp)
    (by simp)) (onlyIn_seq (cs := [.mon, .pie, .creel, .doff, .shift, .line, .frame, .draws]) hcreel hlast (by simp) (by simp))
    (by simp) (by simp), u, hpiecing, ?_, htpie, fun calls hcalls => ?_⟩
  · exact .of_pie ((hlast.2 .mon (by simp)).trans (hcreel.2 .mon (by simp))) ((hlast.2 .del (by simp)).trans (hcreel.2 .del (by simp)))
      ((hlast.2 .port (by simp)).trans (hcreel.2 .port (by simp))) htpie
  · rw [hdue] at hduehands
    rw [hann] at hdoffhands
    have hemptied : (restarting s).port = s.emptied.port := hsport
    have hstart := hands_trans (restarting_hands s) hemptied hcalls
    have hthen := hands_trans hstart (huport.trans hemptied) hduehands
    exact hands_trans hthen (hvport.trans (huport.trans hemptied)) hdoffhands

/-- The line after a restart: the STATION_RESTART at the head of its queue, nothing else kept, nothing counted. -/
theorem lineRestart_line {s : State} (h : s.running = true) :
    (lineRestart s).line.out.head? = some (restartEntry s) ∧
    (lineRestart s).line.besideQueue = { s.line.cleared.besideQueue with restartedAt := s.del.seconds } ∧
    (lineRestart s).line.counters = LineCounters.zero := by
  have htraffic := lineRestart_traffic s
  obtain ⟨-, -, rest, hout⟩ := traffic_headedBy htraffic (restarting_headedBy h)
  have hrest := traffic_besideQueue htraffic
  rw [restarting_line h] at hrest
  obtain ⟨-, u, hpiecing, -, -, hall⟩ := lineRestart_effect s
  obtain ⟨callA, callB, hhands, hA, hB, -⟩ := hpiecing.called
  have hthanded := hall _ hhands
  have hroom : s.emptied.line.out.length +
      ([(.stationRestart, 0, [])] ++ (callA ++ callB) ++ dueAnnounced s ++ doffAnnounced s : List Handed).length ≤ 8 := by
    have hdue := dueAnnounced_length s
    have hdoff := doffAnnounced_length s
    have hnone : s.emptied.line.out.length = 0 := rfl
    simp only [List.length_append, List.length_cons, List.length_nil]
    omega
  refine ⟨by rw [hout]; rfl, hrest, ?_⟩
  rw [show (lineRestart s).line = _ from hthanded, handAll_withRoom _ hroom]
  rfl

theorem lineRestart_creel (s : State) : (lineRestart s).creel = { s.creel with
    announceFrom := some s.del.seconds
    dueSentAt := if s.creel.dueList = [] then s.creel.dueSentAt else some s.del.seconds } := by
  have hbefore : (restartPiecing (restarting s)).creel = s.creel ∧ (restartPiecing (restarting s)).del = s.del := by
    simp [restarting]
  obtain ⟨hcreel, hdel⟩ := hbefore
  rw [lineRestart_eq, (restartDoff_frame _).2.2.2.1, restartCreel_creel, hcreel, hdel]

theorem Called.of_port {x : Side} {call : List Handed} {t : State} (h : Called x call t) {p : Port} (hp : p.config = t.port.config) :
    Called x call { t with port := p } := by
  have hcfg : State.cfg { t with port := p } = t.cfg := congrArg (fun c : Option Configuration => c.getD Configuration.blank) hp
  have hsame : SameSummary t { t with port := p } := ⟨rfl, rfl, hcfg, fun _ => rfl, fun _ => rfl⟩
  exact h.of_served rfl (hsame.sameServed x)

/-- Settles O51. -/
theorem lineRestartForgetsCommitments : Obligations.LineRestartForgetsCommitments := by
  intro s tag hopen hw now d anew
  have hrunning := running_of_works hw
  have hexec : exec (.lineRestart tag) s = .next { lineRestart s with port := { (lineRestart s).port with
      executing := some (.lineRestart tag) } } := by
    have hrow : exec (.lineRestart tag) s = hostRow .lineRestart tag s := rfl
    have heffect : perform .lineRestart tag s = _ := whileRunning_works hrunning _
    rw [hrow, hostRow_open hopen, heffect]
    rfl
  obtain ⟨hblocks, u, hpiecing, hsummary, hpie, hhands⟩ := lineRestart_effect s
  obtain ⟨hhead, hrest, hcounters⟩ := lineRestart_line hrunning
  have hcreel := lineRestart_creel s
  obtain ⟨hrdoff, hrdel⟩ := restarted_doff s
  obtain ⟨hclaims, hgranted, hgoing, hresting⟩ := restartDoff_doff (restartCreel (restartPiecing (restarting s)))
  rw [hrdoff, ← lineRestart_eq] at hclaims hgranted hgoing hresting
  rw [hrdel] at hclaims hgranted hgoing
  have hport : (lineRestart s).port = s.port := hblocks.2 .port (by simp)
  rw [hport] at hexec
  have heng : ∀ x, (lineRestart s).eng x = u.eng x := eng_of_pie hpie
  have hside : ∀ x, (lineRestart s).side x = u.side x := side_of_pie hpie
  have hstarted := restarting_onlyIn s
  have hseng : ∀ x, (restarting s).eng x = s.eng x := eng_of_pie (hstarted.2 .pie (by simp))
  have hsport : (restarting s).port = s.port := hstarted.2 .port (by simp)
  have hsdel : (restarting s).del = s.del := hstarted.2 .del (by simp)
  have hquiet := hpiecing.quiet
  have hcalling := hpiecing.calling
  have hengaged := hpiecing.engaged
  simp only [hseng, hsdel, cfg_of_port hsport] at hquiet hcalling hengaged
  generalize lineRestart s = t at *
  refine ⟨_, hexec, onlyIn_setPort (onlyIn_mono hblocks (by simp)) (by simp) _, rfl, ?_, ?_, ?_, ?_, ?_, ?_, ?_, hcounters, hhead,
    fun x => ?_, fun x hx => ⟨fun h => ?_, fun h => ?_, fun h => ?_⟩, fun htabled hown => ?_, hcreel, hclaims, hgranted, hgoing, hresting⟩
  · exact congrArg Line.rx hrest
  · exact congrArg Line.sending hrest
  · exact congrArg Line.idle hrest
  · exact congrArg Line.lastHeard hrest
  · exact congrArg Line.liveQuiet hrest
  · exact congrArg Line.stickyQuiet hrest
  · exact congrArg Line.restartedAt hrest
  · have hbar : (t.side x).bar = (s.side x).bar := by
      rw [hside, hpiecing.bar, side_of_pie (hstarted.2 .pie (by simp))]
    exact hbar
  · exact (heng x).trans (hquiet x h)
  · have hx := (heng x).trans (hcalling x hx h)
    show (t.eng x).state = _ ∧ (t.eng x).sinceCall = _ ∧ (t.eng x).nextCall = _
    rw [hx]
    exact ⟨rfl, rfl, rfl⟩
  · show (t.eng x).robot = _ ∧ (t.eng x).order = _ ∧ (t.eng x).timer = _ ∧ ((t.eng x).state = .calling ∨ (t.eng x).state = .idle)
    rw [heng]
    obtain h | h := hengaged x hx h
    · rw [h]
      exact ⟨rfl, rfl, rfl, .inr rfl⟩
    · rw [h]
      exact ⟨rfl, rfl, rfl, .inl rfl⟩
  · intro emptied calls due
    obtain ⟨callA, callB, hcalls, -, -, hcalled⟩ := hpiecing.called
    have hstabled : (restarting s).tabled := tabled_of_blocks (hstarted.2 .mon (by simp)) (hstarted.2 .pie (by simp))
      (hstarted.2 .creel (by simp)) hsport htabled
    obtain ⟨hcalledA, hjoinedB, hcalledB⟩ := hcalled hstabled (by
      rw [cfg_of_port hsport]
      intro hj o ho
      rw [sideOf_of_port hsport]
      exact hown hj o (by rw [← hseng]; exact ho))
    have hfinal : ∀ {x call}, Called x call u → Called x call { t with port := { s.port with executing := some (.lineRestart tag) } } :=
      fun {x call} h => (h.of_served (heng x) (hsummary.sameServed x)).of_port (congrArg Port.config hport).symm
    refine ⟨callA, callB, ?_, fun x => ?_⟩
    · have hall := hhands _ hcalls
      rw [← List.append_assoc] at hall
      exact hall
    · intro call
      cases x with
      | a =>
        have hdone := hfinal hcalledA
        exact ⟨fun hno => hdone.1 fun h => hno ⟨.inl rfl, h⟩, fun hyes => hdone.2 hyes.2⟩
      | b =>
        by_cases hj : s.cfg.joined = 1
        · exact ⟨fun _ => hjoinedB (by rw [cfg_of_port hsport]; exact hj), fun hyes => (hyes.1.elim nofun fun h => h hj).elim⟩
        · have hdone := hfinal (hcalledB (by rw [cfg_of_port hsport]; exact hj))
          exact ⟨fun hno => hdone.1 fun h => hno ⟨.inr hj, h⟩, fun hyes => hdone.2 hyes.2⟩

end Sys2Proof.Machine
end

section
/-! PROOFS. The engagements resumed, DOFF_REQUEST and DOFF_ABANDON (R82, R119, R127). -/

namespace Sys2Proof.Machine

/-! ### The engagements resumed (R82) -/

/-- One engagement resumed where it is SUSPENDED. -/
def resumeSuspended (x : Side) (s : State) : State := if (s.eng x).state = .suspended then callOrIdle x s else s

theorem resumeSuspended_effect (x : Side) (s : State) :
    let t := resumeSuspended x s
    onlyIn [.pie, .line, .frame, .draws] s t ∧ SameSummary s t ∧ (∀ y, y ≠ x → t.eng y = s.eng y) ∧
    ((s.eng x).state = .suspended → (t.eng x).state = if s.queuesEmpty x = true then .idle else .calling) := by
  intro t
  by_cases hstate : (s.eng x).state = .suspended
  · obtain ⟨honly, hblocks, -⟩ := callOrIdle_effect x s
    have ht : t = callOrIdle x s := if_pos hstate
    rw [ht]
    refine ⟨hblocks, honly.summary, honly.other, fun _ => ?_⟩
    rw [honly.eng]
    split <;> rfl
  · have ht : t = s := if_neg hstate
    rw [ht]
    exact ⟨⟨rfl, fun b _ => by cases b <;> rfl⟩, .refl s, fun _ _ => rfl, fun h => absurd h hstate⟩

theorem resumeEngagements_cases (s : State) :
    s.cfg.joined = 1 ∧ resumeEngagements s = resumeSuspended .a s ∨
    s.cfg.joined ≠ 1 ∧ resumeEngagements s = resumeSuspended .b (resumeSuspended .a s) := by
  unfold resumeEngagements State.engagements
  by_cases hj : s.cfg.joined = 1
  · exact .inl ⟨hj, by rw [(joined_iff s).2 hj]; rfl⟩
  · have hjoined : s.joined = false := Bool.eq_false_iff.2 fun h => hj ((joined_iff s).1 h)
    exact .inr ⟨hj, by rw [hjoined]; rfl⟩

theorem resumeEngagements_effect (s : State) :
    let t := resumeEngagements s
    onlyIn [.pie, .line, .frame, .draws] s t ∧ SameSummary s t ∧
    ∀ x, x = .a ∨ s.cfg.joined ≠ 1 → (s.eng x).state = .suspended →
      (t.eng x).state = if s.queuesEmpty x = true then .idle else .calling := by
  intro t
  obtain ⟨hfirst, hsummary, hother, hsuspended⟩ := resumeSuspended_effect .a s
  obtain ⟨hj, ht⟩ | ⟨hj, ht⟩ := resumeEngagements_cases s
  · rw [show t = _ from ht]
    refine ⟨hfirst, hsummary, fun x hx => ?_⟩
    obtain rfl := hx.resolve_right fun h => h hj
    exact hsuspended
  · obtain ⟨hsecond, hsummary', hother', hsuspended'⟩ := resumeSuspended_effect .b (resumeSuspended .a s)
    rw [show t = _ from ht]
    refine ⟨onlyIn_seq hfirst hsecond (by simp) (by simp), hsummary.trans hsummary', fun x _ hstate => ?_⟩
    cases x with
    | a =>
      rw [hother' .a (by decide)]
      exact hsuspended hstate
    | b =>
      rw [hsuspended' (by rw [hother .b (by decide)]; exact hstate), hsummary.queuesEmpty]

/-! ### DOFF_REQUEST (R119) -/

theorem claim_onlyIn (manual : Bool) (s : State) : onlyIn [.doff, .line, .frame] s (claim manual s) :=
  ⟨by simp, fun b hb => by cases b <;> simp_all [Block.same]⟩

theorem doDoffRequest_spinning {s : State} (hw : s.works) (h : s.doff.state = .spinning) :
    doDoffRequest s = Effect.done (claim true s) := by
  unfold doDoffRequest
  rw [h]
  exact whileRunning_works (running_of_works hw) _

theorem doDoffRequest_claiming {s : State} (hw : s.works) (h : s.doff.state = .claimed ∨ s.doff.state = .fullWait) :
    doDoffRequest s = Effect.done { s with doff := { s.doff with manual := true } } := by
  unfold doDoffRequest
  rcases h with h | h <;> rw [h] <;> exact whileRunning_works (running_of_works hw) _

theorem doDoffRequest_busy {s : State} (hw : s.works) (h : s.doff.state ≠ .spinning) (h' : s.doff.state ≠ .claimed)
    (h'' : s.doff.state ≠ .fullWait) : doDoffRequest s = Effect.refuse .busy s := by
  unfold doDoffRequest
  cases hstate : s.doff.state with
  | spinning => exact absurd hstate h
  | claimed => exact absurd hstate h'
  | fullWait => exact absurd hstate h''
  | _ => exact whileRunning_works (running_of_works hw) _

/-! ### DOFF_ABANDON (R127) -/

theorem abandon_eq (s : State) : abandon s = removeHold .doff (removeHold .copFull { enqueue .doffWithdraw 0 [] s with doff :=
    { s.doff with
      state := .spinning, firstClaim := none, nextAnn := none, listenEnd := none, confirmEnd := none, urgency := .normal
      manual := false, grantedWait := none } }) := by
  have hdoff : (enqueue .doffWithdraw 0 [] s).doff = s.doff := by simp
  unfold abandon
  dsimp only
  rw [hdoff]

theorem abandon_effect (s : State) :
    let t := abandon s
    onlyIn [.doff, .line, .frame] s t ∧ t.frame.holds.doff = false ∧ t.frame.holds.copFull = false ∧
    t.doff = { s.doff with
      state := .spinning, firstClaim := none, nextAnn := none, listenEnd := none, confirmEnd := none, urgency := .normal
      manual := false, grantedWait := none } ∧
    t.line = (enqueue .doffWithdraw 0 [] s).line := by
  intro t
  refine ⟨⟨by simp [t], fun b hb => ?_⟩, ?_⟩
  · cases b <;> simp_all [Block.same, t]
  · rw [show t = _ from abandon_eq s]
    exact ⟨rfl, rfl, rfl, rfl⟩

theorem doDoffAbandon_works {s : State} (hw : s.works) (h : s.doff.state = .claimed ∨ s.doff.state = .fullWait ∨
    s.doff.state = .granted ∨ s.doff.state = .unknown) : doDoffAbandon s = Effect.done (abandon s) := by
  unfold doDoffAbandon
  rcases h with h | h | h | h <;> rw [h] <;> exact whileRunning_works (running_of_works hw) _

theorem doDoffAbandon_rundown {s : State} (hw : s.works) (h : s.doff.state = .rundown) :
    doDoffAbandon s = Effect.done (resumeEngagements (abandon s)) := by
  unfold doDoffAbandon
  rw [h]
  exact whileRunning_works (running_of_works hw) _

theorem doDoffAbandon_refused {s : State} (hw : s.works) (h : s.doff.state = .spinning ∨ s.doff.state = .doffing ∨
    s.doff.state = .restart ∨ s.doff.state = .settling) : doDoffAbandon s = Effect.refuse .notAbandonable s := by
  unfold doDoffAbandon
  rcases h with h | h | h | h <;> rw [h] <;> exact whileRunning_works (running_of_works hw) _

end Sys2Proof.Machine
end

section
/-! PROOFS. The article switch: every record booked, the run closed, the NORMAL sections rebased (R17, R88, R147, R148). -/

namespace Sys2Proof.Machine

/-! ### Records booked up to the present count, also during a close -/

/-- A record that a booking at this count, under this close mark, leaves as it is. -/
def Spindle.upToDate (count : Nat) (mark : Nat × Option (Nat × Bool)) (r : Spindle) : Prop :=
  r.bookedTo = none ∨ r.bookedTo = some count ∧ (mark.2.isSome = true → r.shiftTag = mark.1) ∧
    (r.cause.isSome = true → r.lostSinceBase ≤ Config.maxCount)

/-- Every record of the table is up to date. -/
def State.upToDate (s : State) : Prop := ∀ i, (s.sp i).upToDate s.del.count s.closeMark

theorem lose_cause (c : Option Cause) (n : Nat) (r : Spindle) : (r.lose c n).cause = r.cause := by cases c <;> rfl

theorem lose_lost_le {c : Option Cause} (h : c.isSome = true) (n : Nat) (r : Spindle) : (r.lose c n).lostSinceBase ≤ Config.maxCount := by
  cases c with
  | none => cases h
  | some c => exact Nat.min_le_left _ _

/-- A touched record carries the open shift's number where a close is in progress. -/
theorem touch_tag {i : Nat} {s : State} (hi : s.hasSpindle i = true) (h : s.shift.closing.isSome = true) :
    ((touch i s).sp i).shiftTag = s.shift.opened.number := by
  obtain ⟨cl, hcl⟩ := Option.isSome_iff_exists.1 h
  unfold touch
  rw [hcl]
  dsimp only
  split
  · next htag => exact htag
  · have hself : ∀ p, ((s.sp i).closed p s.shift.opened.number).2.shiftTag = s.shift.opened.number := fun p => by
      unfold Spindle.closed
      split
      · split <;> rfl
      · rfl
    exact (congrArg Spindle.shiftTag (sp_setSp_self i _ s (range_of_has hi).1 (range_of_has hi).2)).trans (hself _)

theorem book_some_sp {i : Nat} {s : State} (h : (s.sp i).bookedTo.isSome = true) :
    ∃ b, (book i s).sp i = { ((touch i s).sp i).lose ((touch i s).sp i).cause (s.count - b) with bookedTo := some s.count } ∧
    s.hasSpindle i = true := by
  have hi : s.hasSpindle i = true := by
    by_contra hno
    rw [sp_eq_blank (by simpa using hno)] at h
    cases h
  obtain ⟨b, hb⟩ := Option.isSome_iff_exists.1 ((touch_booked i i s).trans h)
  exact ⟨b, book_sp_self hi b hb, hi⟩

theorem book_upToDate (i : Nat) (s : State) : ((book i s).sp i).upToDate s.del.count s.closeMark := by
  by_cases hb : (s.sp i).bookedTo.isSome = true
  · obtain ⟨b, hself, hi⟩ := book_some_sp hb
    rw [hself]
    refine .inr ⟨rfl, fun hclosing => ?_, fun hcause => lose_lost_le ?_ _ _⟩
    · exact (lose_shiftTag ..).trans (touch_tag hi (by simpa [State.closeMark] using hclosing))
    · exact (congrArg Option.isSome (lose_cause ..)).symm.trans hcause
  · have hnone : (s.sp i).bookedTo = none := by simpa using hb
    rw [book_none hnone]
    exact .inl hnone

theorem each_book_mark (l : List Nat) (s : State) : (each l book s).closeMark = s.closeMark :=
  each_closeMark l (fun i u => book_closeMark i u) s

/-- A record of the table in the pass that books them all. -/
theorem allBooked_sp {s : State} {j : Nat} (hj : j ∈ s.indices) :
    ∃ u, u.sp j = s.sp j ∧ u.del = s.del ∧ u.closeMark = s.closeMark ∧ (each s.indices book s).sp j = (book j u).sp j := by
  obtain ⟨before, hkept, hown⟩ := each_sp_mem (f := book) (fun i u h => book_sp_ne h u) hj List.nodup_range' s
  exact ⟨_, hkept, each_book_del before s, each_book_mark before s, hown⟩

theorem allBooked_outside {s : State} {j : Nat} (hj : j ∉ s.indices) : (each s.indices book s).sp j = s.sp j ∧ s.sp j = Spindle.blank :=
  ⟨each_sp_notMem (fun i u h => book_sp_ne h u) hj s, sp_eq_blank (Bool.eq_false_iff.2 fun h => hj (by
    obtain ⟨hpos, hle⟩ := range_of_has h
    exact List.mem_range'_1.2 ⟨hpos, by omega⟩))⟩

theorem allBooked_upToDate (s : State) : (each s.indices book s).upToDate := by
  intro j
  rw [each_book_del, each_book_mark]
  by_cases hj : j ∈ s.indices
  · obtain ⟨u, -, hdel, hmark, hown⟩ := allBooked_sp hj
    rw [hown, ← hdel, ← hmark]
    exact book_upToDate j u
  · obtain ⟨hkept, hblank⟩ := allBooked_outside hj
    rw [hkept, hblank]
    exact .inl rfl

theorem allBooked_bookedTo (s : State) (i : Nat) :
    ((s.sp i).bookedTo = none → ((each s.indices book s).sp i).bookedTo = none) ∧
    ((s.sp i).bookedTo.isSome = true → ((each s.indices book s).sp i).bookedTo = some s.del.count) := by
  by_cases hj : i ∈ s.indices
  · obtain ⟨u, hsame, hdel, -, hown⟩ := allBooked_sp hj
    rw [hown, ← hsame]
    refine ⟨fun hnone => ?_, fun hsome => ?_⟩
    · rw [book_none hnone]
      exact hnone
    · obtain ⟨b, hself, -⟩ := book_some_sp hsome
      rw [hself, ← hdel]
      rfl
  · obtain ⟨hkept, hblank⟩ := allBooked_outside hj
    rw [hkept]
    exact ⟨id, fun hsome => by rw [hblank] at hsome; cases hsome⟩

/-! ### Booking again (R22) -/

/-- The state with another count of unobserved pulses in the open shift. -/
def State.withUnobserved (x : Nat) (s : State) : State :=
  { s with shift := { s.shift with opened := { s.shift.opened with unobserved := x } } }

theorem withUnobserved_upToDate (x : Nat) {s : State} (h : s.upToDate) : (s.withUnobserved x).upToDate := h

theorem Shift.book_again (c : Option Cause) (sh : Shift) : ∃ x, sh.book c 0 = { sh with unobserved := x } := by
  cases c with
  | none => exact ⟨_, rfl⟩
  | some c => exact ⟨sh.unobserved, Shift.book_nothing c sh⟩

theorem touch_upToDate {i : Nat} {s : State} (h : (s.sp i).upToDate s.del.count s.closeMark) (hb : (s.sp i).bookedTo.isSome = true) :
    touch i s = s := by
  obtain hnone | ⟨-, htag, -⟩ := h
  · rw [hnone] at hb
    cases hb
  · unfold touch
    cases hcl : s.shift.closing with
    | none => rfl
    | some cl => exact if_pos (htag (by simp [State.closeMark, hcl]))

/-- A record up to date keeps its fields when it is booked again, and hands nothing to a segment. -/
theorem book_again {i : Nat} {s : State} (h : (s.sp i).upToDate s.del.count s.closeMark) : ∃ x, book i s = s.withUnobserved x := by
  cases hb : (s.sp i).bookedTo with
  | none => exact ⟨s.shift.opened.unobserved, book_none hb⟩
  | some b =>
    have htouch := touch_upToDate h (by rw [hb]; rfl)
    obtain hnone | ⟨hcount, -, hlost⟩ := h
    · rw [hb] at hnone
      cases hnone
    · have hi : s.hasSpindle i = true := by
        by_contra hno
        rw [sp_eq_blank (by simpa using hno)] at hb
        cases hb
      have hrecord : ({ (s.sp i).lose (s.sp i).cause 0 with bookedTo := some s.count } : Spindle) = s.sp i := by
        have hsame : (s.sp i).lose (s.sp i).cause 0 = s.sp i := by
          unfold Spindle.lose
          split
          · next hcause => rw [addCapped_zero (hlost hcause)]
          · rfl
        rw [hsame, State.count, ← hcount]
      obtain ⟨x, hx⟩ := Shift.book_again (s.sp i).cause s.shift.opened
      refine ⟨x, ?_⟩
      unfold book bookOpen
      rw [if_pos (by rw [hb]; rfl), htouch]
      dsimp only
      rw [hcount]
      dsimp only
      rw [State.count, Nat.sub_self, show some s.del.count = some s.count from rfl, hrecord, setSp_sp hi, hx]
      rfl

theorem each_book_again (l : List Nat) {s : State} (h : s.upToDate) : ∃ x, each l book s = s.withUnobserved x := by
  induction l generalizing s with
  | nil => exact ⟨s.shift.opened.unobserved, rfl⟩
  | cons i l ih =>
    obtain ⟨x, hx⟩ := book_again (h i)
    have hrest : each (i :: l) book s = each l book (book i s) := rfl
    rw [hrest, hx]
    obtain ⟨y, hy⟩ := ih (withUnobserved_upToDate x h)
    exact ⟨y, hy⟩

end Sys2Proof.Machine
end

section
/-! PROOFS. The rebases and the segments of the article switch, and DOFF_COMPLETE (R17, R88, R124, R147, R148). -/

namespace Sys2Proof.Machine

/-- The open shift is the same but for its unobserved pulses. -/
def SameRun (s t : State) : Prop :=
  t.shift.opened = { s.shift.opened with unobserved := t.shift.opened.unobserved } ∧ t.closeMark = s.closeMark

theorem SameRun.refl (s : State) : SameRun s s := ⟨rfl, rfl⟩

theorem SameRun.trans {s t u : State} (h : SameRun s t) (h' : SameRun t u) : SameRun s u :=
  ⟨by rw [h'.1, h.1], h'.2.trans h.2⟩

theorem SameRun.of_shift {s t : State} (h : t.shift = s.shift) : SameRun s t := ⟨by rw [h], closeMark_of_shift h⟩

theorem sameRun_withUnobserved (x : Nat) (s : State) : SameRun s (s.withUnobserved x) := ⟨rfl, rfl⟩

theorem upToDate_congr {s t : State} (h : s.upToDate) (hsp : ∀ i, t.sp i = s.sp i) (hdel : t.del = s.del) (hmark : t.closeMark = s.closeMark) :
    t.upToDate := fun i => by rw [hsp, hdel, hmark]; exact h i

/-! ### The carry rebase of one section (R88) -/

/-- The base that a carry rebase gives section `k`. -/
def State.carriedBase (s : State) (k : Nat) (b : Base) : Base :=
  { mark := s.del.count, loaded := b.loaded, rem := (indicesOf k).map (fun i => s.remainingFrom b i) }

/-- A record whose lost-since-base is gone. -/
def Spindle.rebased (r : Spindle) : Spindle := { r with lostSinceBase := 0 }

/-- Section `k` is rebased: it is NORMAL with a base. -/
def State.carries (s : State) (k : Nat) : Prop := (s.sec k).state = .normal ∧ (s.sec k).base.isSome = true

theorem rebase_sp' (k loaded : Nat) (rem : List Nat) (s : State) (j : Nat) :
    (rebase k loaded rem s).sp j = if j ∈ indicesOf k then (s.sp j).rebased else s.sp j := by
  by_cases hj : s.hasSpindle j = true
  · exact rebase_sp hj
  · have hhas : (rebase k loaded rem s).hasSpindle j = s.hasSpindle j :=
      (each_keeps (fun u => u.hasSpindle j) (indicesOf k) _ (fun i u => has_modifySp i j _ u) _).trans rfl
    have hblank := sp_eq_blank (Bool.eq_false_iff.2 hj)
    rw [sp_eq_blank (hhas.trans (Bool.eq_false_iff.2 hj)), hblank]
    split <;> rfl

theorem rebase_besideSections (k loaded : Nat) (rem : List Nat) (s : State) :
    (rebase k loaded rem s).creel = { s.creel with sections := (rebase k loaded rem s).creel.sections } ∧
    (rebase k loaded rem s).creel.sections.length = s.creel.sections.length := by
  have hcreel : (rebase k loaded rem s).creel =
      (modifySec k (fun x => { x with base := some { mark := s.count, loaded := loaded, rem := rem } }) s).creel :=
    each_keeps State.creel _ _ (fun i v => by simp) _
  rw [hcreel]
  exact ⟨rfl, by simp [modifySec, setSec]⟩

/-- What a carry rebase of the sections of `l` does to a state whose records are up to date. -/
structure Carried (l : List Nat) (s t : State) : Prop where
  upToDate : t.upToDate
  run : SameRun s t
  del : t.del = s.del
  port : t.port = s.port
  creel : t.creel = { s.creel with sections := t.creel.sections }
  length : t.creel.sections.length = s.creel.sections.length
  carried : ∀ k ∈ l, ∀ b, s.hasSection k = true → (s.sec k).state = .normal → (s.sec k).base = some b →
    t.sec k = { s.sec k with base := some (s.carriedBase k b) } ∧ ∀ j ∈ indicesOf k, t.sp j = (s.sp j).rebased
  kept : ∀ k, (k ∈ l → ¬ s.carries k) → t.sec k = s.sec k
  record : ∀ j, t.sp j = s.sp j ∨ t.sp j = (s.sp j).rebased
  still : ∀ j, (∀ k ∈ l, s.carries k → j ∉ indicesOf k) → t.sp j = s.sp j

theorem carryRebase_other {k : Nat} {s : State} (h : ¬ s.carries k) : carryRebase k s = s := by
  unfold carryRebase
  split
  · next b hstate hbase => exact absurd ⟨hstate, by rw [hbase]; rfl⟩ h
  · rfl

theorem carryRebase_normal {k : Nat} {b : Base} {s : State} (hstate : (s.sec k).state = .normal) (hbase : (s.sec k).base = some b) :
    carryRebase k s = rebase k b.loaded ((indicesOf k).map fun i => (each (indicesOf k) book s).remainingFrom b i)
      (each (indicesOf k) book s) := by
  unfold carryRebase
  rw [hstate, hbase]

theorem Carried.refl {s : State} (h : s.upToDate) : Carried [] s s :=
  ⟨h, .refl s, rfl, rfl, rfl, rfl, by simp, fun _ _ => rfl, fun _ => .inl rfl, fun _ _ => rfl⟩

theorem hasSection_of_base {k : Nat} {s : State} (h : (s.sec k).base.isSome = true) : s.hasSection k = true := by
  by_contra hno
  rw [sec_blank hno] at h
  cases h

theorem Spindle.rebased_upToDate {r : Spindle} {count : Nat} {mark : Nat × Option (Nat × Bool)} (h : r.upToDate count mark) :
    r.rebased.upToDate count mark := by
  obtain hnone | ⟨hto, htag, -⟩ := h
  · exact .inl hnone
  · exact .inr ⟨hto, htag, fun _ => Nat.zero_le _⟩

theorem carryRebase_carried (k : Nat) {s : State} (h : s.upToDate) : Carried [k] s (carryRebase k s) := by
  by_cases hcarries : s.carries k
  · obtain ⟨hstate, hbase⟩ := hcarries
    obtain ⟨b, hbase⟩ := Option.isSome_iff_exists.1 hbase
    obtain ⟨x, hx⟩ := each_book_again (indicesOf k) h
    have ht : carryRebase k s = rebase k b.loaded ((indicesOf k).map fun i => s.remainingFrom b i) (s.withUnobserved x) := by
      rw [carryRebase_normal hstate hbase, hx]
      rfl
    have hsp := rebase_sp' k b.loaded ((indicesOf k).map fun i => s.remainingFrom b i) (s.withUnobserved x)
    obtain ⟨hcreel, hlength⟩ := rebase_besideSections k b.loaded ((indicesOf k).map fun i => s.remainingFrom b i) (s.withUnobserved x)
    have hframe := rebase_frame k b.loaded ((indicesOf k).map fun i => s.remainingFrom b i) (s.withUnobserved x)
    have hk : s.hasSection k = true := hasSection_of_base (by rw [hbase]; rfl)
    obtain ⟨hself, hother, -⟩ :=
      rebase_sec (k := k) (s := s.withUnobserved x) hk b.loaded ((indicesOf k).map fun i => s.remainingFrom b i)
    rw [← ht] at hsp hcreel hlength hframe hself hother
    obtain ⟨hdel, -, -, hshift, -, -, hport, -⟩ := hframe
    have hrun : SameRun s (carryRebase k s) := (sameRun_withUnobserved x s).trans (.of_shift hshift)
    have hsame : ∀ j, (s.withUnobserved x).sp j = s.sp j := fun _ => rfl
    have hrecord : ∀ j, (carryRebase k s).sp j = s.sp j ∨ (carryRebase k s).sp j = (s.sp j).rebased := fun j => by
      rw [hsp, hsame]
      split
      · exact .inr rfl
      · exact .inl rfl
    refine ⟨fun j => ?_, hrun, hdel, hport, hcreel, hlength, fun m hm b' _ _ hbase' => ?_, fun m hm => ?_, hrecord, fun j hj => ?_⟩
    · rw [hdel, hrun.2]
      obtain hj | hj := hrecord j
      · rw [hj]
        exact h j
      · rw [hj]
        exact Spindle.rebased_upToDate (h j)
    · obtain rfl := List.mem_singleton.1 hm
      rw [hbase] at hbase'
      cases hbase'
      exact ⟨hself, fun j hj => by rw [hsp, if_pos hj, hsame]⟩
    · have hne : m ≠ k := fun heq => hm (List.mem_singleton.2 heq) (heq ▸ ⟨hstate, by rw [hbase]; rfl⟩)
      exact hother m hne
    · rw [hsp, if_neg (hj k (List.mem_singleton_self k) ⟨hstate, by rw [hbase]; rfl⟩)]
      rfl
  · rw [carryRebase_other hcarries]
    exact ⟨h, .refl s, rfl, rfl, rfl, rfl, fun m hm b _ hstate hbase => absurd ⟨List.mem_singleton.1 hm ▸ hstate, by
      rw [← List.mem_singleton.1 hm, hbase]; rfl⟩ hcarries, fun _ _ => rfl, fun _ => .inl rfl, fun _ _ => rfl⟩

theorem remainingFrom_congr {s t : State} {i : Nat} (b : Base) (hsp : t.sp i = s.sp i) (hdel : t.del = s.del) (hport : t.port = s.port) :
    t.remainingFrom b i = s.remainingFrom b i := remainingFrom_kept b (.of_eq hsp) hdel hport

theorem each_carryRebase_carried (l : List Nat) (hnodup : l.Nodup) (hpos : ∀ k ∈ l, 1 ≤ k) {s : State} (h : s.upToDate) :
    Carried l s (each l carryRebase s) := by
  induction l generalizing s with
  | nil => exact .refl h
  | cons k l ih =>
    obtain ⟨hkl, hl⟩ := List.nodup_cons.1 hnodup
    have hk := hpos k List.mem_cons_self
    have hfirst := carryRebase_carried k h
    have hrest := ih hl (fun m hm => hpos m (List.mem_cons_of_mem _ hm)) hfirst.upToDate
    have hlast : each (k :: l) carryRebase s = each l carryRebase (carryRebase k s) := rfl
    rw [hlast]
    generalize carryRebase k s = u at *
    generalize each l carryRebase u = t at *
    have hsec : ∀ m, m ≠ k → u.sec m = s.sec m := fun m hm => hfirst.kept m fun h => absurd (List.mem_singleton.1 h) hm
    have hne : ∀ m ∈ l, m ≠ k := fun m hm heq => hkl (heq ▸ hm)
    have hcarries : ∀ m ∈ l, (u.carries m ↔ s.carries m) := fun m hm => by unfold State.carries; rw [hsec m (hne m hm)]
    have hapart : ∀ m ∈ l, ∀ j ∈ indicesOf m, j ∉ indicesOf k := fun m hm j hj =>
      notMem_indicesOf (hpos m (List.mem_cons_of_mem _ hm)) hk (hne m hm).symm hj
    have hspared : ∀ m ∈ l, ∀ j ∈ indicesOf m, u.sp j = s.sp j := fun m hm j hj => hfirst.still j fun k' hk' _ => by
      rw [List.mem_singleton.1 hk']
      exact hapart m hm j hj
    refine ⟨hrest.upToDate, hfirst.run.trans hrest.run, hrest.del.trans hfirst.del, hrest.port.trans hfirst.port,
      by rw [hrest.creel, hfirst.creel], hrest.length.trans hfirst.length, fun m hm b hin hstate hbase => ?_, fun m hm => ?_,
      fun j => ?_, fun j hj => ?_⟩
    · obtain rfl | hml := List.mem_cons.1 hm
      · obtain ⟨hself, hrecords⟩ := hfirst.carried m (List.mem_singleton_self m) b hin hstate hbase
        refine ⟨(hrest.kept m fun h => absurd h hkl).trans hself, fun j hj => ?_⟩
        rw [hrest.still j fun k' hk' _ hj' => hapart k' hk' j hj' hj]
        exact hrecords j hj
      · have hsame := hsec m (hne m hml)
        have hin' : u.hasSection m = true := hasSection_of_base (by rw [hsame, hbase]; rfl)
        obtain ⟨hself, hrecords⟩ := hrest.carried m hml b hin' (by rw [hsame]; exact hstate) (by rw [hsame]; exact hbase)
        have hbase' : u.carriedBase m b = s.carriedBase m b := by
          unfold State.carriedBase
          rw [hfirst.del, List.map_congr_left fun i hi => remainingFrom_congr b (hspared m hml i hi) hfirst.del hfirst.port]
        refine ⟨by rw [hself, hbase', hsame], fun j hj => ?_⟩
        rw [hrecords j hj, hspared m hml j hj]
    · by_cases hmk : m = k
      · subst hmk
        exact (hrest.kept m fun h => absurd h hkl).trans (hfirst.kept m fun _ => hm List.mem_cons_self)
      · exact (hrest.kept m fun h hcar => hm (List.mem_cons_of_mem _ h) ((hcarries m h).1 hcar)).trans (hsec m hmk)
    · obtain hj | hj := hfirst.record j
      · rw [← hj]
        exact hrest.record j
      · obtain hj' | hj' := hrest.record j
        · exact .inr (hj'.trans hj)
        · exact .inr (by rw [hj', hj]; rfl)
    · exact (hrest.still j fun m hm hcar => hj m (List.mem_cons_of_mem _ hm) ((hcarries m hm).1 hcar)).trans
        (hfirst.still j fun m hm hcar => hj m (List.mem_singleton.1 hm ▸ List.mem_cons_self) hcar)

end Sys2Proof.Machine
end

section
/-! PROOFS. What a suspension keeps of records, shift and alerts, and DOFF_COMPLETE (R17, R82, R124). -/

namespace Sys2Proof.Machine

/-! ### Alerts stay through moves and telegrams (R178) -/

theorem alerted_of_alerts {code : AlertCode} {subject : Option Nat} {s t : State} (h : alerted code subject s)
    (halerts : t.frame.alerts = s.frame.alerts) : alerted code subject t := by
  unfold alerted at *
  rw [halerts]
  exact h

section
variable {code : AlertCode} {subject : Option Nat} {s : State} (h : alerted code subject s)
include h

theorem alerted_of_frame {t : State} (hframe : t.frame = s.frame) : alerted code subject t := alerted_of_alerts h (by rw [hframe])

theorem alerted_endsDownCheck : alerted code subject (endsDownCheck s) := by
  unfold endsDownCheck
  split
  · split
    · exact h
    · exact alerted_raise_of (s := { s with mon := { s.mon with aboveLimit := true } }) h ..
  · exact h

theorem alerted_enter (i : Nat) (st : SpState) : alerted code subject (enter i st s) := by
  have hmoved : ∀ (a : SpState) (r : Spindle), alerted code subject (requeue i a st (setSp i r (touch i s))) := fun a r =>
    alerted_of_frame h (by simp)
  unfold enter
  dsimp only
  split
  · exact hmoved _ _
  · exact alerted_endsDownCheck (hmoved _ _)

theorem alerted_returnToPiecing (i : Nat) : alerted code subject (returnToPiecing i s) := by
  have hbooked : alerted code subject (book i s) := alerted_of_frame h (by simp)
  unfold returnToPiecing joinQueue
  split
  · split
    · exact alerted_enter hbooked i _
    · split
      · exact alerted_enter h i _
      · exact alerted_enter h i _
  · exact h

theorem alerted_suspendSends (x : Side) : alerted code subject (suspendSends x s) := by
  have hrelease : ∀ u, alerted code subject u → alerted code subject (sendRelease x u) := fun u hu => by
    cases hr : (u.eng x).robot with
    | none => rw [sendRelease_none hr]; exact hu
    | some robot => rw [sendRelease_some hr]; exact alerted_enqueue hu ..
  have hcancel : alerted code subject (sendCancel x s) := by
    unfold sendCancel
    split
    · exact alerted_enqueue h ..
    · exact h
  unfold suspendSends
  cases (s.eng x).state with
  | idle | calling | suspended => exact h
  | awaiting | working => exact hrelease s h
  | orderOut => exact hrelease _ hcancel

theorem alerted_suspendOne (x : Side) : alerted code subject (suspendOne x s) := by
  have hsent := alerted_suspendSends h x
  have hreturned : alerted code subject (suspendReturns x s) := by
    unfold suspendReturns
    split
    · unfold returnOrdered
      split
      · exact alerted_returnToPiecing hsent _
      · exact hsent
    · exact hsent
  rw [suspendOne_eq]
  exact alerted_of_frame hreturned (by simp)
end

/-! ### What a suspension keeps of records that are booked up to date -/

theorem touch_run (i : Nat) (s : State) : SameRun s (touch i s) := by
  refine ⟨?_, touch_closeMark i s⟩
  unfold touch
  split
  · split <;> rfl
  · rfl

theorem enter_run (i : Nat) (st : SpState) (s : State) : SameRun s (enter i st s) := by
  have hshift : (enter i st s).shift = (touch i s).shift := by
    have hmoved : ∀ (a : SpState) (r : Spindle), (requeue i a st (setSp i r (touch i s))).shift = (touch i s).shift := fun a r => by simp
    unfold enter
    dsimp only
    split
    · exact hmoved _ _
    · rw [(endsDownCheck_frame _).2.2.2.2.1]
      exact hmoved _ _
  exact (touch_run i s).trans (.of_shift hshift)

/-- What returning ordered records keeps, where those are booked up to date. -/
structure BookingKept (s t : State) : Prop where
  run : SameRun s t
  del : t.del = s.del
  bookedTo : ∀ i, (t.sp i).bookedTo = (s.sp i).bookedTo
  lost : ∀ i, (s.sp i).lostSinceBase = 0 → (t.sp i).lostSinceBase = 0
  ordered : ∀ i, (t.sp i).state = .ordered → t.sp i = s.sp i

theorem BookingKept.refl (s : State) : BookingKept s s := ⟨.refl s, rfl, fun _ => rfl, fun _ => id, fun _ _ => rfl⟩

theorem BookingKept.trans {s t u : State} (h : BookingKept s t) (h' : BookingKept t u) : BookingKept s u :=
  ⟨h.run.trans h'.run, h'.del.trans h.del, fun i => (h'.bookedTo i).trans (h.bookedTo i), fun i hi => h'.lost i (h.lost i hi),
    fun i hi => by
      have heq := h'.ordered i hi
      exact heq.trans (h.ordered i (heq ▸ hi))⟩

theorem BookingKept.of_blocks {s t : State} (hmon : t.mon = s.mon) (hshift : t.shift = s.shift) (hdel : t.del = s.del) : BookingKept s t :=
  ⟨.of_shift hshift, hdel, fun i => by rw [sp_of_mon hmon], fun i hi => by rw [sp_of_mon hmon]; exact hi, fun i _ => sp_of_mon hmon i⟩

/-- The ordered records are booked up to date. -/
def State.orderedUpToDate (s : State) : Prop := ∀ i, (s.sp i).state = .ordered → (s.sp i).upToDate s.del.count s.closeMark

theorem BookingKept.upToDate {s t : State} (h : BookingKept s t) (hs : s.orderedUpToDate) : t.orderedUpToDate := fun i hi => by
  have heq := h.ordered i hi
  rw [heq, h.del, h.run.2]
  exact hs i (heq ▸ hi)

/-- The touched record keeps its booked-to where it is up to date. -/
theorem touch_bookedTo {i : Nat} {s : State} (h : (s.sp i).upToDate s.del.count s.closeMark) (hi : s.hasSpindle i = true) :
    ((touch i s).sp i).bookedTo = (s.sp i).bookedTo ∧ ((touch i s).sp i).lostSinceBase = (s.sp i).lostSinceBase := by
  by_cases hb : (s.sp i).bookedTo.isSome = true
  · rw [touch_upToDate h hb]
    exact ⟨rfl, rfl⟩
  · have hnone : (s.sp i).bookedTo = none := by simpa using hb
    obtain hsame | ⟨p, tag, hclosed⟩ := touch_sp_cases hi
    · rw [hsame]
      exact ⟨rfl, rfl⟩
    · rw [hclosed, Spindle.closed, hnone]
      exact ⟨rfl, rfl⟩

theorem enter_bookingKept {i : Nat} {st : SpState} {s : State} (hdown : st.isDown = true) (hst : st ≠ .ordered)
    (ho : (s.sp i).state = .ordered) (h : (s.sp i).upToDate s.del.count s.closeMark) : BookingKept s (enter i st s) := by
  have hi : s.hasSpindle i = true := hasSpindle_of_state (by rw [ho]; decide)
  obtain ⟨hto, hlost⟩ := touch_bookedTo h hi
  have hrdown : ((touch i s).sp i).state.isDown = true := by rw [touch_state, ho]; rfl
  refine ⟨enter_run i st s, by simp, fun j => ?_, fun j hj => ?_, fun j hj => ?_⟩
  · by_cases hij : i = j
    · subst hij
      rw [enter_sp_self hi, (moved_down hrdown hdown _ _).1, hto]
    · rw [enter_sp_ne hij]
  · by_cases hij : i = j
    · subst hij
      rw [enter_sp_self hi, moved_lost, hlost]
      exact hj
    · rw [enter_sp_ne hij]
      exact hj
  · by_cases hij : i = j
    · subst hij
      rw [enter_sp_self hi, moved_state] at hj
      exact absurd hj hst
    · exact enter_sp_ne hij st s

theorem returnToPiecing_bookingKept {i : Nat} {s : State} (hs : s.orderedUpToDate) : BookingKept s (returnToPiecing i s) := by
  unfold returnToPiecing joinQueue
  split
  · next ho =>
    split
    · obtain ⟨x, hx⟩ := book_again (hs i ho)
      have hkept : BookingKept s (s.withUnobserved x) := ⟨sameRun_withUnobserved x s, rfl, fun _ => rfl, fun _ => id, fun _ _ => rfl⟩
      have hentered : BookingKept (s.withUnobserved x) (enter i .exchange (s.withUnobserved x)) :=
        enter_bookingKept rfl (by decide) ho (hs i ho)
      rw [bookEnter, hx]
      exact hkept.trans hentered
    · split
      · exact enter_bookingKept rfl (by decide) ho (hs i ho)
      · exact enter_bookingKept rfl (by decide) ho (hs i ho)
  · exact .refl s

theorem suspendOne_bookingKept (x : Side) {s : State} (hs : s.orderedUpToDate) : BookingKept s (suspendOne x s) := by
  obtain ⟨hmon, -, hshift, -, -, hdel⟩ := suspendSends_frame x s
  have hsent : BookingKept s (suspendSends x s) := .of_blocks hmon hshift hdel
  have hreturned : BookingKept s (suspendReturns x s) := by
    unfold suspendReturns returnOrdered
    split
    · split
      · exact hsent.trans (returnToPiecing_bookingKept (hsent.upToDate hs))
      · exact hsent
    · exact hsent
  rw [suspendOne_eq]
  exact hreturned.trans (.of_blocks (by simp) (by simp) (by simp))

theorem suspendEngagements_bookingKept {s : State} (hs : s.orderedUpToDate) : BookingKept s (suspendEngagements s) := by
  have hfirst := suspendOne_bookingKept .a hs
  obtain ⟨-, -, ht⟩ | ⟨-, -, ht⟩ := suspendEngagements_cases s
  · rw [ht]
    exact hfirst
  · rw [ht]
    exact hfirst.trans (suspendOne_bookingKept .b (hfirst.upToDate hs))

theorem alerted_suspendEngagements {code : AlertCode} {subject : Option Nat} {s : State} (h : alerted code subject s) :
    alerted code subject (suspendEngagements s) := by
  have hfirst := alerted_suspendOne h .a
  obtain ⟨-, -, ht⟩ | ⟨-, -, ht⟩ := suspendEngagements_cases s
  · rw [ht]
    exact hfirst
  · rw [ht]
    exact alerted_suspendOne hfirst .b

end Sys2Proof.Machine
end

section
/-! PROOFS. The segments of an article switch, and the article switch of DOFF_COMPLETE (R17, R147, R148). -/

namespace Sys2Proof.Machine

/-! ### The doffs and the segments through bookings -/

theorem Shift.book_counts (c : Option Cause) (n : Nat) (sh : Shift) :
    (sh.book c n).doffs = sh.doffs ∧ (sh.book c n).segments.length = sh.segments.length := by
  cases c with
  | none => exact ⟨rfl, rfl⟩
  | some c => exact ⟨rfl, length_modifyLast _ _⟩

theorem SameRun.doffs {s t : State} (h : SameRun s t) : t.shift.opened.doffs = s.shift.opened.doffs := by rw [h.1]

theorem SameRun.segments {s t : State} (h : SameRun s t) : t.shift.opened.segments = s.shift.opened.segments := by rw [h.1]

theorem SameRun.flags {s t : State} (h : SameRun s t) : t.shift.opened.flags = s.shift.opened.flags := by rw [h.1]

theorem book_counts (i : Nat) (s : State) :
    (book i s).shift.opened.doffs = s.shift.opened.doffs ∧
    (book i s).shift.opened.segments.length = s.shift.opened.segments.length := by
  have htouch := touch_run i s
  have hkept : (touch i s).shift.opened.doffs = s.shift.opened.doffs ∧
      (touch i s).shift.opened.segments.length = s.shift.opened.segments.length := ⟨htouch.doffs, by rw [htouch.segments]⟩
  unfold book bookOpen
  split
  · dsimp only
    split
    · exact hkept
    · obtain ⟨hdoffs, hlength⟩ := Shift.book_counts _ _ (touch i s).shift.opened
      exact ⟨hdoffs.trans hkept.1, hlength.trans hkept.2⟩
  · exact ⟨rfl, rfl⟩

theorem returnToPiecing_doffs (i : Nat) (s : State) : (returnToPiecing i s).shift.opened.doffs = s.shift.opened.doffs := by
  unfold returnToPiecing joinQueue
  split
  · split
    · exact (enter_run i .exchange (book i s)).doffs.trans (book_counts i s).1
    · split
      · exact (enter_run i _ s).doffs
      · exact (enter_run i _ s).doffs
  · rfl

theorem suspendOne_doffs (x : Side) (s : State) : (suspendOne x s).shift.opened.doffs = s.shift.opened.doffs := by
  have hsent : (suspendSends x s).shift = s.shift := (suspendSends_frame x s).2.2.1
  have hreturned : (suspendReturns x s).shift.opened.doffs = s.shift.opened.doffs := by
    unfold suspendReturns returnOrdered
    split
    · split
      · exact (returnToPiecing_doffs _ _).trans (by rw [hsent])
      · rw [hsent]
    · rw [hsent]
  rw [suspendOne_eq]
  exact (by simp : (setEng x (s.eng x).halted (suspendReturns x s)).shift.opened.doffs = _).trans hreturned

theorem suspendEngagements_doffs (s : State) : (suspendEngagements s).shift.opened.doffs = s.shift.opened.doffs := by
  obtain ⟨-, -, ht⟩ | ⟨-, -, ht⟩ := suspendEngagements_cases s
  · rw [ht]
    exact suspendOne_doffs .a s
  · rw [ht]
    exact (suspendOne_doffs .b _).trans (suspendOne_doffs .a s)

/-! ### The segments of the switch (R147, R148) -/

/-- What the switch makes of the segments of the open shift. -/
structure Segmented (a : Article) (s t : State) : Prop where
  blocks : onlyIn [.shift, .frame] s t
  mark : t.closeMark = s.closeMark
  doffs : t.shift.opened.doffs = s.shift.opened.doffs
  own : s.shift.opened.segments.length < 4 → t.shift.opened.segments =
    modifyLast (Segment.closeRun s.cfg s.count) s.shift.opened.segments ++ [Segment.opened (some (a.id, a.tex)) s.del.count]
  merged : s.shift.opened.segments.length = 4 →
    t.shift.opened.segments = modifyLast (fun g => Segment.merge a s.count (g.closeRun s.cfg s.count)) s.shift.opened.segments ∧
    t.shift.opened.flags.mixed = true ∧ alerted .segmentMerge none t

theorem switchSegment_segmented (a : Article) (s : State) : Segmented a s (switchSegment a s) := by
  by_cases hroom : s.shift.opened.segments.length < Config.maxSegments
  · have ht : switchSegment a s = { s with shift := { s.shift with opened := { s.shift.opened with
        segments := modifyLast (Segment.closeRun s.cfg s.count) s.shift.opened.segments ++
          [Segment.opened (some (a.id, a.tex)) s.count] } } } := if_pos hroom
    rw [ht]
    exact ⟨⟨rfl, fun b hb => by cases b <;> simp_all [Block.same]⟩, rfl, rfl, fun _ => rfl,
      fun hfull => absurd hfull (Nat.ne_of_lt hroom)⟩
  · have ht : switchSegment a s = raiseAlert .segmentMerge .note none { s with shift := { s.shift with opened :=
        { s.shift.opened with
          segments := modifyLast (Segment.merge a s.count) (modifyLast (Segment.closeRun s.cfg s.count) s.shift.opened.segments)
          flags := { s.shift.opened.flags with mixed := true } } } } := if_neg hroom
    rw [ht]
    refine ⟨⟨by simp, fun b hb => by cases b <;> simp_all [Block.same]⟩, (closeMark_of_shift (raiseAlert_frame ..).2.2.2.2.2.1).trans rfl,
      by simp, fun hfew => absurd hfew hroom, fun _ => ⟨?_, ?_, alerted_raise ..⟩⟩
    · rw [← modifyLast_comp (Segment.merge a s.count) (Segment.closeRun s.cfg s.count)]
      exact congrArg (·.opened.segments) (raiseAlert_frame ..).2.2.2.2.2.1
    · exact congrArg (·.opened.flags.mixed) (raiseAlert_frame ..).2.2.2.2.2.1

/-! ### The article switch (R17) -/

theorem indices_eq (s : State) : s.indices = (List.range s.mon.spindles.length).map (· + 1) := by
  rw [State.indices, List.range'_eq_map_range]
  exact List.map_congr_left fun x _ => Nat.add_comm 1 x

/-- What the article switch to `a` does. -/
structure Switched (a : Article) (s t : State) : Prop where
  blocks : onlyIn [.del, .mon, .creel, .shift, .frame] s t
  del : t.del = { s.del with active := some a, staged := none, armed := false }
  upToDate : t.upToDate
  doffs : t.shift.opened.doffs = s.shift.opened.doffs
  booked : ∀ i, (s.sp i).bookedTo.isSome = true → (t.sp i).bookedTo = some s.del.count
  unbooked : ∀ i, (s.sp i).bookedTo = none → (t.sp i).bookedTo = none
  creel : t.creel = { s.creel with sections := t.creel.sections }
  kept : ∀ k, (s.sec k).state ≠ .normal → t.sec k = s.sec k
  carried : ∀ k b, s.hasSection k = true → (s.sec k).state = .normal → (s.sec k).base = some b →
    t.sec k = { s.sec k with base := some ((each s.indices book s).carriedBase k b) } ∧
    ∀ i ∈ indicesOf k, (t.sp i).lostSinceBase = 0
  own : s.shift.opened.segments.length < 4 → t.shift.opened.segments =
    modifyLast (Segment.closeRun s.cfg s.count) (each s.indices book s).shift.opened.segments ++
      [Segment.opened (some (a.id, a.tex)) s.del.count]
  merged : s.shift.opened.segments.length = 4 →
    t.shift.opened.segments =
      modifyLast (fun g => Segment.merge a s.count (g.closeRun s.cfg s.count)) (each s.indices book s).shift.opened.segments ∧
    t.shift.opened.flags.mixed = true ∧ alerted .segmentMerge none t

theorem carryRebase_onlyIn (k : Nat) (s : State) : onlyIn [.mon, .creel, .shift] s (carryRebase k s) :=
  ⟨by simp, fun b hb => by cases b <;> simp_all [Block.same]⟩

theorem each_book_blocks (l : List Nat) (s : State) : onlyIn [.mon, .shift] s (each l book s) :=
  each_keepsProp (fun u => onlyIn [.mon, .shift] s u) l book
    (fun i u h => onlyIn_trans h ⟨by simp, fun b hb => by cases b <;> simp_all [Block.same]⟩) ⟨rfl, fun b _ => by cases b <;> rfl⟩

theorem each_carryRebase_blocks (l : List Nat) (s : State) : onlyIn [.mon, .creel, .shift] s (each l carryRebase s) :=
  each_keepsProp (fun u => onlyIn [.mon, .creel, .shift] s u) l carryRebase (fun k u h => onlyIn_trans h (carryRebase_onlyIn k u))
    ⟨rfl, fun b _ => by cases b <;> rfl⟩

theorem articleSwitch_switched {a : Article} {s : State} (hstaged : s.del.staged = some a) : Switched a s (articleSwitch s) := by
  have hunfold : articleSwitch s =
      (fun v : State => { v with del := { v.del with active := some a, staged := none, armed := false } })
        (each (switchSegment a (each s.indices book s)).numbers carryRebase (switchSegment a (each s.indices book s))) := by
    unfold articleSwitch
    rw [hstaged]
  have hbook := each_book_blocks s.indices s
  have hup := allBooked_upToDate s
  have hto := allBooked_bookedTo s
  have hdoffs : (each s.indices book s).shift.opened.doffs = s.shift.opened.doffs :=
    each_keeps (fun u => u.shift.opened.doffs) _ _ (fun i u => (book_counts i u).1) s
  have hlength : (each s.indices book s).shift.opened.segments.length = s.shift.opened.segments.length :=
    each_keeps (fun u => u.shift.opened.segments.length) _ _ (fun i u => (book_counts i u).2) s
  generalize hb : each s.indices book s = booked at *
  have hseg := switchSegment_segmented a booked
  generalize switchSegment a booked = w at *
  have hwdel : w.del = booked.del := hseg.blocks.2 .del (by simp)
  have hwport : w.port = booked.port := hseg.blocks.2 .port (by simp)
  have hwsp : ∀ i, w.sp i = booked.sp i := sp_of_mon (hseg.blocks.2 .mon (by simp))
  have hwcreel : w.creel = s.creel := (hseg.blocks.2 .creel (by simp)).trans (hbook.2 .creel (by simp))
  have hbdel : booked.del = s.del := hbook.2 .del (by simp)
  have hbport : booked.port = s.port := hbook.2 .port (by simp)
  have hcount : booked.count = s.count := congrArg Delivery.count hbdel
  have hwup : w.upToDate := upToDate_congr hup hwsp hwdel hseg.mark
  have hcar := each_carryRebase_carried w.numbers List.nodup_range' (fun k hk => (mem_numbers.1 hk).1) hwup
  have hcblocks := each_carryRebase_blocks w.numbers w
  generalize each w.numbers carryRebase w = v at *
  have hsec : ∀ k, w.sec k = s.sec k := sec_of_creel hwcreel
  have hrecord : ∀ i, (v.sp i).bookedTo = (booked.sp i).bookedTo := fun i => by
    rw [← hwsp]
    obtain h | h := hcar.record i
    · rw [h]
    · exact (congrArg Spindle.bookedTo h).trans rfl
  have hcfg : booked.cfg = s.cfg := cfg_of_port hbport
  have hvblocks : onlyIn [.del, .mon, .creel, .shift, .frame] s v :=
    onlyIn_seq (onlyIn_seq (cs := [.mon, .creel, .shift, .frame]) hbook hseg.blocks (by simp) (by simp)) hcblocks (by simp) (by simp)
  rw [hunfold]
  subst hb
  refine ⟨⟨hvblocks.1, fun b hb' => ?_⟩, ?_, hcar.upToDate, hcar.run.doffs.trans (hseg.doffs.trans hdoffs),
    fun i hi => (hrecord i).trans ((hto i).2 hi), fun i hi => (hrecord i).trans ((hto i).1 hi), ?_, fun k hk => ?_,
    fun k b hk hnormal hbase => ?_, fun hfew => ?_, fun hfull => ?_⟩
  · cases b with
    | del => exact absurd (by simp) hb'
    | _ => exact hvblocks.2 _ hb'
  · dsimp only
    rw [hcar.del, hwdel, hbdel]
  · exact hcar.creel.trans (by rw [hwcreel])
  · exact (hcar.kept k fun _ h => hk (by rw [← hsec]; exact h.1)).trans (hsec k)
  · have hmem : k ∈ w.numbers := by
      rw [mem_numbers, hwcreel]
      unfold State.hasSection at hk
      simpa using hk
    obtain ⟨hself, hrecords⟩ := hcar.carried k hmem b (by unfold State.hasSection at *; rw [hwcreel]; exact hk)
      (by rw [hsec]; exact hnormal) (by rw [hsec]; exact hbase)
    refine ⟨hself.trans ?_, fun i hi => by
      have := hrecords i hi
      exact congrArg Spindle.lostSinceBase this⟩
    rw [hsec]
    unfold State.carriedBase
    rw [hwdel, List.map_congr_left fun i _ => remainingFrom_congr b (hwsp i) hwdel hwport]
  · refine hcar.run.segments.trans ((hseg.own (by rw [hlength]; exact hfew)).trans ?_)
    rw [hcfg, hcount, hbdel]
  · obtain ⟨hsegments, hmixed, halert⟩ := hseg.merged (hlength.trans hfull)
    refine ⟨hcar.run.segments.trans (hsegments.trans (by rw [hcfg, hcount])), ?_, ?_⟩
    · exact (congrArg ShiftFlags.mixed hcar.run.flags).trans hmixed
    · exact alerted_of_frame halert (hcblocks.2 .frame (by simp))

end Sys2Proof.Machine
end

section
/-! PROOFS. DOFF_REQUEST, DOFF_COMPLETE and DOFF_ABANDON by the doff state (R119, R124, R127). -/

namespace Sys2Proof.Machine

/-! ### The steps of DOFF_COMPLETE (R124) -/

/-- Step 1: the article switch where it is armed. -/
def State.switched (s : State) : State := if s.del.armed = true then articleSwitch s else s

/-- Steps 2 to 5: the cop mark, the doff counted, DOFF_DONE, DOFF lifted, and RESTART. -/
def State.doffed (s : State) : State :=
  removeHold .doff { enqueue .doffDone 0 [] s with
    doff := { s.doff with copMark := s.count, nextAnn := none, doffTimer := none, grantedWait := none, state := .restart }
    shift := { s.shift with opened := { s.shift.opened with doffs := addCapped Config.max8 s.shift.opened.doffs 1 } } }

theorem enqueue_setDoffShift (kind : Kind) (dest : Nat) (payload : List Byte) (d : Doff) (sh : ShiftCounter) (s : State) :
    enqueue kind dest payload { s with doff := d, shift := sh } = { enqueue kind dest payload s with doff := d, shift := sh } := by
  by_cases hrun : s.running = true
  · have hrun' : State.running { s with doff := d, shift := sh } = true := hrun
    rw [enqueue, if_pos hrun', enqueue, if_pos hrun]
    unfold joinLine
    dsimp only [State.cfg]
    split <;> rfl
  · have hrun' : ¬ State.running { s with doff := d, shift := sh } = true := hrun
    rw [enqueue, if_neg hrun', enqueue, if_neg hrun]

theorem completeDoff_eq (s : State) : completeDoff s =
    if s.switched.doff.state = .unknown then suspendEngagements s.switched.doffed else s.switched.doffed := by
  have hsent : ∀ u : State, setDoffState .restart (removeHold .doff
      ((fun v : State => { v with doff := { v.doff with nextAnn := none, doffTimer := none, grantedWait := none } })
        (enqueue .doffDone 0 [] (countDoff { u with doff := { u.doff with copMark := u.count } })))) = u.doffed := fun u => by
    have hpush := enqueue_setDoffShift .doffDone 0 [] { u.doff with copMark := u.count }
      { u.shift with opened := { u.shift.opened with doffs := addCapped Config.max8 u.shift.opened.doffs 1 } } u
    have hcounted : countDoff { u with doff := { u.doff with copMark := u.count } } = { u with
      doff := { u.doff with copMark := u.count }
      shift := { u.shift with opened := { u.shift.opened with doffs := addCapped Config.max8 u.shift.opened.doffs 1 } } } := rfl
    rw [hcounted, hpush]
    rfl
  have hstate : ∀ u : State, (enqueue .doffDone 0 [] (countDoff { u with doff := { u.doff with copMark := u.count } })).doff.state =
      u.doff.state := fun u => by simp [countDoff]
  have hfresh : completeDoff s =
      if (enqueue .doffDone 0 [] (countDoff { s.switched with doff := { s.switched.doff with copMark := s.switched.count } })).doff.state
        == .unknown then suspendEngagements s.switched.doffed else s.switched.doffed := by
    rw [← hsent]
    rfl
  rw [hfresh, hstate]
  simp

theorem doffed_effect (s : State) :
    let t := s.doffed
    onlyIn [.doff, .shift, .line, .frame] s t ∧
    t.doff = { s.doff with copMark := s.count, nextAnn := none, doffTimer := none, grantedWait := none, state := .restart } ∧
    t.shift = { s.shift with opened := { s.shift.opened with doffs := min 255 (s.shift.opened.doffs + 1) } } ∧
    t.line = (enqueue .doffDone 0 [] s).line ∧ t.frame.holds.doff = false := by
  intro t
  exact ⟨⟨by simp [t, State.doffed], fun b hb => by cases b <;> simp_all [Block.same, t, State.doffed]⟩, rfl, rfl, rfl, rfl⟩

theorem alerted_doffed {code : AlertCode} {subject : Option Nat} {s : State} (h : alerted code subject s) :
    alerted code subject s.doffed := alerted_of_alerts (alerted_enqueue h .doffDone 0 []) rfl

/-- What the last step of DOFF_COMPLETE, which may suspend the engagements, leaves as it was. -/
structure Finished (s t : State) : Prop where
  blocks : onlyIn [.mon, .pie, .shift, .line, .frame] s t
  frame : t.frame.besideAlerts = s.frame.besideAlerts
  doffs : t.shift.opened.doffs = s.shift.opened.doffs
  kept : s.upToDate → BookingKept s t
  alerted : ∀ code subject, alerted code subject s → alerted code subject t

theorem finished_refl (s : State) : Finished s s := ⟨⟨rfl, fun b _ => by cases b <;> rfl⟩, rfl, rfl, fun _ => .refl s, fun _ _ => id⟩

theorem finished_suspendEngagements (s : State) : Finished s (suspendEngagements s) :=
  ⟨suspendEngagements_onlyIn s, suspendEngagements_besideAlerts s, suspendEngagements_doffs s,
    fun h => suspendEngagements_bookingKept fun i _ => h i, fun _ _ => alerted_suspendEngagements⟩

theorem completeDoff_finished (s : State) : Finished s.switched.doffed (completeDoff s) := by
  rw [completeDoff_eq]
  split
  · exact finished_suspendEngagements _
  · exact finished_refl _

theorem switched_effect (s : State) :
    onlyIn [.del, .mon, .creel, .shift, .frame] s s.switched ∧ s.switched.count = s.count ∧
    s.switched.shift.opened.doffs = s.shift.opened.doffs := by
  have hkept : onlyIn [.del, .mon, .creel, .shift, .frame] s s := ⟨rfl, fun b _ => by cases b <;> rfl⟩
  unfold State.switched
  split
  · cases hstaged : s.del.staged with
    | none =>
      have hnone : articleSwitch s = s := by
        unfold articleSwitch
        rw [hstaged]
      rw [hnone]
      exact ⟨hkept, rfl, rfl⟩
    | some a =>
      have hswitched := articleSwitch_switched hstaged
      refine ⟨hswitched.blocks, ?_, hswitched.doffs⟩
      rw [State.count, hswitched.del]
      rfl
  · exact ⟨hkept, rfl, rfl⟩

theorem suspensions_congr {s t : State} (hpie : t.pie = s.pie) (hport : t.port = s.port) : suspensions t = suspensions s := by
  unfold suspensions
  rw [cfg_of_port hport, suspensionOf_congr .a (eng_of_pie hpie .a) (cfg_of_port hport),
    suspensionOf_congr .b (eng_of_pie hpie .b) (cfg_of_port hport)]

/-! ### DOFF_COMPLETE -/

theorem doDoffComplete_works {s : State} (hw : s.works) (h : s.doff.state = .doffing ∨ s.doff.state = .unknown) :
    doDoffComplete s = Effect.done (completeDoff s) := by
  unfold doDoffComplete
  rcases h with h | h <;> rw [h] <;> exact whileRunning_works (running_of_works hw) _

theorem doDoffComplete_refused {s : State} (hw : s.works) (h : s.doff.state ≠ .doffing) (h' : s.doff.state ≠ .unknown) :
    doDoffComplete s = Effect.refuse .notDoffing s := by
  unfold doDoffComplete
  cases hstate : s.doff.state with
  | doffing => exact absurd hstate h
  | unknown => exact absurd hstate h'
  | _ => exact whileRunning_works (running_of_works hw) _

/-- What DOFF_COMPLETE does, armed or not. -/
theorem completeDoff_effect (s : State) :
    let t := completeDoff s
    onlyIn [.del, .mon, .pie, .creel, .doff, .shift, .line, .frame] s t ∧ t.frame.holds.doff = false ∧
    t.doff = { s.doff with copMark := s.del.count, nextAnn := none, doffTimer := none, grantedWait := none, state := .restart } ∧
    t.shift.opened.doffs = min 255 (s.shift.opened.doffs + 1) ∧
    t.del = s.switched.del ∧ t.creel = s.switched.creel ∧
    (s.doff.state ≠ .unknown → t.line = (enqueue .doffDone 0 [] s).line ∧ t.pie = s.pie) ∧
    (s.doff.state = .unknown → hands ([(.doffDone, 0, [])] ++ suspensions s) s t) ∧
    (s.doff.state = .unknown → ∀ x, x = .a ∨ s.cfg.joined ≠ 1 → (t.eng x).state = .suspended) := by
  intro t
  obtain ⟨hsblocks, hcount, hdoffs⟩ := switched_effect s
  obtain ⟨hdblocks, hddoff, hdshift, hdline, hdhold⟩ := doffed_effect s.switched
  have hf := completeDoff_finished s
  have hsdoff : s.switched.doff = s.doff := hsblocks.2 .doff (by simp)
  have ht : t = if s.doff.state = .unknown then suspendEngagements s.switched.doffed else s.switched.doffed := by
    rw [← hsdoff]
    exact completeDoff_eq s
  have hline : s.switched.line = s.line := hsblocks.2 .line (by simp)
  have hport : s.switched.port = s.port := hsblocks.2 .port (by simp)
  have hdport : s.switched.doffed.port = s.port := (hdblocks.2 .port (by simp)).trans hport
  have hpie : s.switched.doffed.pie = s.pie := (hdblocks.2 .pie (by simp)).trans (hsblocks.2 .pie (by simp))
  have hsent : s.switched.doffed.line = (enqueue .doffDone 0 [] s).line := hdline.trans (enqueue_line_congr hline hport ..)
  have htdoff : t.doff = s.switched.doffed.doff := hf.blocks.2 .doff (by simp)
  refine ⟨onlyIn_seq (onlyIn_seq (cs := [.del, .mon, .creel, .doff, .shift, .line, .frame]) hsblocks hdblocks (by simp) (by simp))
    hf.blocks (by simp) (by simp), (holds_of_besideAlerts hf.frame (c := .doff) (by decide)).trans hdhold, ?_, ?_,
    (hf.blocks.2 .del (by simp)).trans (hdblocks.2 .del (by simp)), (hf.blocks.2 .creel (by simp)).trans (hdblocks.2 .creel (by simp)),
    fun hno => ?_, fun hyes => ?_, fun hyes x hx => ?_⟩
  · rw [htdoff, hddoff, hsdoff, hcount]
    rfl
  · rw [hf.doffs, hdshift]
    exact congrArg (fun n => min 255 (n + 1)) hdoffs
  · rw [ht, if_neg hno]
    exact ⟨hsent, hpie⟩
  · rw [ht, if_pos hyes]
    have hsuspends := suspendEngagements_hands s.switched.doffed
    rw [suspensions_congr hpie hdport] at hsuspends
    have hdone : hands [(.doffDone, 0, [])] s s.switched.doffed := hsent
    exact hands_trans hdone hdport hsuspends
  · rw [ht, if_pos hyes, suspendEngagements_eng (by rw [cfg_of_port hdport]; exact hx)]
    rfl

/-- What DOFF_COMPLETE does to records, sections and segments where it switches to article `a`. -/
theorem completeDoff_switches {a : Article} {s : State} (harmed : s.del.armed = true) (hstaged : s.del.staged = some a) :
    let t := completeDoff s
    let u := articleSwitch s
    (∀ i, (t.sp i).bookedTo = (u.sp i).bookedTo) ∧ (∀ i, (u.sp i).lostSinceBase = 0 → (t.sp i).lostSinceBase = 0) ∧
    t.shift.opened.segments = u.shift.opened.segments ∧ t.shift.opened.flags = u.shift.opened.flags ∧
    (∀ code subject, alerted code subject u → alerted code subject t) := by
  intro t u
  have hu : s.switched = u := if_pos harmed
  have hf := completeDoff_finished s
  rw [hu] at hf
  obtain ⟨hdblocks, -, hdshift, -⟩ := doffed_effect u
  have hsp : ∀ i, u.doffed.sp i = u.sp i := sp_of_mon (hdblocks.2 .mon (by simp))
  have hmark : u.doffed.closeMark = u.closeMark := by
    unfold State.closeMark
    rw [hdshift]
  have hkept := hf.kept (upToDate_congr (articleSwitch_switched hstaged).upToDate hsp (hdblocks.2 .del (by simp)) hmark)
  refine ⟨fun i => (hkept.bookedTo i).trans (by rw [hsp]), fun i hi => hkept.lost i (by rw [hsp]; exact hi),
    hkept.run.segments.trans (by rw [hdshift]), hkept.run.flags.trans (by rw [hdshift]),
    fun code subject h => hf.alerted code subject (alerted_doffed h)⟩

end Sys2Proof.Machine
end

section
/-! PROOFS. The doff commands settled (R17, R119, R124, R127). -/

namespace Sys2Proof.Machine

/-- The records, sections and segments after a DOFF_COMPLETE that switches to article `a`. -/
theorem completeDoff_armed {a : Article} {s : State} (harmed : s.del.armed = true) (hstaged : s.del.staged = some a) :
    let t := completeDoff s
    let booked := each ((List.range s.mon.spindles.length).map (· + 1)) book s
    (∀ i, (s.sp i).bookedTo.isSome = true → s.hasSpindle i = true → (t.sp i).bookedTo = some s.del.count) ∧
    (∀ i, (s.sp i).bookedTo = none → (t.sp i).bookedTo = none) ∧
    t.creel = { s.creel with sections := t.creel.sections } ∧
    (∀ k, (s.sec k).state ≠ .normal → t.sec k = s.sec k) ∧
    (∀ k b, s.hasSection k = true → (s.sec k).state = .normal → (s.sec k).base = some b →
      let carried : Base :=
        { mark := s.del.count, loaded := b.loaded
          rem := (List.range 24).map (fun j => booked.remainingFrom b (24 * (k - 1) + 1 + j)) }
      t.sec k = { s.sec k with base := some carried } ∧
      ∀ i, 24 * (k - 1) < i → i ≤ 24 * k → (t.sp i).lostSinceBase = 0) ∧
    ∀ first g, booked.shift.opened.segments = first ++ [g] →
      (s.shift.opened.segments.length < 4 → t.shift.opened.segments =
        first ++ [g.closeRun s.cfg s.del.count, Segment.opened (some (a.id, a.tex)) s.del.count]) ∧
      (s.shift.opened.segments.length = 4 → t.shift.opened.segments =
        first ++ [{ g.closeRun s.cfg s.del.count with
          article := some (a.id, a.tex), runStart := some s.del.count, openLosses := 0, mixed := true }] ∧
        t.shift.opened.flags.mixed = true ∧ alerted .segmentMerge none t) := by
  intro t booked
  have hbooked : booked = each s.indices book s := by rw [indices_eq]
  have hsw := articleSwitch_switched hstaged
  obtain ⟨hto, hlost, hsegments, hflags, halerts⟩ := completeDoff_switches harmed hstaged
  obtain ⟨-, -, -, -, -, hcreel, -⟩ := completeDoff_effect s
  have hcreel : t.creel = (articleSwitch s).creel := hcreel.trans (by rw [show s.switched = _ from if_pos harmed])
  have hsec := sec_of_creel hcreel
  rw [hbooked]
  refine ⟨fun i hi _ => (hto i).trans (hsw.booked i hi), fun i hi => (hto i).trans (hsw.unbooked i hi),
    by rw [hcreel]; exact hsw.creel, fun k hk => (hsec k).trans (hsw.kept k hk), fun k b hk hnormal hbase => ?_,
    fun first g hg => ⟨fun hfew => ?_, fun hfull => ?_⟩⟩
  · obtain ⟨hbase', hzero⟩ := hsw.carried k b hk hnormal hbase
    refine ⟨(hsec k).trans (hbase'.trans ?_), fun i hlow hhigh => hlost i (hzero i ?_)⟩
    · unfold State.carriedBase
      rw [indicesOf_eq, List.map_map, each_book_del]
      rfl
    · exact (mem_indicesOf (by omega)).2 ⟨hlow, hhigh⟩
  · rw [show t.shift.opened.segments = _ from hsegments, hsw.own hfew, hg, modifyLast_append, List.append_assoc]
    rfl
  · obtain ⟨hmerged, hmixed, halert⟩ := hsw.merged hfull
    refine ⟨?_, (congrArg ShiftFlags.mixed hflags).trans hmixed, halerts _ _ halert⟩
    rw [show t.shift.opened.segments = _ from hsegments, hmerged, hg, modifyLast_append]
    rfl

/-- The new segment of a switch below four segments. -/
theorem completeDoff_newSegment {a : Article} {s : State} (harmed : s.del.armed = true) (hstaged : s.del.staged = some a)
    (hfew : s.shift.opened.segments.length < 4) :
    (completeDoff s).shift.opened.segments.length = s.shift.opened.segments.length + 1 ∧
    (completeDoff s).shift.opened.segments.getLast? = some (Segment.opened (some (a.id, a.tex)) s.del.count) := by
  have hlength : (each s.indices book s).shift.opened.segments.length = s.shift.opened.segments.length :=
    each_keeps (fun u => u.shift.opened.segments.length) _ _ (fun i u => (book_counts i u).2) s
  obtain ⟨-, -, hsegments, -⟩ := completeDoff_switches harmed hstaged
  rw [show (completeDoff s).shift.opened.segments = _ from hsegments, (articleSwitch_switched hstaged).own hfew]
  exact ⟨by simp [hlength], by simp⟩

/-- Settles O42. -/
theorem doffCommandsByTheState : Obligations.DoffCommandsByTheState := by
  intro s tag hopen hw d now
  refine ⟨fun h => ?_, fun h => ?_, fun h h' h'' => ?_, fun h => ?_, fun h h' => ?_, fun h => ?_, fun h => ?_⟩
  · refine ⟨_, hostRow_done (c := .doffRequest) (k := 28) hopen (doDoffRequest_spinning hw h) rfl,
      onlyIn_setPort (onlyIn_mono (claim_onlyIn true s) (by simp)) (by simp) _, ?_, ?_, fun hfill => (claim_full hfill true).2⟩
    · exact congrArg (Port.completed 28 tag .done []) ((claim_onlyIn true s).2 .port (by simp))
    · by_cases hfill : s.fill < 1000
      · rw [if_pos hfill, if_pos hfill]
        exact congrArg State.doff (claim_normal hfill true)
      · rw [if_neg hfill, if_neg hfill]
        exact (claim_full (Nat.not_lt.1 hfill) true).1
  · exact hostRow_done (c := .doffRequest) hopen (doDoffRequest_claiming hw h) rfl
  · exact hostRow_refused (c := .doffRequest) hopen (doDoffRequest_busy hw h h' h'') rfl
  · obtain ⟨hblocks, hhold, hdoff, hdoffs, hdel, hcreel, hdoffing, hunknown, hsuspended⟩ := completeDoff_effect s
    refine ⟨_, hostRow_done (c := .doffComplete) (k := 29) hopen (doDoffComplete_works hw h) rfl,
      onlyIn_setPort (onlyIn_mono hblocks (by simp)) (by simp) _, congrArg (Port.completed 29 tag .done []) (hblocks.2 .port (by simp)),
      hhold, hdoff, hdoffs, fun hno => ?_, fun a harmed hstaged => ⟨?_, completeDoff_armed harmed hstaged,
      completeDoff_newSegment harmed hstaged⟩, fun h => hdoffing (by rw [h]; decide), hunknown, hsuspended⟩
    · have hkept : s.switched = s := if_neg (by rw [hno]; decide)
      exact ⟨hdel.trans (by rw [hkept]), hcreel.trans (by rw [hkept])⟩
    · refine hdel.trans ?_
      rw [show s.switched = _ from if_pos harmed]
      exact (articleSwitch_switched hstaged).del
  · exact hostRow_refused (c := .doffComplete) hopen (doDoffComplete_refused hw h h') rfl
  · obtain ⟨hblocks, hheld, hfull, hdoff, hline⟩ := abandon_effect s
    have hport : (abandon s).port = s.port := hblocks.2 .port (by simp)
    by_cases hrun : s.doff.state = .rundown
    · obtain ⟨hrblocks, -, hresumed⟩ := resumeEngagements_effect (abandon s)
      have hall : onlyIn [.pie, .doff, .line, .frame, .draws] s (resumeEngagements (abandon s)) :=
        onlyIn_seq hblocks hrblocks (by simp) (by simp)
      have hframe := resumeEngagements_besideAlerts (abandon s)
      refine ⟨_, hostRow_done (c := .doffAbandon) (k := 30) hopen (doDoffAbandon_rundown hw hrun) rfl,
        onlyIn_setPort (onlyIn_mono hall (by simp)) (by simp) _,
        congrArg (Port.completed 30 tag .done []) (hall.2 .port (by simp)),
        (holds_of_besideAlerts hframe (c := .doff) (by decide)).trans hheld,
        (holds_of_besideAlerts hframe (c := .copFull) (by decide)).trans hfull,
        (hrblocks.2 .doff (by simp)).trans hdoff, fun hno => absurd hrun hno, fun _ x hx hstate => ?_⟩
      have hpie : (abandon s).pie = s.pie := hblocks.2 .pie (by simp)
      have hsummary : SameSummary s (abandon s) := .of_pie (hblocks.2 .mon (by simp)) (hblocks.2 .del (by simp)) hport hpie
      have heng := hresumed x (by rw [cfg_of_port hport]; exact hx) (by rw [eng_of_pie hpie]; exact hstate)
      rw [hsummary.queuesEmpty] at heng
      exact heng
    · have h' : s.doff.state = .claimed ∨ s.doff.state = .fullWait ∨ s.doff.state = .granted ∨ s.doff.state = .unknown := by
        rcases h with h | h | h | h | h
        · exact .inl h
        · exact .inr (.inl h)
        · exact .inr (.inr (.inl h))
        · exact .inr (.inr (.inr h))
        · exact absurd h hrun
      exact ⟨_, hostRow_done (c := .doffAbandon) (k := 30) hopen (doDoffAbandon_works hw h') rfl,
        onlyIn_setPort (onlyIn_mono hblocks (by simp)) (by simp) _, congrArg (Port.completed 30 tag .done []) hport, hheld, hfull,
        hdoff, fun _ => ⟨hline, hblocks.2 .pie (by simp)⟩, fun hyes => absurd hyes hrun⟩
  · exact hostRow_refused (c := .doffAbandon) hopen (doDoffAbandon_refused hw h) rfl

end Sys2Proof.Machine
end

section
/-! PROOFS. An end that goes down, with the refill and the news that follow it (R26, R28, R45, R93, R126). -/

namespace Sys2Proof.Machine

/-! ### The record of an end that is not down -/

/-- The end runs, or has not been seen since it was found. -/
def Spindle.runs (r : Spindle) : Prop := r.state = .up ∨ r.state = .unseen

theorem Spindle.runs.notDown {r : Spindle} (h : r.runs) : r.state.isDown = false := by rcases h with h | h <;> rw [h] <;> rfl

theorem Spindle.runs.notWaiting {r : Spindle} (h : r.runs) : r.state ≠ .waiting ∧ r.state ≠ .queued := by
  rcases h with h | h <;> rw [h] <;> decide

theorem runs_sound {i : Nat} {s : State} (hs : s.tabled) (h : (s.sp i).runs) (hi : s.hasSpindle i = true) :
    (s.sp i).cause = none ∧ ((s.sp i).state = .up → (s.sp i).bookedTo = none) := by
  obtain ⟨-, hsound, -⟩ := hs
  obtain ⟨hcause, hto, -⟩ := hsound _ (sp_mem hi)
  refine ⟨?_, fun hup => ?_⟩
  · rw [hcause]
    rcases h with h | h <;> rw [h] <;> rfl
  · rw [hup] at hto
    simpa using hto

/-- A record that goes down counts from the present second and the present pulse. -/
theorem moved_goesDown {st : SpState} {r : Spindle} (h : r.state.isDown = false) (hst : st.isDown = true) (now p : Nat) :
    (r.moved st now p).downSince = some now ∧ (r.moved st now p).bookedTo = some p := by
  cases st with
  | up | unseen | unobserved => cases hst
  | _ => simp [Spindle.moved, h]

/-- Booking an end that runs sets its booked-to alone. -/
theorem book_runs {i : Nat} {s : State} (hs : s.tabled) (hi : s.hasSpindle i = true) (hc : s.shift.closing = none)
    (h : (s.sp i).runs) : ∃ b, (book i s).sp i = { s.sp i with bookedTo := b } := by
  rw [book_self hi hc]
  split
  · exact ⟨_, rfl⟩
  · rw [(runs_sound hs h hi).1]
    exact ⟨_, rfl⟩

theorem book_remaining {i : Nat} {s : State} (hs : s.tabled) (hi : s.hasSpindle i = true) (hc : s.shift.closing = none)
    (h : (s.sp i).runs) : (book i s).remaining i = s.remaining i := by
  obtain ⟨b, hb⟩ := book_runs hs hi hc h
  have hdown : (s.sp i).state.isDown = false := h.notDown
  have hfrom : ∀ base, (book i s).remainingFrom base i = s.remainingFrom base i := fun base => by
    unfold State.remainingFrom State.draft State.count
    rw [hb]
    simp [hdown, cfg_of_port (show (book i s).port = s.port by simp)]
  rw [State.remaining, State.remaining, sec_of_creel (show (book i s).creel = s.creel by simp)]
  exact congrArg (fun f => (s.sec (stripOf i)).base.map f) (funext hfrom)

/-! ### A break that goes down (R45) -/

/-- The record as a break of kind `k` counts it. -/
def Spindle.brokeDown (k : Placement) (r : Spindle) : Spindle :=
  match k with
  | .sensed => { r with shiftBreaks := min 255 (r.shiftBreaks + 1) }
  | .settle => { r with doffStart := true }
  | .found | .reload => r

theorem countDown_sp {i : Nat} {s : State} (hi : s.hasSpindle i = true) (k : Placement) :
    (countDown k i s).sp i = (s.sp i).brokeDown k ∧ ∀ j, j ≠ i → (countDown k i s).sp j = s.sp j := by
  cases k with
  | sensed =>
    have hmon : (countDown .sensed i s).mon = (modifySp i (Spindle.brokeDown .sensed) s).mon := rfl
    exact ⟨(sp_of_mon hmon i).trans (modifySp_sp_self hi _), fun j hj => (sp_of_mon hmon j).trans (modifySp_sp_ne hj.symm _ s)⟩
  | settle =>
    have hmon : (countDown .settle i s).mon = (modifySp i (Spindle.brokeDown .settle) s).mon := rfl
    exact ⟨(sp_of_mon hmon i).trans (modifySp_sp_self hi _), fun j hj => (sp_of_mon hmon j).trans (modifySp_sp_ne hj.symm _ s)⟩
  | found | reload => exact ⟨rfl, fun _ _ => rfl⟩

theorem countDown_closing {s : State} (hc : s.shift.closing = none) (k : Placement) (i : Nat) : (countDown k i s).shift.closing = none := by
  cases k <;> exact hc

theorem brokeDown_state (k : Placement) (r : Spindle) : (r.brokeDown k).state = r.state := by cases k <;> rfl

/-- A record that was not down, placed: it counts as down from now on, and only a sensed break makes it rogue. -/
theorem place_goesDown {k : Placement} {i : Nat} {s : State} (hi : s.hasSpindle i = true) (hc : s.shift.closing = none)
    (h : (s.sp i).state.isDown = false) :
    let t := place k i s
    (t.sp i).downSince = some s.del.seconds ∧ (t.sp i).bookedTo = some s.del.count ∧
    ((t.sp i).state = .queued ∨ (t.sp i).state = .waiting ∨ k = .sensed ∧ (t.sp i).state = .rogue) ∧
    (k ≠ .sensed → (t.sp i).doffStart = (s.sp i).doffStart ∧ (t.sp i).lostSinceBase = (s.sp i).lostSinceBase) ∧
    ((s.sp i).bookedTo = none ∨ k ≠ .sensed → t.shift = s.shift) := by
  intro t
  have hsp : (setSp i ((s.sp i).placed k) s).sp i = (s.sp i).placed k :=
    sp_setSp_self i _ s (range_of_has hi).1 (range_of_has hi).2
  have hi' : (setSp i ((s.sp i).placed k) s).hasSpindle i = true := by simpa using hi
  have hc' : (setSp i ((s.sp i).placed k) s).shift.closing = none := hc
  by_cases hrogue : s.placesRogue k i
  · have ht : t = makeRogue i (setSp i ((s.sp i).placed k) s) := place_rogue hc hrogue
    obtain ⟨hstate, -, -, -, -, -, -, -, -⟩ := book_fields hi' hc
    have hself : t.sp i = Spindle.moved .rogue s.now s.count
        { (book i (setSp i ((s.sp i).placed k) s)).sp i with rogueMark := true } := by
      rw [ht, makeRogue_self hi' hc]
      simp [State.now, State.count]
    obtain ⟨hsince, hto⟩ := moved_goesDown (st := .rogue)
      (r := { (book i (setSp i ((s.sp i).placed k) s)).sp i with rogueMark := true }) (by rw [hstate, hsp]; exact h) rfl s.now s.count
    have hkind : k = .sensed := hrogue.1
    rw [hself]
    refine ⟨hsince, hto, .inr (.inr ⟨hkind, moved_state ..⟩), fun hno => absurd hkind hno, fun hnone => ?_⟩
    have hnone : ((setSp i ((s.sp i).placed k) s).sp i).bookedTo = none := by
      rw [hsp]
      exact hnone.resolve_right fun h => h hkind
    rw [ht, makeRogue_shift_idle hc', book_none hnone]
    rfl
  · have ht : t = joinQueue i (setSp i ((s.sp i).placed k) s) := place_joins hc hrogue
    have hshift : t.shift = s.shift := by
      rw [ht, joinQueue_shift_idle hc']
      rfl
    have hself : ∃ st, (st = .queued ∨ st = .waiting) ∧ t.sp i = ((s.sp i).placed k).moved st s.now s.count := by
      rw [ht, joinQueue_self hi' hc, hsp]
      split
      · exact ⟨_, .inl rfl, rfl⟩
      · exact ⟨_, .inr rfl, rfl⟩
    obtain ⟨st, hst, hself⟩ := hself
    obtain ⟨hsince, hto⟩ := moved_goesDown (st := st) (r := (s.sp i).placed k) h (by rcases hst with rfl | rfl <;> rfl) s.now s.count
    rw [hself]
    refine ⟨hsince, hto, ?_, fun _ => ?_, fun _ => hshift⟩
    · rw [moved_state]
      exact hst.imp_right .inl
    · refine ⟨?_, moved_lost ..⟩
      rcases hst with rfl | rfl <;> simp [Spindle.moved, SpState.cause, Spindle.placed, h]

/-! ### Where an end that goes down goes (R26, R28, R126) -/

/-- The end goes down as a break: its section is UNKNOWN, or NORMAL with more roving than the margin. -/
def State.breaksDown (s : State) (i : Nat) : Prop :=
  (s.sec (stripOf i)).state = .unknown ∨
  (s.sec (stripOf i)).state = .normal ∧ s.atMargin ((s.remaining i).getD 0) = false

section
variable {i : Nat} {s : State} (k : Placement) (hc : s.shift.closing = none)
include hc

theorem goDown_exchange (hx : (s.sec (stripOf i)).state = .exchanging) : goDown k i s = bookEnter i .exchange s := by
  have hcondition : (book i s).condition i = .exchanging := by
    rw [State.condition, sec_of_creel (show (book i s).creel = s.creel by simp), hx]
  unfold goDown
  dsimp only
  rw [touch_idle hc, hcondition]
  rfl

variable (hs : s.tabled) (hi : s.hasSpindle i = true) (h : (s.sp i).runs)
include hs hi h

theorem goDown_normal (hn : (s.sec (stripOf i)).state = .normal) : goDown k i s =
    if s.atMargin ((s.remaining i).getD 0) = true then goneEmpty i (bookEnter i .empty s) else place k i (countDown k i (book i s)) := by
  have hcondition : (book i s).condition i = .normal ((s.remaining i).getD 0) := by
    rw [State.condition, sec_of_creel (show (book i s).creel = s.creel by simp), hn, book_remaining hs hi hc h]
  have hmargin : (book i s).atMargin ((s.remaining i).getD 0) = s.atMargin ((s.remaining i).getD 0) := by
    rw [State.atMargin, State.atMargin, cfg_of_port (show (book i s).port = s.port by simp)]
  unfold goDown
  dsimp only
  rw [touch_idle hc, hcondition]
  dsimp only
  rw [hmargin]
  rfl

theorem goDown_breaks (hb : s.breaksDown i) : goDown k i s = place k i (countDown k i (book i s)) := by
  obtain hu | ⟨hn, hm⟩ := hb
  · have hcondition : (book i s).condition i = .unknown := by
      rw [State.condition, sec_of_creel (show (book i s).creel = s.creel by simp), hu]
    unfold goDown
    dsimp only
    rw [touch_idle hc, hcondition]
  · rw [goDown_normal k hc hs hi h hn, if_neg (by rw [hm]; decide)]
end

end Sys2Proof.Machine
end

section
/-! PROOFS. What an end that goes down leaves of itself and of the others (R26, R28, R45, R93, R126, R145). -/

namespace Sys2Proof.Machine

/-! ### The end itself -/

/-- What has become of record `i`, which ran in `s`, once it has gone down as a placement of kind `k`. -/
structure GoesDown (k : Placement) (i : Nat) (s t : State) : Prop where
  downSince : (t.sp i).downSince = some s.del.seconds
  bookedTo : (t.sp i).bookedTo = some s.del.count
  lazy : (t.sp i).lazy = (s.sp i).lazy
  exchange : (s.sec (stripOf i)).state = .exchanging → (t.sp i).state = .exchange ∧ (t.sp i).cause = some .roving ∧
    (t.sp i).shiftBreaks = (s.sp i).shiftBreaks ∧ t.shift = (book i s).shift
  empty : (s.sec (stripOf i)).state = .normal → s.atMargin ((s.remaining i).getD 0) = true →
    (t.sp i).state = .empty ∧ (t.sp i).cause = some .roving ∧ (t.sp i).shiftBreaks = (s.sp i).shiftBreaks ∧
    (s.noneAtMargin (stripOf i) → t.shift = (book i s).shift)
  breaks : s.breaksDown i → ((t.sp i).state.inPiecing ∨ k = .sensed ∧ (t.sp i).state = .rogue) ∧
    (t.sp i).shiftBreaks = ((s.sp i).brokeDown k).shiftBreaks ∧ (t.sp i).attempts = (s.sp i).placedAttempts k ∧
    (t.sp i).piecedAt = none ∧ (k ≠ .sensed →
      (t.sp i).doffStart = ((s.sp i).brokeDown k).doffStart ∧ (t.sp i).lostSinceBase = (s.sp i).lostSinceBase) ∧
    ((s.sp i).state = .up ∨ k ≠ .sensed → t.shift = (countDown k i (book i s)).shift)

/-- What refills and decisions keep. -/
theorem GoesDown.kept {k : Placement} {i : Nat} {s t u : State} (h : GoesDown k i s t) (hi : PlaceKept (t.sp i) (u.sp i))
    (hshift : u.shift = t.shift) : GoesDown k i s u := by
  have hout : ∀ {st : SpState}, (t.sp i).state = st → ¬ st.inPiecing → u.sp i = t.sp i := fun hst hno => hi.outside (by rw [hst]; exact hno)
  refine ⟨hi.downSince.trans h.downSince, hi.bookedTo.trans h.bookedTo, hi.lazy.trans h.lazy, fun hx => ?_, fun hn hm => ?_, fun hb => ?_⟩
  · have hto := h.exchange hx
    rw [hout hto.1 (by simp [SpState.inPiecing]), hshift]
    exact hto
  · have hto := h.empty hn hm
    rw [hout hto.1 (by simp [SpState.inPiecing]), hshift]
    exact hto
  · obtain ⟨hstate, hbreaks, hatt, hpieced, hstart, hcount⟩ := h.breaks hb
    refine ⟨?_, hi.shiftBreaks.trans hbreaks, hi.attempts.trans hatt, hi.unpieced hpieced,
      fun hk => ⟨hi.doffStart.trans (hstart hk).1, hi.lost.trans (hstart hk).2⟩, fun hk => hshift.trans (hcount hk)⟩
    obtain hp | ⟨hk, hrogue⟩ := hstate
    · exact .inl (hi.stays hp)
    · exact .inr ⟨hk, by rw [hout hrogue (by simp [SpState.inPiecing])]; exact hrogue⟩

/-- An end that runs, booked and taken to EXCHANGE or EMPTY. -/
theorem bookEnter_runs {i : Nat} {s : State} (hi : s.hasSpindle i = true) (hc : s.shift.closing = none) (h : (s.sp i).runs) {st : SpState}
    (hst : st = .exchange ∨ st = .empty) :
    let t := bookEnter i st s
    (t.sp i).state = st ∧ (t.sp i).cause = some .roving ∧ (t.sp i).shiftBreaks = (s.sp i).shiftBreaks ∧
    (t.sp i).lazy = (s.sp i).lazy ∧ (t.sp i).downSince = some s.del.seconds ∧ (t.sp i).bookedTo = some s.del.count := by
  intro t
  obtain ⟨hstate, -, hbreaks, -, hlazy, -⟩ := book_fields hi hc
  have hself : t.sp i = _ := bookEnter_self hi hc st
  obtain ⟨hsince, hto⟩ := moved_goesDown (st := st) (r := (book i s).sp i) (by rw [hstate]; exact h.notDown)
    (by rcases hst with rfl | rfl <;> rfl) s.now s.count
  rw [hself]
  refine ⟨moved_state .., ?_, by rw [moved_shiftBreaks]; exact hbreaks, by rw [moved_lazy]; exact hlazy, hsince, hto⟩
  rw [moved_cause]
  rcases hst with rfl | rfl <;> rfl

/-- Taking record `i` out of piecing's way leaves no further end at the margin. -/
theorem bookEnter_noneAtMargin {i : Nat} {s : State} (hempty : ((bookEnter i .empty s).sp i).state = .empty)
    (h : s.noneAtMargin (stripOf i)) : (bookEnter i .empty s).noneAtMargin (stripOf i) := by
  intro j left hj hstate hleft
  have hne : i ≠ j := fun heq => by
    rw [← heq, hempty] at hstate
    rcases hstate with h | h <;> cases h
  have hsp := bookEnter_sp_ne hne .empty s
  have hport : (bookEnter i .empty s).port = s.port := by simp
  rw [hsp] at hstate
  rw [remaining_congr hsp (sec_of_creel (by simp) _) (by simp) hport] at hleft
  have hnot := h j left hj hstate hleft
  unfold State.atMargin at hnot ⊢
  rw [cfg_of_port hport]
  exact hnot

section
variable {k : Placement} {i : Nat} {s : State} (hs : s.tabled) (hi : s.hasSpindle i = true) (hc : s.shift.closing = none)
  (h : (s.sp i).runs)
include hs hi hc h

theorem goDown_place (hb : s.breaksDown i) : GoesDown k i s (goDown k i s) := by
  obtain ⟨b, hbook⟩ := book_runs hs hi hc h
  have hi' : (countDown k i (book i s)).hasSpindle i = true := by simpa using hi
  have hc' := countDown_closing (book_closing i hc) k i
  obtain ⟨hself, -⟩ := countDown_sp (s := book i s) (by simpa using hi) k
  have hstate : ((countDown k i (book i s)).sp i).state = (s.sp i).state := by rw [hself, brokeDown_state, hbook]
  have hdel : (countDown k i (book i s)).del = s.del := by simp
  obtain ⟨hatt, hpieced, hbreaks, hlazy, -⟩ := place_effect (k := k) hi' hc'
  obtain ⟨hsince, hto, hwhere, hstart, hshift⟩ := place_goesDown (k := k) hi' hc' (by rw [hstate]; exact h.notDown)
  rw [goDown_breaks k hc hs hi h hb]
  have hsame : ((countDown k i (book i s)).sp i).shiftBreaks = ((s.sp i).brokeDown k).shiftBreaks ∧
      ((countDown k i (book i s)).sp i).doffStart = ((s.sp i).brokeDown k).doffStart ∧
      ((countDown k i (book i s)).sp i).lazy = (s.sp i).lazy ∧
      ((countDown k i (book i s)).sp i).lostSinceBase = (s.sp i).lostSinceBase ∧
      ((countDown k i (book i s)).sp i).placedAttempts k = (s.sp i).placedAttempts k := by
    rw [hself, hbook]
    cases k <;> exact ⟨rfl, rfl, rfl, rfl, rfl⟩
  obtain ⟨hsameBreaks, hsameStart, hsameLazy, hsameLost, hsameAtt⟩ := hsame
  rw [hdel] at hsince hto
  have hapart : (s.sec (stripOf i)).state ≠ .exchanging ∧
      ¬ ((s.sec (stripOf i)).state = .normal ∧ s.atMargin ((s.remaining i).getD 0) = true) := by
    rcases hb with hu | ⟨hn, hm⟩
    · rw [hu]
      exact ⟨by decide, fun hno => by cases hno.1⟩
    · rw [hn, hm]
      exact ⟨by decide, fun hno => by cases hno.2⟩
  refine ⟨hsince, hto, hlazy.trans hsameLazy, fun hx => absurd hx hapart.1, fun hn hm => absurd ⟨hn, hm⟩ hapart.2,
    fun _ => ⟨?_, hbreaks.trans hsameBreaks, hatt.trans hsameAtt, hpieced,
      fun hk => ⟨(hstart hk).1.trans hsameStart, (hstart hk).2.trans hsameLost⟩, fun hk => hshift ?_⟩⟩
  · rcases hwhere with hq | hw | hr
    · exact .inl (.inl hq)
    · exact .inl (.inr (.inl hw))
    · exact .inr hr
  · refine hk.imp_left fun hup => ?_
    have hnone := (runs_sound hs h hi).2 hup
    rw [hself, book_none hnone]
    cases k <;> exact hnone

theorem goDown_goesDown : GoesDown k i s (goDown k i s) := by
  cases hsec : (s.sec (stripOf i)).state with
  | exchanging =>
    obtain ⟨hstate, hcause, hbreaks, hlazy, hsince, hto⟩ := bookEnter_runs hi hc h (.inl rfl)
    rw [goDown_exchange k hc hsec]
    exact ⟨hsince, hto, hlazy, fun _ => ⟨hstate, hcause, hbreaks, bookEnter_shift_idle hc i _⟩,
      fun hn => absurd (hsec.symm.trans hn) (by decide), fun hb => hb.elim (fun hu => absurd (hsec.symm.trans hu) (by decide))
        (fun hn => absurd (hsec.symm.trans hn.1) (by decide))⟩
  | unknown => exact goDown_place hs hi hc h (.inl hsec)
  | normal =>
    by_cases hm : s.atMargin ((s.remaining i).getD 0) = true
    · have hentered := bookEnter_runs hi hc h (.inr rfl)
      have htabled := tabled_bookEnter hs i .empty (by decide) (by decide)
      obtain ⟨-, -, hsp, -, hshift⟩ := goneEmpty_effect htabled (bookEnter_closing hc i _) hentered.1
      obtain ⟨hstate, hcause, hbreaks, hlazy, hsince, hto⟩ := hentered
      rw [goDown_normal k hc hs hi h hsec, if_pos hm]
      refine ⟨by rw [hsp]; exact hsince, by rw [hsp]; exact hto, by rw [hsp]; exact hlazy,
        fun hx => absurd (hsec.symm.trans hx) (by decide), fun _ _ => ?_, fun hb => hb.elim
          (fun hu => absurd (hsec.symm.trans hu) (by decide)) (fun hn => absurd (hn.2.symm.trans hm) (by decide))⟩
      rw [hsp]
      exact ⟨hstate, hcause, hbreaks, fun hnone =>
        (hshift (bookEnter_noneAtMargin hstate hnone)).trans (bookEnter_shift_idle hc i _)⟩
    · exact goDown_place hs hi hc h (.inr ⟨hsec, Bool.eq_false_iff.2 hm⟩)

theorem goDown_closing : (goDown k i s).shift.closing = none := by
  have hplaced : ∀ u : State, u.hasSpindle i = true → u.shift.closing = none → (place k i u).shift.closing = none := fun u hu hcu => by
    have hcs : (setSp i ((u.sp i).placed k) u).shift.closing = none := hcu
    by_cases hrogue : u.placesRogue k i
    · rw [place_rogue hcu hrogue, makeRogue_shift_idle hcs]
      exact book_closing i hcs
    · rw [place_joins hcu hrogue, joinQueue_shift_idle hcs]
      exact hcs
  have hbroken : (place k i (countDown k i (book i s))).shift.closing = none :=
    hplaced _ (by simpa using hi) (countDown_closing (book_closing i hc) k i)
  cases hsec : (s.sec (stripOf i)).state with
  | exchanging =>
    rw [goDown_exchange k hc hsec]
    exact bookEnter_closing hc i _
  | unknown =>
    rw [goDown_breaks k hc hs hi h (.inl hsec)]
    exact hbroken
  | normal =>
    rw [goDown_normal k hc hs hi h hsec]
    split
    · have htabled := tabled_bookEnter hs i .empty (by decide) (by decide)
      exact (goneEmpty_effect htabled (bookEnter_closing hc i _) (bookEnter_runs hi hc h (.inr rfl)).1).2.1
    · exact hbroken

/-- The end that goes down, with the refill and the news that follow. -/
theorem event_goesDown : GoesDown k i s (piecingEvent (goDown k i) s) := by
  have hclosing := goDown_closing (k := k) hs hi hc h
  exact (goDown_goesDown hs hi hc h).kept ((keepsPlaces_piecingEvent (tabled_goDown hs k i hi) hclosing).2 i)
    (piecingEvent_shift_idle hclosing)
end

end Sys2Proof.Machine
end

section
/-! PROOFS. A classifying read of one record, by its state and the class of its count (R26 to R31). -/

namespace Sys2Proof.Machine

/-! ### A record with other read counters -/

theorem modifySp_onlyIn (i : Nat) (f : Spindle → Spindle) (s : State) : onlyIn [.mon] s (modifySp i f s) :=
  ⟨rfl, fun b hb => by cases b <;> simp_all [Block.same]⟩

theorem modifySp_remaining {i : Nat} {s : State} (hi : s.hasSpindle i = true) {f : Spindle → Spindle}
    (hf : (f (s.sp i)).state = (s.sp i).state ∧ (f (s.sp i)).bookedTo = (s.sp i).bookedTo ∧
      (f (s.sp i)).lostSinceBase = (s.sp i).lostSinceBase) : (modifySp i f s).remaining i = s.remaining i := by
  obtain ⟨hstate, hto, hlost⟩ := hf
  have hfrom : ∀ base, (modifySp i f s).remainingFrom base i = s.remainingFrom base i := fun base => by
    unfold State.remainingFrom
    rw [modifySp_sp_self hi]
    dsimp only
    rw [hstate, hto, hlost]
    rfl
  exact congrArg (fun f => (s.sec (stripOf i)).base.map f) (funext hfrom)

theorem countEvent_shift_congr {k : Counted} {s t : State} (h : t.shift = s.shift) : (countEvent k t).shift = (countEvent k s).shift := by
  unfold countEvent
  dsimp only
  rw [h]

/-! ### UP and UNSEEN records that come or stay up (R26 to R28) -/

/-- The record of an UP end after a read of class `c`. -/
def Spindle.readUp (c : ReadClass) (r : Spindle) : Spindle :=
  { (r.lazyRead c).1 with downRun := min 2 (if c = .down then r.downRun + 1 else 0) }

/-- The class whose twenty reads in a row turn the lazy flag. -/
def Spindle.turnClass (r : Spindle) : ReadClass := if r.lazy then .up else .slow

theorem lazyRead_record (c : ReadClass) (r : Spindle) : (r.lazyRead c).1 =
    if c = r.turnClass then if 19 ≤ r.slowRun then { r with lazy := !r.lazy, slowRun := 0 } else { r with slowRun := r.slowRun + 1 }
    else { r with slowRun := 0 } := by
  have hreads : Config.lazyReads ≤ r.slowRun + 1 ↔ 19 ≤ r.slowRun := by rw [show Config.lazyReads = 20 from rfl]; omega
  unfold Spindle.lazyRead Spindle.turnClass
  cases hlazy : r.lazy with
  | false =>
    by_cases hturn : c = .slow
    · by_cases hlong : 19 ≤ r.slowRun <;> simp [hturn, hreads, hlong]
    · simp [hturn]
  | true =>
    by_cases hturn : c = .up
    · by_cases hlong : 19 ≤ r.slowRun <;> simp [hturn, hreads, hlong]
    · simp [hturn]

theorem readUp_stays {c : ReadClass} (h : c ≠ .down) (r : Spindle) : r.readUp c = { r with
    downRun := 0
    lazy := if 19 ≤ r.slowRun ∧ c = r.turnClass then !r.lazy else r.lazy
    slowRun := if c = r.turnClass ∧ r.slowRun < 19 then r.slowRun + 1 else 0 } := by
  unfold Spindle.readUp
  rw [if_neg h, lazyRead_record]
  by_cases hturn : c = r.turnClass
  · by_cases hlong : 19 ≤ r.slowRun
    · rw [if_pos hturn, if_pos hlong, if_pos ⟨hlong, hturn⟩, if_neg fun hno => Nat.not_lt.2 hlong hno.2]
      rfl
    · rw [if_pos hturn, if_neg hlong, if_neg fun hno => hlong hno.1, if_pos ⟨hturn, Nat.not_le.1 hlong⟩]
      rfl
  · rw [if_neg hturn, if_neg fun hno => hturn hno.2, if_neg fun hno => hturn hno.1]
    rfl

theorem readUp_down (r : Spindle) : r.readUp .down = { r with downRun := min 2 (r.downRun + 1), slowRun := 0 } ∧
    (r.lazyRead .down).2 = false := by
  unfold Spindle.readUp Spindle.lazyRead
  cases r.lazy <;> exact ⟨rfl, rfl⟩

/-- A read that is not DOWN. -/
theorem classifyUp_stays {i : Nat} {c : ReadClass} {s : State} (hi : s.hasSpindle i = true) (h : c ≠ .down) :
    (classifyUp i c s).sp i = (s.sp i).readUp c := by
  have hself : (modifySp i (Spindle.readUp c) s).sp i = (s.sp i).readUp c := modifySp_sp_self hi _
  have ht : classifyUp i c s = if ((s.sp i).lazyRead c).2 = true
      then raiseAlert .lazySpindle .note (some i) (modifySp i (Spindle.readUp c) s) else modifySp i (Spindle.readUp c) s := by
    have hrun : ¬ 2 ≤ (if c = .down then (s.sp i).downRun + 1 else 0) := by simp [h]
    exact if_neg hrun
  rw [ht]
  split
  · exact (sp_of_mon (by simp) i).trans hself
  · exact hself

theorem classifyUp_down (i : Nat) (s : State) : classifyUp i .down s =
    if 1 ≤ (s.sp i).downRun then piecingEvent (goDown .sensed i) (modifySp i (Spindle.readUp .down) s)
    else modifySp i (Spindle.readUp .down) s := by
  have hraw : classifyUp i .down s = (fun u => if 2 ≤ (s.sp i).downRun + 1 then piecingEvent (goDown .sensed i) u else u)
      (if ((s.sp i).lazyRead .down).2 = true then raiseAlert .lazySpindle .note (some i) (modifySp i (Spindle.readUp .down) s)
        else modifySp i (Spindle.readUp .down) s) := rfl
  rw [hraw, (readUp_down _).2]
  by_cases h : 1 ≤ (s.sp i).downRun
  · rw [if_pos h]
    exact if_pos (by omega)
  · rw [if_neg h]
    exact if_neg (by omega)

/-- An end that comes up, booked. -/
theorem bookEnter_up {i : Nat} {s : State} (hi : s.hasSpindle i = true) (hc : s.shift.closing = none) :
    let r := s.sp i
    let t := bookEnter i .up s
    (t.sp i).state = .up ∧ (t.sp i).cause = none ∧ (t.sp i).bookedTo = none ∧ (t.sp i).downSince = none ∧
    (t.sp i).shiftBreaks = r.shiftBreaks ∧ (t.sp i).slowRun = ((book i s).sp i).slowRun ∧
    (r.state = .ordered ∨ r.state = .confirming → (t.sp i).attempts = r.attempts ∧
      (t.sp i).piecedAt = some (r.piecedAt.getD s.del.seconds)) ∧
    (¬ (r.state = .ordered ∨ r.state = .confirming) → (t.sp i).attempts = 0 ∧ (t.sp i).piecedAt = none) ∧
    t.shift = (book i s).shift := by
  intro r t
  obtain ⟨hstate, hatt, hbreaks, -, -, -, hpieced, -⟩ := book_fields hi hc
  have hself : t.sp i = _ := bookEnter_self hi hc .up
  rw [hself]
  refine ⟨moved_state .., moved_cause .., rfl, rfl, (moved_shiftBreaks ..).trans hbreaks, rfl, fun hrobot => ?_, fun hhand => ?_,
    bookEnter_shift_idle hc i _⟩
  · have hrobot' : ((book i s).sp i).state = .ordered ∨ ((book i s).sp i).state = .confirming := by rw [hstate]; exact hrobot
    rw [← hatt, ← hpieced]
    exact ⟨if_pos hrobot', if_pos hrobot'⟩
  · have hhand' : ¬ (((book i s).sp i).state = .ordered ∨ ((book i s).sp i).state = .confirming) := by rw [hstate]; exact hhand
    exact ⟨if_neg hhand', if_neg hhand'⟩

theorem classifyUnseen_up {i : Nat} {c : ReadClass} {s : State} (hs : s.tabled) (hi : s.hasSpindle i = true)
    (hc : s.shift.closing = none) (hunseen : (s.sp i).state = .unseen) (h : c = .up ∨ c = .slow) :
    let t := classifyUnseen i c s
    (t.sp i).state = .up ∧ (t.sp i).bookedTo = none ∧ t.shift = (book i s).shift ∧
    (t.sp i).slowRun = if c = .slow then 1 else (s.sp i).slowRun := by
  intro t
  obtain ⟨hstate, -, hto, -, -, hslow, -, -, hshift⟩ := bookEnter_up hi hc
  obtain ⟨b, hb⟩ := book_runs hs hi hc (.inr hunseen)
  obtain rfl | rfl := h
  · exact ⟨hstate, hto, hshift, hslow.trans (by rw [hb]; rfl)⟩
  · have hself : t.sp i = { (bookEnter i .up s).sp i with slowRun := 1 } := modifySp_sp_self ((has_of_beside (bookEnter_beside i .up s) i).trans hi) _
    rw [hself]
    exact ⟨hstate, hto, hshift, rfl⟩

/-! ### Ends that go down (R26, R28) -/

theorem classifyUp_goesDown {i : Nat} {s : State} (hs : s.tabled) (hi : s.hasSpindle i = true) (hc : s.shift.closing = none)
    (hup : (s.sp i).state = .up) (hrun : 1 ≤ (s.sp i).downRun) :
    GoesDown .sensed i (modifySp i (Spindle.readUp .down) s) (classifyUp i .down s) := by
  have hself : (modifySp i (Spindle.readUp .down) s).sp i = (s.sp i).readUp .down := modifySp_sp_self hi _
  have hstate : ((s.sp i).readUp .down).state = (s.sp i).state := by rw [(readUp_down _).1]
  rw [classifyUp_down, if_pos hrun]
  refine event_goesDown (tabled_modifySp hs i _ fun r => ?_) (by simpa using hi) hc (.inl (by rw [hself, hstate]; exact hup))
  rw [(readUp_down r).1]
  exact ⟨rfl, rfl, rfl, rfl⟩

/-! ### Records in piecing (R29 to R31) -/

theorem classifyBroken_eq (i : Nat) (c : ReadClass) (s : State) : classifyBroken i c s =
    if c = .up ∧ 1 ≤ (s.sp i).downRun then
      piecingEvent (fun u => countEvent .byHand (bookEnter i .up u)) (modifySp i (fun r => { r with downRun := 2 }) s)
    else modifySp i (fun r => { r with downRun := if c = .up then 1 else 0 }) s := by
  have hraw : classifyBroken i c s = (fun run =>
      if 2 ≤ run then piecingEvent (fun u => countEvent .byHand (bookEnter i .up u)) (modifySp i (fun r => { r with downRun := min 2 run }) s)
      else modifySp i (fun r => { r with downRun := min 2 run }) s) (if c = .up then (s.sp i).downRun + 1 else 0) := rfl
  rw [hraw]
  by_cases hup : c = .up
  · rw [if_pos hup, if_pos hup]
    dsimp only
    by_cases hrun : 1 ≤ (s.sp i).downRun
    · have hmin : min 2 ((s.sp i).downRun + 1) = 2 := by omega
      rw [if_pos (by omega : 2 ≤ (s.sp i).downRun + 1), if_pos ⟨hup, hrun⟩, hmin]
    · have hzero : (s.sp i).downRun = 0 := by omega
      rw [if_neg (by omega : ¬ 2 ≤ (s.sp i).downRun + 1), if_neg fun hno => hrun hno.2, hzero]
      rfl
  · rw [if_neg hup, if_neg hup, if_neg fun hno => hup hno.1]
    exact if_neg (by decide)

/-- A piecing by hand: the second UP read in a row of a WAITING or QUEUED record. -/
theorem classifyBroken_hand {i : Nat} {s : State} (hs : s.tabled) (hi : s.hasSpindle i = true) (hc : s.shift.closing = none)
    (hstate : (s.sp i).state = .waiting ∨ (s.sp i).state = .queued) (hrun : 1 ≤ (s.sp i).downRun) :
    let t := classifyBroken i .up s
    (t.sp i).state = .up ∧ (t.sp i).cause = none ∧ (t.sp i).bookedTo = none ∧ (t.sp i).attempts = 0 ∧ (t.sp i).piecedAt = none ∧
    (t.sp i).shiftBreaks = (s.sp i).shiftBreaks ∧ t.shift = (countEvent .byHand (book i s)).shift := by
  intro t
  have ht : t = piecingEvent (fun u => countEvent .byHand (bookEnter i .up u)) (modifySp i (fun r => { r with downRun := 2 }) s) := by
    rw [show t = _ from classifyBroken_eq i .up s, if_pos ⟨rfl, hrun⟩]
  have hself : (modifySp i (fun r => { r with downRun := 2 }) s).sp i = { s.sp i with downRun := 2 } := modifySp_sp_self hi _
  have htabled : (modifySp i (fun r => { r with downRun := 2 }) s).tabled := tabled_modifySp hs i _ (by simp)
  have hi' : (modifySp i (fun r => { r with downRun := 2 }) s).hasSpindle i = true := by simpa using hi
  have hc' : (modifySp i (fun r => { r with downRun := 2 }) s).shift.closing = none := hc
  have hshift' : (modifySp i (fun r => { r with downRun := 2 }) s).shift = s.shift := rfl
  have hdel : (modifySp i (fun r => { r with downRun := 2 }) s).del = s.del := rfl
  have hdown : (s.sp i).state.isDown = true := by rcases hstate with h | h <;> rw [h] <;> rfl
  generalize modifySp i (fun r => { r with downRun := 2 }) s = u at *
  obtain ⟨hup, hcause, hto, -, hbreaks, -, -, hhand, hshift⟩ := bookEnter_up hi' hc'
  obtain ⟨hatt, hpieced⟩ := hhand (by rw [hself]; rcases hstate with h | h <;> rw [h] <;> decide)
  have hcounted : (countEvent .byHand (bookEnter i .up u)).tabled := tabled_countEvent (tabled_bookEnter htabled i .up (by decide) (by decide)) _
  have hsp : t.sp i = (bookEnter i .up u).sp i := by
    rw [ht]
    exact piecingEvent_sp (fun u => countEvent .byHand (bookEnter i .up u)) hcounted i
      (fun hno => by cases hup.symm.trans hno) (fun hno => by cases hup.symm.trans hno)
  have hbook : (book i u).shift = (book i s).shift :=
    book_shift_congr hc hshift' (by rw [hdel]) (by rw [hself]) (by rw [hself]) (bookedTo_of_isDown hs hi hdown)
  have hclosing : (countEvent .byHand (bookEnter i .up u)).shift.closing = none := bookEnter_closing hc' i _
  rw [hsp]
  refine ⟨hup, hcause, hto, hatt, hpieced, hbreaks.trans (by rw [hself]), ?_⟩
  rw [ht, piecingEvent_shift_idle (f := fun u => countEvent .byHand (bookEnter i .up u)) hclosing]
  exact countEvent_shift_congr (hshift.trans hbook)

theorem classifyConfirming_eq (i : Nat) (c : ReadClass) (s : State) (h : c ≠ .up) : classifyConfirming i c s =
    if 2 ≤ (s.sp i).confirmReads then piecingEvent (failedPiecing i) (modifySp i (fun r => { r with confirmReads := 3 }) s)
    else modifySp i (fun r => { r with confirmReads := (s.sp i).confirmReads + 1 }) s := by
  unfold classifyConfirming
  rw [if_neg h]
  dsimp only
  by_cases hlast : 2 ≤ (s.sp i).confirmReads
  · have hmin : min 3 ((s.sp i).confirmReads + 1) = 3 := by omega
    rw [if_pos hlast, if_pos (by omega), hmin]
  · have hmin : min 3 ((s.sp i).confirmReads + 1) = (s.sp i).confirmReads + 1 := by omega
    rw [if_neg hlast, if_neg (by omega), hmin]

/-- The third confirm read in a row that is not UP: a failed piecing (R31, R54). -/
theorem classifyConfirming_fails {i : Nat} {c : ReadClass} {s : State} (hs : s.tabled) (hi : s.hasSpindle i = true)
    (hc : s.shift.closing = none) (hstate : (s.sp i).state = .confirming) (h : c ≠ .up) (hlast : 2 ≤ (s.sp i).confirmReads) :
    let t := classifyConfirming i c s
    let attempts := min 5 ((s.sp i).attempts + 1)
    (t.sp i).piecedAt = none ∧ (t.sp i).shiftBreaks = (s.sp i).shiftBreaks ∧ (t.sp i).downSince = (s.sp i).downSince ∧
    ((s.sec (stripOf i)).state = .exchanging → (t.sp i).state = .exchange ∧ (t.sp i).attempts = 0 ∧ t.shift = (book i s).shift) ∧
    ((s.sec (stripOf i)).state ≠ .exchanging → (t.sp i).attempts = attempts ∧
      (s.cfg.attemptLimit ≤ attempts → (t.sp i).state = .rogue ∧ (t.sp i).rogueMark = true ∧ t.shift = (book i s).shift) ∧
      (attempts < s.cfg.attemptLimit → t.shift = s.shift ∧ (t.sp i).state.inPiecing)) := by
  intro t attempts
  have ht : t = piecingEvent (failedPiecing i) (modifySp i (fun r => { r with confirmReads := 3 }) s) := by
    rw [show t = _ from classifyConfirming_eq i c s h, if_pos hlast]
  have hself : (modifySp i (fun r => { r with confirmReads := 3 }) s).sp i = { s.sp i with confirmReads := 3 } := modifySp_sp_self hi _
  have htabled : (modifySp i (fun r => { r with confirmReads := 3 }) s).tabled := tabled_modifySp hs i _ (by simp)
  have hi' : (modifySp i (fun r => { r with confirmReads := 3 }) s).hasSpindle i = true := by simpa using hi
  have hc' : (modifySp i (fun r => { r with confirmReads := 3 }) s).shift.closing = none := hc
  have hsame : (modifySp i (fun r => { r with confirmReads := 3 }) s).shift = s.shift ∧
      (modifySp i (fun r => { r with confirmReads := 3 }) s).del = s.del ∧
      (modifySp i (fun r => { r with confirmReads := 3 }) s).creel = s.creel ∧
      (modifySp i (fun r => { r with confirmReads := 3 }) s).port = s.port := ⟨rfl, rfl, rfl, rfl⟩
  generalize modifySp i (fun r => { r with confirmReads := 3 }) s = u at *
  obtain ⟨hshift, hdel, hcreel, hport⟩ := hsame
  have hbooked := bookedTo_of_isDown hs hi (isDown_ordered (.inr hstate))
  have hbook : (book i u).shift = (book i s).shift :=
    book_shift_congr hc hshift (by rw [hdel]) (by rw [hself]) (by rw [hself]) hbooked
  obtain ⟨hpieced, hbreaks, hsince, -, hexchange, helse⟩ :=
    failedPiecing_effect hi' hc' (by rw [hself]; exact hbooked) (.inr (by rw [hself]; exact hstate))
  rw [hself, sec_of_creel hcreel, cfg_of_port hport, hshift, hbook] at *
  have hclosing := failedPiecing_closing (i := i) hc'
  have hkept := (keepsPlaces_piecingEvent (tabled_failedPiecing htabled i) hclosing).2 i
  have hshiftKept := piecingEvent_shift_idle hclosing
  rw [← ht] at hkept hshiftKept
  have hout : ∀ {st : SpState}, ((failedPiecing i u).sp i).state = st → ¬ st.inPiecing → t.sp i = (failedPiecing i u).sp i :=
    fun hst hno => hkept.outside (by rw [hst]; exact hno)
  refine ⟨hkept.unpieced hpieced, hkept.shiftBreaks.trans hbreaks, hkept.downSince.trans hsince, fun hx => ?_, fun hx => ?_⟩
  · obtain ⟨hst, -, hatt, -, hbookShift⟩ := hexchange hx
    rw [hout hst (by simp [SpState.inPiecing])]
    exact ⟨hst, hatt, hshiftKept.trans hbookShift⟩
  · obtain ⟨hatt, hrogue, hjoins⟩ := helse hx
    refine ⟨hkept.attempts.trans hatt, fun hlimit => ?_, fun hless => ?_⟩
    · obtain ⟨hst, hmark, -, -, hbookShift⟩ := hrogue hlimit
      rw [hout hst (by simp [SpState.inPiecing])]
      exact ⟨hst, hmark, hshiftKept.trans hbookShift⟩
    · obtain ⟨-, hstay, hqueued, hwaiting, -⟩ := hjoins hless
      refine ⟨hshiftKept.trans hstay, hkept.stays ?_⟩
      by_cases hroom : (u.side (u.sideOf i)).queue.length < 48
      · exact .inl (hqueued hroom)
      · exact .inr (.inl (hwaiting (Nat.not_lt.1 hroom)))

end Sys2Proof.Machine
end

section
/-! PROOFS. The classifying read settled (R26 to R31). -/

namespace Sys2Proof.Machine

/-- An UP end at its second DOWN read in a row, in terms of the state before the read (R26, R45, R145). -/
theorem classify_upBreaks {i : Nat} {s : State} (hs : s.tabled) (hi : s.hasSpindle i = true) (hc : s.shift.closing = none)
    (hup : (s.sp i).state = .up) (hrun : 1 ≤ (s.sp i).downRun) :
    let t := classifyUp i .down s
    ((s.sec (stripOf i)).state = .exchanging → (t.sp i).state = .exchange ∧ (t.sp i).cause = some .roving) ∧
    ((s.sec (stripOf i)).state = .normal → s.atMargin ((s.remaining i).getD 0) = true →
      (t.sp i).state = .empty ∧ (t.sp i).cause = some .roving) ∧
    (t.sp i).downSince = some s.del.seconds ∧ (t.sp i).lazy = (s.sp i).lazy ∧
    (s.breaksDown i → ((t.sp i).state.inPiecing ∨ (t.sp i).state = .rogue) ∧
      (t.sp i).shiftBreaks = min 255 ((s.sp i).shiftBreaks + 1) ∧ t.shift = (countEvent .brk s).shift) := by
  intro t
  have hdown := classifyUp_goesDown hs hi hc hup hrun
  have hself : (modifySp i (Spindle.readUp .down) s).sp i = { s.sp i with downRun := min 2 ((s.sp i).downRun + 1), slowRun := 0 } :=
    (modifySp_sp_self hi _).trans (readUp_down _).1
  have hremaining : (modifySp i (Spindle.readUp .down) s).remaining i = s.remaining i :=
    modifySp_remaining hi (by rw [(readUp_down _).1]; exact ⟨rfl, rfl, rfl⟩)
  have hnone : ((modifySp i (Spindle.readUp .down) s).sp i).bookedTo = none := by
    rw [hself]
    exact (runs_sound hs (.inl hup) hi).2 hup
  have hshift : (countDown .sensed i (book i (modifySp i (Spindle.readUp .down) s))).shift = (countEvent .brk s).shift := by
    rw [book_none hnone]
    rfl
  have hsame : (modifySp i (Spindle.readUp .down) s).del = s.del ∧ (modifySp i (Spindle.readUp .down) s).creel = s.creel ∧
      (modifySp i (Spindle.readUp .down) s).port = s.port := ⟨rfl, rfl, rfl⟩
  generalize modifySp i (Spindle.readUp .down) s = u at *
  obtain ⟨hdel, hcreel, hport⟩ := hsame
  have hsec := sec_of_creel hcreel (stripOf i)
  have hmargin : u.atMargin ((u.remaining i).getD 0) = s.atMargin ((s.remaining i).getD 0) := by
    rw [State.atMargin, State.atMargin, hremaining, cfg_of_port hport]
  refine ⟨fun hx => ?_, fun hn hm => ?_, by rw [← hdel]; exact hdown.downSince, hdown.lazy.trans (by rw [hself]), fun hb => ?_⟩
  · obtain ⟨hstate, hcause, -⟩ := hdown.exchange (by rw [hsec]; exact hx)
    exact ⟨hstate, hcause⟩
  · obtain ⟨hstate, hcause, -⟩ := hdown.empty (by rw [hsec]; exact hn) (by rw [hmargin]; exact hm)
    exact ⟨hstate, hcause⟩
  · obtain ⟨hstate, hbreaks, -, -, -, hcounted⟩ := hdown.breaks (by unfold State.breaksDown; rw [hsec, hmargin]; exact hb)
    refine ⟨hstate.imp_right And.right, hbreaks.trans ?_, (hcounted (.inl (by rw [hself]; exact hup))).trans hshift⟩
    rw [hself]
    rfl

theorem classify_ordered {i : Nat} {s : State} (hi : s.hasSpindle i = true) (h : (s.sp i).state = .ordered) :
    onlyIn [.mon] s (classify i s) ∧
    (classify i s).sp i = { s.sp i with seenUp := (s.sp i).seenUp || (s.sp i).lastClass == .up } := by
  have ht : classify i s = if (s.sp i).lastClass = .up then modifySp i (fun r => { r with seenUp := true }) s else s := by
    unfold classify
    rw [h]
  rw [ht]
  split
  · next hup =>
    have hseen : ((s.sp i).seenUp || (s.sp i).lastClass == .up) = true := by
      rw [hup]
      exact Bool.or_true _
    refine ⟨modifySp_onlyIn .., (modifySp_sp_self hi _).trans ?_⟩
    rw [hseen]
  · next hup =>
    refine ⟨⟨rfl, fun b _ => by cases b <;> rfl⟩, ?_⟩
    rw [show ((s.sp i).lastClass == .up) = false from beq_false_of_ne hup, Bool.or_false]

/-- Settles O13. -/
theorem classifyingReadOfOneRecord : Obligations.ClassifyingReadOfOneRecord := by
  intro s i hs hi hc r t down empty isBreak
  refine ⟨fun h => ?_, fun h => classify_ordered hi h, fun h => ?_, fun h => ?_, fun h hc' => ?_, fun h hc' => ?_, fun h hc' hrun => ?_,
    fun h hc' hrun => ?_, fun h hc' => ?_⟩
  · rcases h with h | h | h | h | h <;> simp only [t, classify, show (s.sp i).state = _ from h]
  · have ht : t = classifyConfirming i r.lastClass s := by
      simp only [t, classify, show (s.sp i).state = _ from h]
      rfl
    refine ⟨fun hup => ?_, fun hno hfew => ?_, fun hno hlast => ?_⟩
    · obtain ⟨hstate, hcause, hto, hsince, -, -, hrobot, -, hshift⟩ := bookEnter_up hi hc
      obtain ⟨hatt, hpieced⟩ := hrobot (.inr h)
      rw [ht, hup]
      exact ⟨hstate, hcause, hto, hsince, hatt, hpieced, countEvent_shift_congr hshift⟩
    · rw [ht, classifyConfirming_eq i _ s hno, if_neg (Nat.not_le.2 hfew)]
      exact ⟨modifySp_onlyIn .., modifySp_sp_self hi _⟩
    · obtain ⟨hpieced, hbreaks, hsince, hexchange, helse⟩ := classifyConfirming_fails hs hi hc h hno hlast
      rw [ht]
      refine ⟨hpieced, hbreaks, hsince, hexchange, fun hx => ?_⟩
      exact helse hx
  · have ht : t = classifyBroken i r.lastClass s := by
      rcases h with h | h <;> simp only [t, classify, show (s.sp i).state = _ from h] <;> rfl
    refine ⟨fun hno => ?_, fun hup hzero => ?_, fun hup hrun => ?_⟩
    · rw [ht, classifyBroken_eq, if_neg fun h => hno h.1, if_neg hno]
      exact ⟨modifySp_onlyIn .., modifySp_sp_self hi _⟩
    · rw [ht, classifyBroken_eq, if_neg fun h => absurd h.2 (by rw [show (s.sp i).downRun = 0 from hzero]; decide), if_pos hup]
      exact ⟨modifySp_onlyIn .., modifySp_sp_self hi _⟩
    · rw [ht, hup]
      exact classifyBroken_hand hs hi hc h hrun
  · have ht : t = classifyUnseen i r.lastClass s := by
      simp only [t, classify, show (s.sp i).state = _ from h]
      rfl
    rw [ht]
    exact classifyUnseen_up hs hi hc h hc'
  · have ht : t = classifyUp i r.lastClass s := by
      simp only [t, classify, show (s.sp i).state = _ from h]
      rfl
    rw [ht, classifyUp_stays hi hc']
    exact readUp_stays hc' r
  · have ht : t = classifyUp i r.lastClass s := by
      simp only [t, classify, show (s.sp i).state = _ from h]
      rfl
    rw [ht.trans (congrArg (classifyUp i · s) hc'), classifyUp_down, if_neg (by rw [show (s.sp i).downRun = 0 from hrun]; decide)]
    refine ⟨modifySp_onlyIn .., (modifySp_sp_self hi _).trans ((readUp_down _).1.trans ?_)⟩
    rw [show (s.sp i).downRun = 0 from hrun]
    rfl
  · have ht : t = classifyUp i r.lastClass s := by
      simp only [t, classify, show (s.sp i).state = _ from h]
      rfl
    obtain ⟨hx, he, hsince, hlazy, hb⟩ := classify_upBreaks hs hi hc h hrun
    rw [hc'] at ht
    rw [← ht] at hx he hsince hlazy hb
    refine ⟨hx, he, hsince, hlazy, fun hbreak => ?_⟩
    obtain ⟨hstate, hbreaks, hshift⟩ := hb hbreak
    refine ⟨?_, hbreaks, hshift⟩
    rcases hstate with (hq | hw | ho) | hr
    · exact .inl hq
    · exact .inr (.inl hw)
    · exact .inr (.inr (.inr ho))
    · exact .inr (.inr (.inl hr))
  · have ht : t = piecingEvent (goDown .found i) s := by
      simp only [t, classify, show (s.sp i).state = _ from h, show (s.sp i).lastClass = _ from hc']
      rfl
    have hdown := event_goesDown (k := .found) hs hi hc (.inr h)
    rw [← ht] at hdown
    have hbreaks : (t.sp i).shiftBreaks = r.shiftBreaks := by
      cases hsec : (s.sec (stripOf i)).state with
      | exchanging => exact (hdown.exchange hsec).2.2.1
      | unknown => exact (hdown.breaks (.inl hsec)).2.1
      | normal =>
        by_cases hm : s.atMargin ((s.remaining i).getD 0) = true
        · exact (hdown.empty hsec hm).2.2.1
        · exact (hdown.breaks (.inr ⟨hsec, Bool.eq_false_iff.2 hm⟩)).2.1
    refine ⟨fun hx => ?_, fun hn hm => ?_, hdown.downSince, hbreaks, fun hb => ?_⟩
    · obtain ⟨hstate, hcause, -⟩ := hdown.exchange hx
      exact ⟨hstate, hcause⟩
    · obtain ⟨hstate, hcause, -⟩ := hdown.empty hn hm
      exact ⟨hstate, hcause⟩
    · obtain ⟨hstate, -, -, -, -, hcounted⟩ := hdown.breaks hb
      exact ⟨hstate.resolve_right (fun hno => absurd hno.1 (by decide)), hcounted (.inr (by decide))⟩

end Sys2Proof.Machine
end

section
/-! PROOFS. What an end that goes down leaves of the other ends (R71, R92, R93, R126). -/

namespace Sys2Proof.Machine

/-- Record `j` has more roving than the margin, or no prediction. -/
def State.far (s : State) (j : Nat) : Prop := ∀ left, s.remaining j = some left → s.atMargin left = false

theorem State.far.spared {s : State} {j : Nat} (h : s.far j) : ¬ s.marginTakes j := fun ⟨_, left, hleft, hm⟩ => by
  rw [h left hleft] at hm
  cases hm

theorem far_kept {s t : State} {j : Nat} (h : s.far j) (hkept : PlaceKept (s.sp j) (t.sp j))
    (hbase : (t.sec (stripOf j)).base = (s.sec (stripOf j)).base) (hdel : t.del = s.del) (hport : t.port = s.port) : t.far j := by
  intro left hleft
  have hremaining : t.remaining j = s.remaining j := by
    rw [State.remaining, State.remaining, hbase]
    exact congrArg (fun f => (s.sec (stripOf j)).base.map f) (funext fun b => remainingFrom_kept b hkept hdel hport)
  have hnot := h left (hremaining ▸ hleft)
  unfold State.atMargin at hnot ⊢
  rwa [cfg_of_port hport]

/-- What an end `i` that goes down leaves of the other records, of the sections and of the suspended engagements. -/
structure OthersKept (i : Nat) (s t : State) : Prop where
  tabled : t.tabled
  closing : t.shift.closing = none
  del : t.del = s.del
  port : t.port = s.port
  beside : t.besideRecords = s.besideRecords
  sec : ∀ k, (t.sec k).state = (s.sec k).state ∧ (t.sec k).base = (s.sec k).base
  still : ∀ j, j ≠ i → (s.sp j).state ≠ .waiting → (s.sp j).state ≠ .queued → t.sp j = s.sp j
  kept : ∀ j, j ≠ i → ((s.sec (stripOf j)).state = .normal → s.far j) → PlaceKept (s.sp j) (t.sp j)
  isDown : ∀ j, j ≠ i → (s.sp j).state.isDown = true → (t.sp j).state.isDown = true
  eng : ∀ x, (s.eng x).state = .suspended → t.eng x = s.eng x

/-- An event that touches no other record, no section and no engagement. -/
theorem othersKept_of {i : Nat} {s t : State} (htabled : t.tabled) (hc : t.shift.closing = none) (hdel : t.del = s.del)
    (hport : t.port = s.port) (hbeside : t.besideRecords = s.besideRecords) (hcreel : t.creel = s.creel)
    (hengines : t.engines = s.engines) (hsp : ∀ j, j ≠ i → t.sp j = s.sp j) : OthersKept i s t :=
  ⟨htabled, hc, hdel, hport, hbeside, fun k => by rw [sec_of_creel hcreel]; exact ⟨rfl, rfl⟩, fun j hj _ _ => hsp j hj,
    fun j hj _ => .of_eq (hsp j hj), fun j hj hdown => by rw [hsp j hj]; exact hdown, fun x _ => eng_of_engines hengines x⟩

/-- The margin check of the section of `i` after an end of it has gone empty. -/
theorem recomputeOne_othersKept {i : Nat} {s : State} (hs : s.tabled) (hc : s.shift.closing = none)
    (hnormal : (s.sec (stripOf i)).state = .normal) : OthersKept i s (recomputeOne (stripOf i) s) := by
  have hk : s.hasSection (stripOf i) = true := by
    by_contra hno
    rw [sec_blank hno] at hnormal
    cases hnormal
  have hr := recomputeOne_remargined hs hc hk hnormal
  have hkept : ∀ j, ((s.sec (stripOf j)).state = .normal → s.far j) → j ∈ indicesOf (stripOf i) → ¬ s.marginTakes j :=
    fun j h hj => (h (by rw [stripOf_mem (one_le_stripOf i) hj]; exact hnormal)).spared
  refine ⟨hr.tabled, hr.closing, by simp, by simp, by simp, fun k => ?_, fun j _ => hr.still j, fun j _ h => hr.kept j (hkept j h),
    fun j _ hdown => ?_, fun x hx => recomputeOne_eng _ (.inr hx)⟩
  · by_cases hki : k = stripOf i
    · subst hki
      rw [hr.self]
      exact ⟨rfl, rfl⟩
    · rw [hr.sec k hki]
      exact ⟨rfl, rfl⟩
  · by_cases htaken : j ∈ indicesOf (stripOf i) ∧ s.marginTakes j
    · rw [(hr.taken j htaken.1 htaken.2).1]
      rfl
    · rw [(hr.kept j fun hj hm => htaken ⟨hj, hm⟩).isDown]
      exact hdown

theorem OthersKept.trans {i : Nat} {s t u : State} (h : OthersKept i s t) (h' : OthersKept i t u) : OthersKept i s u := by
  refine ⟨h'.tabled, h'.closing, h'.del.trans h.del, h'.port.trans h.port, h'.beside.trans h.beside,
    fun k => ⟨(h'.sec k).1.trans (h.sec k).1, (h'.sec k).2.trans (h.sec k).2⟩, fun j hj hw hq => ?_, fun j hj hm => ?_,
    fun j hj hdown => h'.isDown j hj (h.isDown j hj hdown), fun x hx => ?_⟩
  · have hfirst := h.still j hj hw hq
    exact (h'.still j hj (by rw [hfirst]; exact hw) (by rw [hfirst]; exact hq)).trans hfirst
  · have hfirst := h.kept j hj hm
    exact hfirst.trans (h'.kept j hj fun hnormal => far_kept (hm ((h.sec _).1 ▸ hnormal)) hfirst (h.sec _).2 h.del h.port)
  · have hfirst := h.eng x hx
    exact (h'.eng x (by rw [hfirst]; exact hx)).trans hfirst

section
variable {k : Placement} {i : Nat} {s : State} (hs : s.tabled) (hi : s.hasSpindle i = true) (hc : s.shift.closing = none)
  (h : (s.sp i).runs)
include hs hi hc h

theorem goDown_othersKept : OthersKept i s (goDown k i s) := by
  have htabled := tabled_goDown hs k i hi
  have hclosing := goDown_closing (k := k) hs hi hc h
  have hbroken : OthersKept i s (goDown k i s) ∨ ¬ s.breaksDown i := by
    by_cases hb : s.breaksDown i
    · refine .inl ?_
      rw [goDown_breaks k hc hs hi h hb] at *
      refine othersKept_of htabled hclosing (by simp) (by simp) (by simp) (by simp) ?_ fun j hj => ?_
      · exact (place_engines ..).trans ((engines_of_pie (by simp)).trans (book_engines i s))
      · have hi' : (countDown k i (book i s)).hasSpindle i = true := by simpa using hi
        obtain ⟨-, -, -, -, hother, -⟩ := place_effect (k := k) hi' (countDown_closing (book_closing i hc) k i)
        exact (hother j hj).trans (((countDown_sp (by simpa using hi) k).2 j hj).trans (book_sp_ne hj.symm s))
    · exact .inr hb
  have hentered : ∀ st, st ≠ .queued → st ≠ .waiting → OthersKept i s (bookEnter i st s) := fun st hq hw =>
    othersKept_of (tabled_bookEnter hs i st hq hw) (bookEnter_closing hc i st) (by simp) (by simp) (by simp) (by simp) (by simp)
      fun j hj => bookEnter_sp_ne hj.symm st s
  cases hsec : (s.sec (stripOf i)).state with
  | exchanging =>
    rw [goDown_exchange k hc hsec]
    exact hentered _ (by decide) (by decide)
  | unknown => exact hbroken.resolve_right fun hno => hno (.inl hsec)
  | normal =>
    by_cases hm : s.atMargin ((s.remaining i).getD 0) = true
    · have hempty := hentered .empty (by decide) (by decide)
      rw [goDown_normal k hc hs hi h hsec, if_pos hm]
      have halert : OthersKept i (bookEnter i .empty s) (emptyAlert i (bookEnter i .empty s)) :=
        othersKept_of (tabled_emptyAlert hempty.tabled i) (by rw [emptyAlert_shift]; exact hempty.closing) (by simp) (by simp) (by simp)
          (by simp) (engines_of_pie (by simp)) fun j _ => sp_of_mon (by simp) j
      have hboth := hempty.trans halert
      have hgone : goneEmpty i (bookEnter i .empty s) = recomputeOne (stripOf i) (emptyAlert i (bookEnter i .empty s)) :=
        if_pos ((hboth.sec _).1.trans hsec)
      rw [hgone]
      exact hboth.trans (recomputeOne_othersKept hboth.tabled hboth.closing ((hboth.sec _).1.trans hsec))
    · exact hbroken.resolve_right fun hno => hno (.inr ⟨hsec, Bool.eq_false_iff.2 hm⟩)

/-- The end that goes down, with the refill and the news that follow, leaves the others so. -/
theorem event_othersKept : OthersKept i s (piecingEvent (goDown k i) s) := by
  have hdown := goDown_othersKept (k := k) hs hi hc h
  have hplaces := (keepsPlaces_piecingEvent (f := goDown k i) hdown.tabled hdown.closing).2
  refine hdown.trans ⟨tabled_piecingEvent _ hdown.tabled, ?_, by simp [piecingEvent], by simp [piecingEvent], by simp [piecingEvent],
    fun m => ?_, fun j _ hw hq => piecingEvent_sp _ hdown.tabled j hw hq, fun j _ _ => hplaces j, fun j _ hd => ?_,
    fun x hx => piecingEvent_eng (f := goDown k i) (.inr hx)⟩
  · rw [piecingEvent_shift_idle (f := goDown k i) hdown.closing]
    exact hdown.closing
  · rw [sec_of_creel (show (piecingEvent (goDown k i) s).creel = (goDown k i s).creel by simp [piecingEvent])]
    exact ⟨rfl, rfl⟩
  · rw [(hplaces j).isDown]
    exact hd
end

end Sys2Proof.Machine
end

section
/-! PROOFS. The end of the settle window (R126, R145). -/

namespace Sys2Proof.Machine

/-! ### A failed start -/

/-- What has become of record `i`, which failed to start in `s`, in the state `t` after it went down. -/
structure FailedStart (i : Nat) (s t : State) : Prop where
  downSince : (t.sp i).downSince = some s.del.seconds
  bookedTo : (t.sp i).bookedTo = some s.del.count
  shiftBreaks : (t.sp i).shiftBreaks = (s.sp i).shiftBreaks
  exchange : (s.sec (stripOf i)).state = .exchanging → (t.sp i).state = .exchange
  empty : (s.sec (stripOf i)).state = .normal → s.atMargin ((s.remaining i).getD 0) = true → (t.sp i).state = .empty
  breaks : s.breaksDown i → (t.sp i).state.inPiecing ∧ (t.sp i).doffStart = true ∧ (t.sp i).attempts = (s.sp i).attempts ∧
    (t.sp i).piecedAt = none ∧ t.remaining i = s.remaining i

/-- A record that was UP or UNSEEN keeps its prediction as it goes down at the present pulse. -/
theorem remaining_goesDown {i : Nat} {s t : State} (hs : (s.sp i).state.isDown = false) (ht : (t.sp i).state.isDown = true)
    (hto : (t.sp i).bookedTo = some s.del.count) (hlost : (t.sp i).lostSinceBase = (s.sp i).lostSinceBase)
    (hbase : (t.sec (stripOf i)).base = (s.sec (stripOf i)).base) (hdel : t.del = s.del) (hport : t.port = s.port) :
    t.remaining i = s.remaining i := by
  have hfrom : ∀ b, t.remainingFrom b i = s.remainingFrom b i := fun b => by
    unfold State.remainingFrom State.draft State.count
    dsimp only
    rw [ht, hs, hto, hlost, hdel, cfg_of_port hport]
    simp [upPulses]
  rw [State.remaining, State.remaining, hbase]
  exact congrArg (fun f => (s.sec (stripOf i)).base.map f) (funext hfrom)

theorem inPiecing_isDown {st : SpState} (h : st.inPiecing) : st.isDown = true := by rcases h with h | h | h <;> rw [h] <;> rfl

theorem GoesDown.failedStart {i : Nat} {s t : State} (h : GoesDown .settle i s t) (hruns : (s.sp i).runs) (hothers : OthersKept i s t) :
    FailedStart i s t := by
  have hbreaks : (t.sp i).shiftBreaks = (s.sp i).shiftBreaks := by
    cases hsec : (s.sec (stripOf i)).state with
    | exchanging => exact (h.exchange hsec).2.2.1
    | unknown => exact (h.breaks (.inl hsec)).2.1
    | normal =>
      by_cases hm : s.atMargin ((s.remaining i).getD 0) = true
      · exact (h.empty hsec hm).2.2.1
      · exact (h.breaks (.inr ⟨hsec, Bool.eq_false_iff.2 hm⟩)).2.1
  refine ⟨h.downSince, h.bookedTo, hbreaks, fun hx => (h.exchange hx).1, fun hn hm => (h.empty hn hm).1, fun hb => ?_⟩
  obtain ⟨hstate, -, hatt, hpieced, hrest, -⟩ := h.breaks hb
  obtain ⟨hstart, hlost⟩ := hrest (by decide)
  have hin : (t.sp i).state.inPiecing := hstate.resolve_right fun hno => absurd hno.1 (by decide)
  exact ⟨hin, hstart, hatt, hpieced, remaining_goesDown hruns.notDown (inPiecing_isDown hin) h.bookedTo hlost (hothers.sec _).2
    hothers.del hothers.port⟩

/-- Another end that goes down later leaves it so. -/
theorem FailedStart.later {i j : Nat} {s u v : State} (h : FailedStart j s u) (hj : j ≠ i) (hport : u.port = s.port)
    (hsec : (u.sec (stripOf j)).state = (s.sec (stripOf j)).state) (hothers : OthersKept i u v) : FailedStart j s v := by
  by_cases hb : s.breaksDown j
  · obtain ⟨hin, hstart, hatt, hpieced, hremaining⟩ := h.breaks hb
    have hfar : (u.sec (stripOf j)).state = .normal → u.far j := fun hn left hleft => by
      obtain hu | ⟨-, hm⟩ := hb
      · rw [← hsec, hn] at hu
        cases hu
      · rw [hremaining] at hleft
        rw [hleft] at hm
        unfold State.atMargin at hm ⊢
        rwa [cfg_of_port hport]
    have hkept := hothers.kept j hj hfar
    have hremaining' : v.remaining j = u.remaining j := by
      rw [State.remaining, State.remaining, (hothers.sec _).2]
      exact congrArg (fun f => (u.sec (stripOf j)).base.map f)
        (funext fun b => remainingFrom_kept b hkept hothers.del hothers.port)
    have hapart : (s.sec (stripOf j)).state ≠ .exchanging ∧
        ¬ ((s.sec (stripOf j)).state = .normal ∧ s.atMargin ((s.remaining j).getD 0) = true) := by
      rcases hb with hu | ⟨hn, hm⟩
      · rw [hu]
        exact ⟨by decide, fun hno => by cases hno.1⟩
      · rw [hn, hm]
        exact ⟨by decide, fun hno => by cases hno.2⟩
    exact ⟨hkept.downSince.trans h.downSince, hkept.bookedTo.trans h.bookedTo, hkept.shiftBreaks.trans h.shiftBreaks,
      fun hx => absurd hx hapart.1, fun hn hm => absurd ⟨hn, hm⟩ hapart.2, fun _ => ⟨hkept.stays hin, hkept.doffStart.trans hstart,
        hkept.attempts.trans hatt, hkept.unpieced hpieced, hremaining'.trans hremaining⟩⟩
  · have hgone : (u.sp j).state = .exchange ∨ (u.sp j).state = .empty := by
      cases hstate : (s.sec (stripOf j)).state with
      | exchanging => exact .inl (h.exchange hstate)
      | unknown => exact absurd (.inl hstate) hb
      | normal =>
        refine .inr (h.empty hstate ?_)
        by_contra hm
        exact hb (.inr ⟨hstate, Bool.eq_false_iff.2 hm⟩)
    have hsame : v.sp j = u.sp j := hothers.still j hj (by rcases hgone with h | h <;> rw [h] <;> decide)
      (by rcases hgone with h | h <;> rw [h] <;> decide)
    exact ⟨by rw [hsame]; exact h.downSince, by rw [hsame]; exact h.bookedTo, by rw [hsame]; exact h.shiftBreaks,
      fun hx => by rw [hsame]; exact h.exchange hx, fun hn hm => by rw [hsame]; exact h.empty hn hm, fun hyes => absurd hyes hb⟩

theorem FailedStart.of_same {i : Nat} {s u v : State} (h : FailedStart i u v) (hsp : u.sp i = s.sp i)
    (hsec : (u.sec (stripOf i)).state = (s.sec (stripOf i)).state ∧ (u.sec (stripOf i)).base = (s.sec (stripOf i)).base)
    (hdel : u.del = s.del) (hport : u.port = s.port) : FailedStart i s v := by
  obtain ⟨hstate, hbase⟩ := hsec
  have hremaining : u.remaining i = s.remaining i := by
    rw [State.remaining, State.remaining, hbase]
    exact congrArg (fun f => (s.sec (stripOf i)).base.map f) (funext fun b => remainingFrom_congr b hsp hdel hport)
  have hmargin : u.atMargin ((u.remaining i).getD 0) = s.atMargin ((s.remaining i).getD 0) := by
    rw [State.atMargin, State.atMargin, hremaining, cfg_of_port hport]
  obtain ⟨hsince, hto, hbreaks, hx, he, hb⟩ := h
  unfold State.breaksDown at hb
  rw [hmargin, hremaining] at hb
  rw [hmargin] at he
  rw [hsp] at hbreaks hb
  rw [hstate] at hx he hb
  rw [hdel] at hsince hto
  exact ⟨hsince, hto, hbreaks, hx, he, hb⟩

/-! ### The records judged in ascending order -/

theorem failedStart_iff {s : State} {start i : Nat} : s.failedStart start i = true ↔
    ((s.sp i).state = .up ∨ (s.sp i).state = .unseen) ∧ (s.strip (stripOf i)).failed = false ∧
    (∃ a, (s.strip (stripOf i)).lastAnswered = some a ∧ start ≤ a) ∧ ((s.sp i).lastClass = .down ∨ (s.sp i).lastClass = .slow) := by
  simp [State.failedStart, and_assoc, Option.any_eq_true]

theorem failedStart_runs {s : State} {start i : Nat} (h : s.failedStart start i = true) : (s.sp i).runs := (failedStart_iff.1 h).1

theorem failedStart_has {s : State} {start i : Nat} (h : s.failedStart start i = true) : s.hasSpindle i = true :=
  hasSpindle_of_class (by rcases (failedStart_iff.1 h).2.2.2 with h | h <;> rw [h] <;> decide)

theorem judge_failed {s : State} {start i : Nat} (h : s.failedStart start i = true) :
    judge start i s = piecingEvent (goDown .settle i) s := if_pos h

theorem judge_spared {s : State} {start i : Nat} (h : ¬ s.failedStart start i = true) : judge start i s = s := if_neg h

/-- What judging the records of `l` does to a state `s`, each of which it judges as it stands there. -/
structure SettleJudged (start : Nat) (l : List Nat) (s t : State) : Prop where
  tabled : t.tabled
  closing : t.shift.closing = none
  del : t.del = s.del
  port : t.port = s.port
  beside : t.besideRecords = s.besideRecords
  sec : ∀ k, (t.sec k).state = (s.sec k).state ∧ (t.sec k).base = (s.sec k).base
  failed : ∀ i ∈ l, s.failedStart start i = true → FailedStart i s t
  still : ∀ i, (i ∈ l → ¬ s.failedStart start i = true) → (s.sp i).state ≠ .waiting → (s.sp i).state ≠ .queued → t.sp i = s.sp i
  isDown : ∀ i, (s.sp i).state.isDown = true → (t.sp i).state.isDown = true
  eng : ∀ x, (s.eng x).state = .suspended → t.eng x = s.eng x

theorem SettleJudged.nil {start : Nat} {s : State} (hs : s.tabled) (hc : s.shift.closing = none) : SettleJudged start [] s s :=
  ⟨hs, hc, rfl, rfl, rfl, fun _ => ⟨rfl, rfl⟩, by simp, fun _ _ _ _ => rfl, fun _ => id, fun _ _ => rfl⟩

/-- A record not yet judged is judged as it stood before. -/
theorem SettleJudged.failedStart_iff {start i : Nat} {l : List Nat} {s t : State} (h : SettleJudged start l s t) (hi : i ∉ l) :
    t.failedStart start i = true ↔ s.failedStart start i = true := by
  by_cases hq : (s.sp i).state = .waiting ∨ (s.sp i).state = .queued
  · have hdown : (s.sp i).state.isDown = true := by rcases hq with h | h <;> rw [h] <;> rfl
    have hdown' := h.isDown i hdown
    refine ⟨fun hyes => ?_, fun hyes => ?_⟩
    · rw [(failedStart_runs hyes).notDown] at hdown'
      cases hdown'
    · rw [(failedStart_runs hyes).notDown] at hdown
      cases hdown
  · have hsame := h.still i (fun hno => absurd hno hi) (fun hw => hq (.inl hw)) (fun hq' => hq (.inr hq'))
    unfold State.failedStart
    rw [hsame, strip_of_beside h.beside]

theorem judge_judged {start i : Nat} {l : List Nat} {s u : State} (h : SettleJudged start l s u) (hi : i ∉ l) :
    SettleJudged start (l ++ [i]) s (judge start i u) := by
  by_cases hf : s.failedStart start i = true
  · have hfu := (h.failedStart_iff hi).2 hf
    have hruns := failedStart_runs hfu
    have hhas := failedStart_has hfu
    have hstill := failedStart_runs hf
    have hsame : u.sp i = s.sp i := h.still i (fun hno => absurd hno hi) hstill.notWaiting.1 hstill.notWaiting.2
    have hothers := event_othersKept (k := .settle) h.tabled hhas h.closing hruns
    have hown := (event_goesDown (k := .settle) h.tabled hhas h.closing hruns).failedStart hruns hothers
    rw [judge_failed hfu]
    generalize piecingEvent (goDown .settle i) u = v at *
    refine ⟨hothers.tabled, hothers.closing, hothers.del.trans h.del, hothers.port.trans h.port, hothers.beside.trans h.beside,
      fun k => ⟨(hothers.sec k).1.trans (h.sec k).1, (hothers.sec k).2.trans (h.sec k).2⟩, fun j hj hyes => ?_, fun j hj hw hq => ?_,
      fun j hdown => ?_, fun x hx => ?_⟩
    · by_cases hji : j = i
      · subst hji
        exact hown.of_same hsame (h.sec _) h.del h.port
      · have hjl : j ∈ l := (List.mem_append.1 hj).resolve_right fun hno => hji (List.mem_singleton.1 hno)
        exact (h.failed j hjl hyes).later hji h.port (h.sec _).1 hothers
    · have hji : j ≠ i := fun hno => hj (by simp [hno]) (hno ▸ hf)
      have hfirst := h.still j (fun hjl => hj (List.mem_append_left _ hjl)) hw hq
      exact (hothers.still j hji (by rw [hfirst]; exact hw) (by rw [hfirst]; exact hq)).trans hfirst
    · have hji : j ≠ i := fun hno => by
        rw [hno, hstill.notDown] at hdown
        cases hdown
      exact hothers.isDown j hji (h.isDown j hdown)
    · have hfirst := h.eng x hx
      exact (hothers.eng x (by rw [hfirst]; exact hx)).trans hfirst
  · rw [judge_spared fun hno => hf ((h.failedStart_iff hi).1 hno)]
    refine ⟨h.tabled, h.closing, h.del, h.port, h.beside, h.sec, fun j hj hyes => ?_, fun j hj => ?_, h.isDown, h.eng⟩
    · obtain hjl | hji := List.mem_append.1 hj
      · exact h.failed j hjl hyes
      · exact absurd (List.mem_singleton.1 hji ▸ hyes) hf
    · exact h.still j fun hjl => hj (List.mem_append_left _ hjl)

theorem each_judge_judged {start : Nat} {s : State} (rest : List Nat) :
    ∀ done u, (done ++ rest).Nodup → SettleJudged start done s u → SettleJudged start (done ++ rest) s (each rest (judge start) u) := by
  induction rest with
  | nil =>
    intro done u _ h
    rw [List.append_nil]
    exact h
  | cons i rest ih =>
    intro done u hnodup h
    have hi : i ∉ done := fun hmem => (List.nodup_append.1 hnodup).2.2 i hmem i List.mem_cons_self rfl
    have hsplit : done ++ i :: rest = (done ++ [i]) ++ rest := by simp
    rw [hsplit] at hnodup ⊢
    exact ih _ _ hnodup (judge_judged h hi)

/-- What judging every record of the table does. -/
theorem allJudged {s : State} (hs : s.tabled) (hc : s.shift.closing = none) (start : Nat) :
    SettleJudged start s.indices s (each s.indices (judge start) s) :=
  each_judge_judged s.indices [] s List.nodup_range' (.nil hs hc)

end Sys2Proof.Machine
end

section
/-! PROOFS. SETTLE_WINDOW_END settled (R126, R145). -/

namespace Sys2Proof.Machine

/-- The doff record as the settle window ends. -/
def State.spinsAgain (s : State) : State :=
  { s with doff := { s.doff with settleStart := none, state := .spinning, urgency := .normal, manual := false } }

theorem judge_onlyIn (start i : Nat) (s : State) : onlyIn [.mon, .pie, .creel, .shift, .line, .frame, .draws] s (judge start i s) :=
  ⟨by simp, fun b hb => by cases b <;> simp_all [Block.same]⟩

/-- What the end of the settle window does. -/
theorem settleEnd_effect {s : State} (hs : s.tabled) (hc : s.shift.closing = none) :
    let t := settleEnd s
    let start := s.doff.settleStart.getD 0
    onlyIn [.mon, .pie, .creel, .doff, .shift, .line, .frame, .draws] s t ∧ t.doff = s.spinsAgain.doff ∧
    (∀ i, s.failedStart start i = true → FailedStart i s t) ∧
    (∀ i, ¬ s.failedStart start i = true → (s.sp i).state ≠ .waiting → (s.sp i).state ≠ .queued → t.sp i = s.sp i) ∧
    (∀ x, x = .a ∨ s.cfg.joined ≠ 1 → (s.eng x).state = .suspended →
      (t.eng x).state = if t.queuesEmpty x = true then .idle else .calling) := by
  intro t start
  have ht : t = resumeEngagements (each s.spinsAgain.indices (judge start) s.spinsAgain) := rfl
  have htabled : s.spinsAgain.tabled := SameTables.tabled (s := s) ⟨rfl, rfl, rfl, rfl, fun _ => rfl, fun _ => rfl, rfl⟩ hs
  have hjudged := allJudged (s := s.spinsAgain) htabled hc start
  have hblocks : onlyIn [.mon, .pie, .creel, .shift, .line, .frame, .draws] s.spinsAgain
      (each s.spinsAgain.indices (judge start) s.spinsAgain) :=
    each_keepsProp (fun u => onlyIn [.mon, .pie, .creel, .shift, .line, .frame, .draws] s.spinsAgain u) _ _
      (fun i u h => onlyIn_trans h (judge_onlyIn start i u)) ⟨rfl, fun b _ => by cases b <;> rfl⟩
  have hfirst : onlyIn [.doff] s s.spinsAgain := ⟨rfl, fun b hb => by cases b <;> simp_all [Block.same, State.spinsAgain]⟩
  have hindices : ∀ i, s.failedStart start i = true → i ∈ s.spinsAgain.indices := fun i hi => mem_indices.2 (failedStart_has hi)
  generalize each s.spinsAgain.indices (judge start) s.spinsAgain = u at *
  obtain ⟨hresumed, hsummary, hsuspended⟩ := resumeEngagements_effect u
  rw [← ht] at hresumed hsummary hsuspended
  have hmon : t.mon = u.mon := hresumed.2 .mon (by simp)
  have hcreel : t.creel = u.creel := hresumed.2 .creel (by simp)
  have hport : u.port = s.port := hjudged.port
  refine ⟨onlyIn_seq (onlyIn_seq (cs := [.mon, .pie, .creel, .doff, .shift, .line, .frame, .draws]) hfirst hblocks (by simp) (by simp))
    hresumed (by simp) (by simp), (hresumed.2 .doff (by simp)).trans (hblocks.2 .doff (by simp)), fun i hi => ?_, fun i hi hw hq => ?_,
    fun x hx hstate => ?_⟩
  · have hfailed : FailedStart i s u := (hjudged.failed i (hindices i hi) hi).of_same rfl ⟨rfl, rfl⟩ rfl rfl
    obtain ⟨hsince, hto, hbreaks, hexchange, hempty, hb⟩ := hfailed
    have hremaining : t.remaining i = u.remaining i :=
      remaining_congr (sp_of_mon hmon i) (sec_of_creel hcreel _) (hresumed.2 .del (by simp)) (hresumed.2 .port (by simp))
    rw [← sp_of_mon hmon] at hsince hto hbreaks hexchange hempty hb
    rw [← hremaining] at hb
    exact ⟨hsince, hto, hbreaks, hexchange, hempty, hb⟩
  · exact (sp_of_mon hmon i).trans (hjudged.still i (fun _ hyes => hi hyes) hw hq)
  · have heng : (u.eng x).state = .suspended := by
      rw [hjudged.eng x hstate]
      exact hstate
    rw [hsummary.queuesEmpty]
    exact hsuspended x (by rw [cfg_of_port hport]; exact hx) heng

/-- What judging one failed start books and counts (R145). -/
theorem judge_shift {s : State} {start i : Nat} (hs : s.tabled) (hc : s.shift.closing = none) (h : s.failedStart start i = true) :
    (s.breaksDown i → (judge start i s).shift = (countEvent .doffStart (book i s)).shift) ∧
    ((s.sec (stripOf i)).state = .exchanging → (judge start i s).shift = (book i s).shift) ∧
    ((s.sec (stripOf i)).state = .normal → s.atMargin ((s.remaining i).getD 0) = true → s.noneAtMargin (stripOf i) →
      (judge start i s).shift = (book i s).shift) := by
  have hdown := event_goesDown (k := .settle) hs (failedStart_has h) hc (failedStart_runs h)
  rw [judge_failed h]
  refine ⟨fun hb => ?_, fun hx => (hdown.exchange hx).2.2.2, fun hn hm hnone => (hdown.empty hn hm).2.2.2 hnone⟩
  obtain ⟨-, -, -, -, -, hshift⟩ := hdown.breaks hb
  exact (hshift (.inr (by decide))).trans (countEvent_shift_congr rfl)

/-- Settles O41. -/
theorem settleWindowJudgesTheStart : Obligations.SettleWindowJudgesTheStart := by
  intro s hw hs hc
  have hexec : exec .settleWindowEnd s =
      .next (if s.doff.state = .settling ∧ s.cfg.settleWindow ≤ s.doff.settleSeconds then settleEnd s else s) := inRunning_works hw _
  refine ⟨fun hno => ?_, fun hsettling hdue => ?_⟩
  · rw [hexec, if_neg]
    rintro ⟨hstate, hdue⟩
    exact hno.elim (fun h => h hstate) (fun h => Nat.not_lt.2 hdue h)
  · intro start failed margin
    rw [if_pos ⟨hsettling, hdue⟩] at hexec
    obtain ⟨hblocks, hdoff, hfailed, hstill, hsuspended⟩ := settleEnd_effect hs hc
    have hmargin : ∀ i, margin i ↔ s.atMargin ((s.remaining i).getD 0) = true := fun i => by simp [margin, State.atMargin]
    have hbreaks : ∀ i, (s.sec (stripOf i)).state = .unknown ∨ (s.sec (stripOf i)).state = .normal ∧ ¬ margin i → s.breaksDown i :=
      fun i hi => hi.imp_right fun ⟨hn, hm⟩ => ⟨hn, Bool.eq_false_iff.2 fun h => hm ((hmargin i).2 h)⟩
    refine ⟨_, hexec, hblocks, hdoff, fun i _ hi => ?_, fun i _ hi => ?_, fun i hi => ?_, fun i hi => ?_, hsuspended⟩
    · have hf := hfailed i (failedStart_iff.2 hi)
      refine ⟨hf.downSince, hf.bookedTo, hf.shiftBreaks, hf.exchange, fun hn hm => hf.empty hn ((hmargin i).1 hm), fun hb => ?_⟩
      obtain ⟨hin, hstart, hatt, hpieced, -⟩ := hf.breaks (hbreaks i hb)
      refine ⟨?_, hstart, hatt, hpieced⟩
      exact hin
    · obtain ⟨hcounts, hexchange, hempty⟩ := judge_shift hs hc (failedStart_iff.2 hi)
      exact ⟨fun hb => hcounts (hbreaks i hb), hexchange, fun hn hm hnone => hempty hn ((hmargin i).1 hm) hnone⟩
    · exact judge_spared fun h => hi (failedStart_iff.1 h)
    · exact hstill i fun h => hi (failedStart_iff.1 h)

end Sys2Proof.Machine
end
